-- ==== Sys2Proof/Word.lean ====
section
/-! DEFINITION. Word.lean: words, bytes, and the plainest arithmetic and table access on plain data. -/

namespace Sys2Proof

abbrev Byte := BitVec 8
abbrev Word := BitVec 64
abbrev U32 := BitVec 32

/-- A table: key and value pairs, keys strictly rising, at most one value a key. -/
abbrev Tab (α : Type) := List (Nat × α)

/-- The value a table holds at a key. -/
def tabFind {α : Type} : Tab α → Nat → Option α
  | [], _ => none
  | (k, v) :: t, n => if k = n then some v else tabFind t n

/-- A table's value at a key, or what an unlisted key reads as. -/
def tabGet {α : Type} (t : Tab α) (d : α) (n : Nat) : α := (tabFind t n).getD d

/-- Sets the value at a key; keys stay strictly rising. -/
def tabSet {α : Type} : Tab α → Nat → α → Tab α
  | [], n, a => [(n, a)]
  | (k, v) :: t, n, a =>
    if n < k then (n, a) :: (k, v) :: t
    else if n = k then (n, a) :: t
    else (k, v) :: tabSet t n a

/-- Removes a key. -/
def tabDel {α : Type} (t : Tab α) (n : Nat) : Tab α := t.filter (fun p => p.1 ≠ n)

/-- Keys strictly rise: the one form in which a table is held. -/
def tabSorted {α : Type} : Tab α → Bool
  | [] => true
  | [_] => true
  | (a, _) :: (b, v) :: t => decide (a < b) && tabSorted ((b, v) :: t)

/-- Ceiling division. -/
def cdiv (a b : Nat) : Nat := (a + b - 1) / b

/-- `a` rounded up to a multiple of `b`. -/
def roundUp (a b : Nat) : Nat := cdiv a b * b

/-- Bits [hi:lo] of a number. -/
def bitsOf (w : Nat) (hi lo : Nat) : Nat := (w / 2 ^ lo) % 2 ^ (hi + 1 - lo)

/-- Bit `i` of a number. -/
def bitOf (w : Nat) (i : Nat) : Bool := (w / 2 ^ i) % 2 = 1

/-- A truth value as 0 or 1. -/
def b2n (b : Bool) : Nat := if b then 1 else 0

/-- The bytes of a number, least significant first (R6). -/
def leBytes : Nat → Nat → List Byte
  | 0, _ => []
  | n + 1, v => BitVec.ofNat 8 v :: leBytes n (v / 256)

/-- The number that bytes spell, least significant first (R6). -/
def leNat : List Byte → Nat
  | [] => 0
  | b :: t => b.toNat + 256 * leNat t

/-- `a` saturating at `m`. -/
def satAt (m a : Nat) : Nat := if a ≤ m then a else m

/-- Replaces the element at an index of a list. -/
def listSet {α : Type} : List α → Nat → α → List α
  | [], _, _ => []
  | _ :: t, 0, a => a :: t
  | x :: t, n + 1, a => x :: listSet t n a

/-- Drops the element at an index of a list. -/
def listDel {α : Type} : List α → Nat → List α
  | [], _ => []
  | _ :: t, 0 => t
  | x :: t, n + 1 => x :: listDel t n

/-- Changes the first element that a test accepts. -/
def modFirst {α : Type} (p : α → Bool) (f : α → α) : List α → List α
  | [] => []
  | x :: t => if p x then f x :: t else x :: modFirst p f t

/-- Removes the first element that a test accepts. -/
def delFirst {α : Type} (p : α → Bool) : List α → List α
  | [] => []
  | x :: t => if p x then t else x :: delFirst p t

end Sys2Proof
end

