-- ==== Sys2Proof/OperandTypes.lean ====
section
/-! DEFINITION. OperandTypes.lean: what a command can carry from outside the device. -/

namespace Sys2Proof

/-- The boundary FIFO rows of R58. -/
inductive FifoKind where
  | hbmRead | hbmWrite | linkIn | linkOut | fabRx | fabTx | hostRx | hostTx | ingestRx | mgmtRx | mgmtTx
  deriving DecidableEq, Repr

/-- One boundary FIFO instance: its row of R58 and its number among that row's instances. -/
structure FifoId where
  kind : FifoKind
  idx : Nat
  deriving DecidableEq, Repr

/-- What a writer does to a FIFO (R61): reserve HEAD, store DATA, or write LAST with LEN and ABORT. -/
inductive FifoPut where
  | head
  | data (bits : Nat)
  | last (bits : Nat) (abort : Bool)
  deriving DecidableEq, Repr

/-- The two sides of a FIFO, as the target of a pointer crossing (R67). -/
inductive FifoSide where
  | reader | writer
  deriving DecidableEq, Repr

/-- The lottery arbiters of R224, R231 and R462. -/
inductive ArbId where
  | channel (stack : Fin 12) (pc : Fin 64)
  | trellis (die : Fin 4) (stop : Fin 16) (output : Fin 5) (vc : Fin 4)
  | egress (link : Fin 2) (edge : Fin 2) (vc : Fin 4)
  | port (port : Fin 16) (vc : Fin 4)
  deriving DecidableEq, Repr

/-- What travels on Trellis (R22). -/
inductive Traffic where
  | request | response | token | credit | scatterAdd | reduction
  deriving DecidableEq, Repr

/-- The virtual channel of what travels (R22). -/
def trafficVc : Traffic → Fin 4
  | .request => 0
  | .response => 1
  | .token => 2
  | .credit => 2
  | .scatterAdd => 3
  | .reduction => 3

/-- A request for a grant (R225, R231): who asks, the unit it comes from, what would travel, and, at a pseudo-channel, the transfer
that it declares whole: its first access unit, how many, and whether it writes. -/
structure Ask where
  requester : Fin 9
  source : BitVec 16
  traffic : Traffic
  addr : Nat
  units : Nat
  write : Bool
  deriving DecidableEq, Repr

/-- The packet types of R450. -/
inductive PType where
  | write | rowReq | rowResp | scatterAdd | reduce | barrierArrive | barrierRelease | e2eAck | e2eNak | unreachable
  deriving DecidableEq, Repr

/-- A transport packet (R449): the header's fields and the payload. -/
structure Packet where
  dst : Nat
  src : Nat
  ptype : PType
  fvc : Nat
  psn : Nat
  step : Nat
  key0 : Word
  key1 : Word
  payload : List Byte
  deriving DecidableEq, Repr

/-- How a received flit arrived (R445): clean, with codewords that the FEC corrected, with an uncorrectable codeword, or
with a failing tag. -/
inductive FlitCheck where
  | clean
  | corrected (codewords : Nat)
  | fecBad
  | tagBad
  deriving DecidableEq, Repr

/-- The flit types of R444 that FLIT_RECEIVE takes (the others have commands of their own). -/
inductive FlitType where
  | idle | head | body
  deriving DecidableEq, Repr

/-- A received link flit (R444). -/
structure Flit where
  ftype : FlitType
  vc : Fin 4
  cls : Bool
  seq : Nat
  ackSeq : Nat
  creditSel : Fin 8
  credits : Nat
  check : FlitCheck
  payload : List Byte
  deriving DecidableEq, Repr

/-- What every received flit carries besides what it is for: acknowledgement and credits (R444). -/
structure LinkCarry where
  ackSeq : Nat
  creditSel : Fin 8
  credits : Nat
  deriving DecidableEq, Repr

/-- A flit of the link itself as a port receives it: where, what it carries, and how many codewords the FEC corrected in it. -/
structure LinkRx where
  port : Fin 16
  carry : LinkCarry
  fixed : Nat
  deriving DecidableEq, Repr

/-- What becomes of a host sub-port's link: it goes down, or it comes up with a lane map: the lanes found inverted and whether their
order is reversed (R564). -/
inductive SubLink where
  | down | up (inverted : Byte) (reversed : Bool)
  deriving DecidableEq, Repr

/-- An access unit, or a part of one, that a requester's granted transfer moves (R224, R225). -/
structure UnitAccess where
  requester : Fin 8
  addr : Nat
  deriving DecidableEq, Repr

/-- The messages of the link-key exchange (R539): the certificates, the key, the ciphertext and a signature. -/
inductive KeyexMsg where
  | cert (bytes : List Byte)
  | encapKey (bytes : List Byte)
  | ciphertext (bytes : List Byte)
  | signature (bytes : List Byte)
  deriving DecidableEq, Repr

/-- MACsec protection of a received frame (R469, R470): the association and packet number of its SecTAG, the bytes that the ICV
covers in clear, the secured bytes, and the ICV. -/
inductive MacsecTag where
  | bare
  | protect (an : Fin 4) (pn : Nat) (clear secured icv : List Byte)
  deriving DecidableEq, Repr

/-- The RoCEv2 requests a frame can carry (R471). -/
inductive RoceReq where
  | sendFirst (payload : List Byte)
  | sendMiddle (payload : List Byte)
  | sendLast (payload : List Byte)
  | sendOnly (payload : List Byte)
  | writeFirst (rkey : Nat) (va : Nat) (dmaLen : Nat) (payload : List Byte)
  | writeMiddle (payload : List Byte)
  | writeLast (payload : List Byte)
  | writeOnly (rkey : Nat) (va : Nat) (dmaLen : Nat) (payload : List Byte)
  | read (rkey : Nat) (va : Nat) (dmaLen : Nat)
  | cnp
  | other
  deriving DecidableEq, Repr

/-- What has happened to an access unit as stored, by the time it is read (R236): which of its 72 bytes (64 of data, 8 check
bytes) have changed since the last read, by what difference, and whether the unit that comes was stored at another address. -/
structure Upset where
  bytes : List (Fin 72 × Byte)
  misplaced : Bool
  deriving DecidableEq, Repr

/-- What the ECC of an access unit finds on a read (R236, R237). -/
inductive EccOutcome where
  | clean | corrected | uncorrectable
  deriving DecidableEq, Repr, Inhabited

/-- An address and a port: where a request comes from, or where it goes (R502, R508, R534). -/
structure Source where
  addr : Nat
  port : Nat
  deriving DecidableEq, Repr

/-- What a host frame carries above the MAC. -/
inductive FrameBody where
  | roce (srcAddr : Nat) (icrcOk : Bool) (qpn : Nat) (psn : Nat) (req : RoceReq)
  | breop (src : Source) (dst : Source) (bytes : List Byte)
  | fragment
  | other
  deriving DecidableEq, Repr

/-- A frame received by a host port (R465 to R470): `ce` is its congestion mark (R471). -/
structure Frame where
  sub : Fin 4
  pcp : Option (Fin 8)
  dscp : Option (Fin 64)
  macsec : MacsecTag
  fcsOk : Bool
  ce : Bool
  bytes : Nat
  body : FrameBody
  deriving DecidableEq, Repr

/-- What a management frame carries (R495): a DHCPv4 message offers an address, or with `ack` gives it; a router advertisement
gives the prefix of an address. -/
inductive MgmtBody where
  | arp (forUs : Bool)
  | icmpEcho
  | icmpv6
  | dhcp (addr : Nat) (ack : Bool)
  | slaac (addr : Nat)
  | breop (src : Source) (dst : Source) (bytes : List Byte)
  | fragment
  | other
  deriving DecidableEq, Repr

/-- A frame received by the management port (R495): its bytes with FCS, its IEEE 802.1Q tags, and what it carries. -/
structure MgmtFrame where
  length : Nat
  tags : Nat
  body : MgmtBody
  deriving DecidableEq, Repr

/-- The link speed the PHY reports (R495, R514 MGMT_LINK). -/
inductive PhyLink where
  | down | m10 | m100 | m1000
  deriving DecidableEq, Repr

/-- The sideband outputs in the order of R565. -/
inductive Sideband where
  | xoffA | xoffB | replace | rotFault
  deriving DecidableEq, Repr

/-- What readback of a sideband output shows (R565). -/
inductive SidebandState where
  | good | openLine | shortGround | shortSupply
  deriving DecidableEq, Repr

/-- The comparators of R593. -/
inductive Comparator where
  | reversal | underV | overV | standby | thermal (i : Fin 8) | wake
  deriving DecidableEq, Repr

/-- The recovery causes of R112. -/
inductive RecoveryKind where
  | retry | route | fence
  deriving DecidableEq, Repr

/-- The units with a stall-counter block (R272, R273): core engines by engine code, cluster units by code. -/
inductive StallUnit where
  | engine (core : Fin 256) (e : Fin 6)
  | unit (cluster : Fin 32) (u : Fin 4)
  deriving DecidableEq, Repr

/-- The queue codes of R97, as an engine of a core or a unit of the cluster. -/
inductive QueueId where
  | matrix (k : Fin 8) | vector (k : Fin 8) | row (k : Fin 8) | transfer (k : Fin 8) | thread (k : Fin 8)
  | harrow | rake | sprinkler | update
  deriving DecidableEq, Repr

/-- Who issues an access to a stack: the engine of a queue for its descriptor, a control sequencer, a die's update unit outside a
descriptor, a base die for its own near-memory work, or a unit of a link die (R13, R17, R224). -/
inductive Issuer where
  | descriptor (cluster : Fin 32) (queue : QueueId)
  | sequencer (cluster : Fin 32)
  | updateUnit (die : Fin 4)
  | baseDie
  | linkDie (l : Fin 2)
  deriving DecidableEq, Repr

/-- A die-to-die or link edge (R16), in the order of R574. -/
abbrev EdgeId := Fin 8

/-- A firmware image (R524): the header's bytes and the body's. -/
structure FwImage where
  header : List Byte
  body : List Byte
  deriving DecidableEq, Repr, Inhabited

/-- A table descriptor's 8 words (R169). -/
structure TableDesc where
  base : Nat
  code4 : Bool
  frozen : Bool
  valid : Bool
  rowCount : Nat
  dim : Nat
  stride : Nat
  shardLog2 : Nat
  ownerAddr : Nat
  ownerHalf : Bool
  ownerSeason : Nat
  loadAddr : Nat
  loadWindow : Nat
  commitEpoch : Nat
  deriving DecidableEq, Repr

/-- The kinds of a parameter group (R400). -/
inductive GroupKind where
  | factored | unfactored | embedding
  deriving DecidableEq, Repr

/-- A parameter-group descriptor (R400); FP32 fields as bit patterns. -/
structure GroupDesc where
  recBase : Nat
  kind : GroupKind
  valid : Bool
  masked : Bool
  rowSr : Bool
  rows : Nat
  cols : Nat
  ownFirst : Nat
  ownCount : Nat
  gradAddr : Nat
  beta1 : U32
  beta2 : U32
  gamma : U32
  eps : U32
  lambda : U32
  lrMult : U32
  replicaAddr : Nat
  replicaFmt : Nat
  deriving DecidableEq, Repr

/-- Kinds of a RoCEv2 region (R473). -/
inductive RegionKind where
  | ingest | status | recv | general
  deriving DecidableEq, Repr

/-- A region-table entry (R473). -/
structure Region where
  base : Nat
  length : Nat
  remoteWrite : Bool
  remoteRead : Bool
  kind : RegionKind
  keytag : Nat
  deriving DecidableEq, Repr

/-- A queue-pair table entry (R472). -/
structure QpConfig where
  qpn : Nat
  sub : Nat
  peerIp : Nat
  peerQpn : Nat
  reqPsn : Nat
  respPsn : Nat
  mtu : Nat
  ingest : Bool
  region : Nat
  slotBytes : Nat
  deriving DecidableEq, Repr

/-- The ingest configuration (R486). -/
structure IngestConfig where
  stageAddr : Nat
  stageBytes : Nat
  shuffleAddr : Nat
  shuffleBytes : Nat
  slotLog2 : Nat
  outAddr : Nat
  outLog2 : Nat
  statusRegion : Nat
  startEpoch : Nat
  shuffleUnit : Nat
  tokenEn : Bool
  tokenCluster : Nat
  tokenNum : Nat
  batchRecords : Nat
  deriving DecidableEq, Repr

/-- Owners of a closed HBM region (R178, R451, R458, R486). -/
inductive RegionOwner where
  | rakeStaging (cluster : Nat) | spill (cluster : Nat) | log (stack : Nat)
  | flow (link : Nat) | reduce (die : Nat) | ingest (link : Nat)
  deriving DecidableEq, Repr

/-- A closed HBM region that the manifest places. -/
structure ClosedRegion where
  owner : RegionOwner
  start : Nat
  length : Nat
  deriving DecidableEq, Repr

/-- What the manifest says of one cluster (R28, R100, R114, R177). Sizes in KiB. -/
structure ClusterConfig where
  cluster : Fin 32
  scratchKib : Nat
  clocheKib : Nat
  topoKib : Nat
  imem : List Word
  launch : List (Nat × Word × Word × Word × Word)
  deriving DecidableEq, Repr

/-- An owner-map line (R400): a group's owned range on one device. -/
structure OwnerRange where
  group : Nat
  device : Nat
  first : Nat
  count : Nat
  deriving DecidableEq, Repr

/-- Scopes of a barrier (R100). -/
inductive Scope where
  | cluster | die | device | system
  deriving DecidableEq, Repr

/-- The header fields of a manifest (R543). -/
structure ManifestHeader where
  magic : Nat
  version : Nat
  ownerIndex : Nat
  sectionCount : Nat
  totalLen : Nat
  jobId : BitVec 128
  reservedZero : Bool
  deriving DecidableEq, Repr, Inhabited

/-- What the agent keeps of a manifest as its blocks arrive (R543, R544): the header; whether its sections stand as they must; how
many bytes the kept parts take; the bytes that the signature covers, the signature, JOB_DIGEST; the device's own entry of
DEVICE_LIST, if it has one, with its DEV_NUMBER, ciphertext and wrapped secret; and the configuration that is the device's own. -/
structure Manifest where
  header : ManifestHeader
  sectionsOk : Bool
  keptBytes : Nat
  message : List Byte
  signature : List Byte
  entryFound : Bool
  devNumber : Nat
  ct : List Byte
  wrapped : List Byte
  digest : BitVec 512
  startSeason : Nat
  startStep : Nat
  peers : List (Nat × BitVec 512)
  participants : List (Scope × Fin 32)
  deviceParticipants : List Nat
  clusters : List ClusterConfig
  ftqSlots : List (Fin 256 × Nat)
  clocheSlot : Nat
  tables : List (Nat × TableDesc)
  groups : List (Nat × GroupDesc)
  ownerMap : List OwnerRange
  regions : List ClosedRegion
  qps : List (Fin 2 × Nat × QpConfig)
  roceRegions : List (Fin 2 × Nat × Region)
  ingest : List (Fin 2 × IngestConfig)
  microcode : List Byte
  deriving DecidableEq, Repr, Inhabited

/-- The value of an object as a write carries it (R503). -/
inductive ObjValue where
  | num (type : Fin 16) (v : Nat)
  | bytes (type : Fin 16) (b : List Byte)
  deriving DecidableEq, Repr

end Sys2Proof
end

