-- ==== Sys2Proof/Syntax.lean ====
section
/-! DEFINITION. Syntax.lean: the commands of the block, one constructor per row of opcode_table.json. -/

namespace Sys2Proof

/-- A command: one indivisible step of the part, with what comes to it from outside. -/
inductive Instr where
  /-- VCORE_SETPOINT_WRITE, R47. -/
  | vcoreSetpointWrite (die : Fin 4) (mv : Nat)
  /-- TRIM_WINDOW_END, R51. -/
  | trimWindowEnd (cluster : Fin 32) (count : Nat)
  /-- TRIM_MEASURE_END, R51. -/
  | trimMeasureEnd (cluster : Fin 32) (count : Nat)
  /-- AUTO_RETRIM, R54. -/
  | autoRetrim (cluster : Fin 32) (count : Nat)
  /-- TRIM_REQ, R56. -/
  | trimReq (cluster : Fin 32)
  /-- RATE_MON_UPDATE, R55. -/
  | rateMonUpdate (cluster : Fin 32) (f : BitVec 16)
  /-- FIFO_WRITE, R61. -/
  | fifoWrite (fifo : FifoId) (put : FifoPut)
  /-- FIFO_READ, R65. -/
  | fifoRead (fifo : FifoId)
  /-- POINTER_CROSSING, R67. -/
  | pointerCrossing (fifo : FifoId) (side : FifoSide)
  /-- WM_WRITE, R70. -/
  | wmWrite (fifo : FifoId) (value : U32)
  /-- PFC_PAUSE_REFRESH, R74. -/
  | pfcPauseRefresh (host : Fin 2)
  /-- BALLAST_FIRING, R77. -/
  | ballastFiring (core : Fin 256)
  /-- BALLAST_WIND_DOWN, R79. -/
  | ballastWindDown (core : Fin 256)
  /-- BALLAST_RAMP_STEP, R79. -/
  | ballastRampStep (core : Fin 256)
  /-- TOKEN_POST, R87. -/
  | tokenPost (i : Nat)
  /-- DESCRIPTOR_START, R93. -/
  | descriptorStart (cluster : Fin 32) (queue : QueueId)
  /-- DESCRIPTOR_COMPLETE, R89. -/
  | descriptorComplete (cluster : Fin 32) (queue : QueueId)
  /-- QUEUE_NOP, R91. -/
  | queueNop (cluster : Fin 32) (queue : QueueId)
  /-- LAUNCH_FIRE, R101. -/
  | launchFire (cluster : Fin 32)
  /-- SEASON_ADVANCE, R104. -/
  | seasonAdvance (cluster : Fin 32)
  /-- BARRIER_ARRIVE, R109. -/
  | barrierArrive (i : Nat)
  /-- BARRIER_RELEASE, R110. -/
  | barrierRelease (i : Nat)
  /-- RECOVERY_TIMEOUT, R112. -/
  | recoveryTimeout (kind : RecoveryKind)
  /-- NOP, R116. -/
  | nop (cluster : Fin 32)
  /-- LDI, R116. -/
  | ldi (cluster : Fin 32)
  /-- LDHI, R116. -/
  | ldhi (cluster : Fin 32)
  /-- ADD, R116. -/
  | add (cluster : Fin 32)
  /-- ADDI, R116. -/
  | addi (cluster : Fin 32)
  /-- SUB, R116. -/
  | sub (cluster : Fin 32)
  /-- AND, R116. -/
  | and (cluster : Fin 32)
  /-- OR, R116. -/
  | or (cluster : Fin 32)
  /-- XOR, R116. -/
  | xor (cluster : Fin 32)
  /-- SHL, R116. -/
  | shl (cluster : Fin 32)
  /-- SHR, R116. -/
  | shr (cluster : Fin 32)
  /-- MUL, R116. -/
  | mul (cluster : Fin 32)
  /-- LD, R118. -/
  | ld (cluster : Fin 32)
  /-- LOAD_RETURN, R627. -/
  | loadReturn (cluster : Fin 32)
  /-- ST, R119. -/
  | st (cluster : Fin 32)
  /-- BR, R117. -/
  | br (cluster : Fin 32)
  /-- JAL, R116. -/
  | jal (cluster : Fin 32)
  /-- JR, R116. -/
  | jr (cluster : Fin 32)
  /-- POST, R116. -/
  | post (cluster : Fin 32)
  /-- TPOST, R116. -/
  | tpost (cluster : Fin 32)
  /-- SETEXP, R86. -/
  | setexp (cluster : Fin 32)
  /-- WAITT, R116. -/
  | waitt (cluster : Fin 32)
  /-- WAITS, R116. -/
  | waits (cluster : Fin 32)
  /-- LENT, R105. -/
  | lent (cluster : Fin 32)
  /-- SETLIM, R116. -/
  | setlim (cluster : Fin 32)
  /-- RSUM, R116. -/
  | rsum (cluster : Fin 32)
  /-- RDSYS, R116. -/
  | rdsys (cluster : Fin 32)
  /-- EVENT, R559. -/
  | event (cluster : Fin 32)
  /-- HALT, R116. -/
  | halt (cluster : Fin 32)
  /-- SEQUENCER_RESUME, R120. -/
  | sequencerResume (cluster : Fin 32)
  /-- SAMPLE, R141. -/
  | sample (cluster : Fin 32)
  /-- TOPO_INVALIDATE, R138. -/
  | topoInvalidate (cluster : Fin 32)
  /-- TOPO_FILL, R137. -/
  | topoFill (cluster : Fin 32)
  /-- PIECE_WRITE, R157. -/
  | pieceWrite (cluster : Fin 32)
  /-- SPEC_GATHER_POST, R162. -/
  | specGatherPost (cluster : Fin 32)
  /-- SPEC_CONFIRM, R163. -/
  | specConfirm (cluster : Fin 32)
  /-- RING_CONSUMED, R158. -/
  | ringConsumed (cluster : Fin 32) (value : U32)
  /-- GATHER, R187. -/
  | gather (cluster : Fin 32)
  /-- POOL, R188. -/
  | pool (cluster : Fin 32)
  /-- PREFETCH, R185. -/
  | prefetch (cluster : Fin 32)
  /-- CLOCHE_FILL, R181. -/
  | clocheFill (cluster : Fin 32)
  /-- CLOCHE_DECAY, R182. -/
  | clocheDecay (cluster : Fin 32)
  /-- SCATTER, R199. -/
  | scatter (cluster : Fin 32)
  /-- FLUSH, R197. -/
  | flush (cluster : Fin 32)
  /-- ARM_OWNER, R211. -/
  | armOwner (cluster : Fin 32)
  /-- FREE_WINDOW_CLOSE, R202. -/
  | freeWindowClose (cluster : Fin 32)
  /-- RECORD_READ, R222. -/
  | recordRead (cluster : Fin 32) (i : Nat)
  /-- POOLED_MEMBER, R222. -/
  | pooledMember (cluster : Fin 32)
  /-- VERSION_CHECK, R222. -/
  | versionCheck (cluster : Fin 32) (i : Nat)
  /-- STAGED_ROW_COPY, R222. -/
  | stagedRowCopy (cluster : Fin 32) (i : Nat)
  /-- PARTIAL_APPEND, R201. -/
  | partialAppend (i : Nat)
  /-- PARTIAL_SUM, R222. -/
  | partialSum (die : Fin 4)
  /-- TRANSPLANT_COPY, R222. -/
  | transplantCopy (i : Nat)
  /-- SCRUB, R238. -/
  | scrub (stack : Fin 12) (addr : Nat) (upset : Upset) (rewritten : Option (List Byte))
  /-- STACK_READY, R219. -/
  | stackReady (stack : Fin 12) (failStep : Option Nat)
  /-- LOTTERY_DECISION, R228. -/
  | lotteryDecision (arb : ArbId) (asks : List Ask)
  /-- TICKETS_WRITE, R226. -/
  | ticketsWrite (arb : ArbId) (value : Word)
  /-- LFSR_SEED_WRITE, R229. -/
  | lfsrSeedWrite (stack : Fin 12) (value : BitVec 16)
  /-- WATCHDOG_BITE, R233. -/
  | watchdogBite (arb : ArbId) (ageUs : Nat) (asks : List Ask)
  /-- HBM_READ, R237. -/
  | hbmRead (access : UnitAccess) (upset : Upset) (issuer : Issuer)
  /-- HBM_WRITE, R625. -/
  | hbmWrite (access : UnitAccess) (bytes : List Byte) (upset : Upset) (issuer : Issuer)
  /-- RETIRE_REQUEST, R239. -/
  | retireRequest (addr : Nat)
  /-- RETIRED_LIST_FLASH_COPY, R241. -/
  | retiredListFlashCopy (stack : Fin 12)
  /-- COPY, R251. -/
  | copy (core : Fin 256)
  /-- FILL, R250. -/
  | fill (core : Fin 256)
  /-- ILOAD, R256. -/
  | iload (core : Fin 256)
  /-- ISTORE, R256. -/
  | istore (core : Fin 256)
  /-- THREAD_ISSUE, R261. -/
  | threadIssue (core : Fin 256)
  /-- ENTRY_COMPLETE, R263. -/
  | entryComplete (core : Fin 256) (i : Nat)
  /-- SNAP, R274. -/
  | snap (unit : StallUnit)
  /-- MATMUL, R326. -/
  | matmul (core : Fin 256)
  /-- MATMUL_FILL, R332. -/
  | matmulFill (core : Fin 256)
  /-- CONV, R333. -/
  | conv (core : Fin 256)
  /-- CONVERT, R337. -/
  | convert (core : Fin 256)
  /-- PASS_START, R310. -/
  | passStart (core : Fin 256)
  /-- PASS_DRAIN_END, R308. -/
  | passDrainEnd (core : Fin 256)
  /-- TILE_ENTER, R369. -/
  | tileEnter (core : Fin 256)
  /-- CHAIN, R375. -/
  | chain (core : Fin 256)
  /-- TILE_DROP, R374. -/
  | tileDrop (core : Fin 256)
  /-- NORM_FWD, R394. -/
  | normFwd (core : Fin 256)
  /-- NORM_BWD, R394. -/
  | normBwd (core : Fin 256)
  /-- SOFTMAX_FWD, R394. -/
  | softmaxFwd (core : Fin 256)
  /-- SOFTMAX_BWD, R394. -/
  | softmaxBwd (core : Fin 256)
  /-- LSE, R394. -/
  | lse (core : Fin 256)
  /-- GRAD_SEND, R425. -/
  | gradSend (cluster : Fin 32)
  /-- UPDATE, R425. -/
  | update (cluster : Fin 32)
  /-- ROW_UPDATE, R406. -/
  | rowUpdate (die : Fin 4)
  /-- COMMIT, R418. -/
  | commit (cluster : Fin 32)
  /-- LAST_STEP_PHASES, R429. -/
  | lastStepPhases
  /-- CHUNK_COMBINE, R458. -/
  | chunkCombine (i : Nat)
  /-- NO_LIGHT, R442. -/
  | noLight (port : Fin 16) (onTransmitFibre : Bool)
  /-- PMA_TRAINING_DONE, R442. -/
  | pmaTrainingDone (port : Fin 16) (lanes : BitVec 8) (inverted : BitVec 8) (reversed : Bool)
  /-- FEC_LOCK, R442. -/
  | fecLock (port : Fin 16)
  /-- HELLO, R442. -/
  | hello (rx : LinkRx) (dev : Nat) (peerPort : Fin 16) (role : Nat) (shape : Nat) (digest : BitVec 512)
  /-- KEYEX, R539. -/
  | keyex (rx : LinkRx) (msg : KeyexMsg)
  /-- LANE_LOSS, R443. -/
  | laneLoss (port : Fin 16) (lost : BitVec 8)
  /-- FLIT_RECEIVE, R445. -/
  | flitReceive (port : Fin 16) (flit : Flit)
  /-- NAK, R445. -/
  | nak (rx : LinkRx) (seq : Nat)
  /-- LINK_RETRY_LIMIT, R445. -/
  | linkRetryLimit (port : Fin 16)
  /-- REKEY, R448. -/
  | rekey (port : Fin 16)
  /-- KEYUPDATE, R540. -/
  | keyupdate (rx : LinkRx)
  /-- WRITE, R450. -/
  | write
  /-- ROW_REQ, R450. -/
  | rowReq
  /-- ROW_RESP, R450. -/
  | rowResp
  /-- SCATTER_ADD, R450. -/
  | scatterAdd
  /-- REDUCE, R457. -/
  | reduce
  /-- E2E_ACK, R452. -/
  | e2eAck
  /-- E2E_NAK, R452. -/
  | e2eNak
  /-- UNREACHABLE, R441. -/
  | unreachable
  /-- E2E_ACK_TIMER, R452. -/
  | e2eAckTimer (i : Nat)
  /-- E2E_TIMEOUT, R452. -/
  | e2eTimeout (i : Nat)
  /-- FRAME_RECEIVE, R467. -/
  | frameReceive (host : Fin 2) (frame : Frame)
  /-- PFC_FRAME, R468. -/
  | pfcFrame (host : Fin 2) (sub : Fin 4) (prio : Fin 8) (time : BitVec 16)
  /-- SEND, R476. -/
  | send (host : Fin 2)
  /-- RDMA_WRITE, R474. -/
  | rdmaWrite (host : Fin 2)
  /-- RDMA_READ, R471. -/
  | rdmaRead (host : Fin 2)
  /-- RECV_CONSUMED, R476. -/
  | recvConsumed (host : Fin 2) (q : Fin 256) (value : U32)
  /-- SHARD_NOTICE, R479. -/
  | shardNotice (ing : Fin 2)
  /-- SHARD_DECODE, R484. -/
  | shardDecode (ing : Fin 2)
  /-- ADMIT, R488. -/
  | admitShard (ing : Fin 2)
  /-- EMIT, R489. -/
  | emit (ing : Fin 2)
  /-- OUT_CONSUMED, R489. -/
  | outConsumed (ing : Fin 2) (value : Word)
  /-- ASSOCIATION_SWITCH, R538. -/
  | associationSwitch (host : Fin 2) (sub : Fin 4)
  /-- MACSEC_REKEY, R469. -/
  | macsecRekey (host : Fin 2) (sub : Fin 4)
  /-- SUB_PORT_LINK_CHANGE, R575. -/
  | subPortLinkChange (host : Fin 2) (sub : Fin 4) (up : SubLink)
  /-- BREOP_READ, R506. -/
  | breopRead
  /-- BREOP_WRITE, R506. -/
  | breopWrite
  /-- BLOCK_READ, R507. -/
  | blockRead
  /-- BLOCK_WRITE, R508. -/
  | blockWrite
  /-- SUBSCRIBE, R509. -/
  | subscribe
  /-- CANCEL, R509. -/
  | cancel
  /-- NOTIFY, R510. -/
  | notify (i : Nat)
  /-- SUBSCRIPTION_LAPSE, R509. -/
  | subscriptionLapse (i : Nat)
  /-- STAGING_DISCARD, R508. -/
  | stagingDiscard (i : Nat)
  /-- SESSION_TIMEOUT, R512. -/
  | sessionTimeout (i : Nat)
  /-- KEPT_RESPONSE_EXPIRY, R502. -/
  | keptResponseExpiry (i : Nat)
  /-- MGMT_FRAME, R495. -/
  | mgmtFrame (frame : MgmtFrame)
  /-- PHY_INT, R618. -/
  | phyInt (link : PhyLink)
  /-- OBJECT_WRITE, R506. -/
  | objectWrite (index : BitVec 16) (sub : Byte) (value : ObjValue)
  /-- REGISTER_WRITE, R7. -/
  | registerWrite (addr : BitVec 48) (value : Word) (wide : Bool)
  /-- COUNTER_SNAPSHOT, R517. -/
  | counterSnapshot
  /-- CHALLENGE, R534. -/
  | challenge (src : Source)
  /-- RWS_FLASH_WRITE, R505. -/
  | rwsFlashWrite (index : BitVec 16) (sub : Byte)
  /-- BOOT, R525. -/
  | boot
  /-- FW_IMAGE, R528. -/
  | fwImage (value : List Byte)
  /-- FW_IMAGE_CHECK_END, R528. -/
  | fwImageCheckEnd (flashOk : Bool)
  /-- FW_COMMIT_SVN, R527. -/
  | fwCommitSvn (svn : Nat)
  /-- MEASURE_EXTEND, R530. -/
  | measureExtend (value : List Byte)
  /-- QUOTE_REQUEST, R531. -/
  | quoteRequest (nonce : List Byte)
  /-- QUOTE_FORMED, R531. -/
  | quoteFormed
  /-- SESSION_OPEN, R536. -/
  | sessionOpen (src : Source) (value : List Byte) (total : Nat)
  /-- SESSION_CLOSE, R512. -/
  | sessionClose (session : Nat)
  /-- OWNER_KEYS, R533. -/
  | ownerKeys (keys : List (List Byte))
  /-- MACSEC_KEYEX, R537. -/
  | macsecKeyex (src : Source) (value : List Byte)
  /-- DEBUG_UNLOCK, R549. -/
  | debugUnlock (src : Source) (value : List Byte) (auth : Bool)
  /-- JOB_MANIFEST, R546. -/
  | jobManifest (value : List Byte)
  /-- JOB_END, R547. -/
  | jobEnd
  /-- EVENT_RECORD, R556. -/
  | eventRecord
  /-- SEASON_STALL, R562. -/
  | seasonStall (cluster : Fin 32)
  /-- FENCE, R570. -/
  | fence (unit : BitVec 16) (cause : BitVec 16)
  /-- CAPACITY_PUBLISH, R575. -/
  | capacityPublish
  /-- FENCE_REQUEST, R572. -/
  | fenceRequest (unit : BitVec 16)
  /-- FENCE_CLEAR, R572. -/
  | fenceClear (unit : BitVec 16)
  /-- PERSISTENT_FENCE_WRITE, R568. -/
  | persistentFenceWrite
  /-- SIDEBAND_PROBE, R565. -/
  | sidebandProbe (out : Sideband) (falls : Bool)
  /-- SIDEBAND_FAULT, R565. -/
  | sidebandFault (out : Sideband) (fault : SidebandState)
  /-- REFCLK_MISSING, R566. -/
  | refclkMissing (link : Fin 2)
  /-- BED_TARGET, R582. -/
  | bedTarget (bed : Fin 62) (on : Bool)
  /-- BED_START, R587. -/
  | bedStart
  /-- BED_ON, R585. -/
  | bedOn (bed : Fin 62)
  /-- POWER_GOOD_FAIL, R586. -/
  | powerGoodFail (bed : Fin 62)
  /-- BED_STOP, R583. -/
  | bedStop
  /-- BED_OFF, R583. -/
  | bedOff (bed : Fin 62)
  /-- ROT_RETRY, R586. -/
  | rotRetry
  /-- DEVICE_RESTART, R602. -/
  | deviceRestart
  /-- CLUSTER_RESET, R603. -/
  | clusterReset (cluster : Nat)
  /-- CLUSTER_RESET_END, R603. -/
  | clusterResetEnd (cluster : Fin 32)
  /-- POWER_MEASURE, R599. -/
  | powerMeasure (pinW : U32)
  /-- VCORE_THROTTLE_STEP, R598. -/
  | vcoreThrottleStep (die : Option (Fin 4)) (up : Bool)
  /-- AON_POWER_UP, R600. -/
  | aonPowerUp (standby : Bool) (vin : Bool)
  /-- CRYSTAL_FAIL, R591. -/
  | crystalFail
  /-- INPUT_REVERSED, R564. -/
  | inputReversed
  /-- INPUT_UNDER_VOLTAGE, R593. -/
  | inputUnderVoltage (mv : Nat)
  /-- INPUT_OVER_VOLTAGE, R593. -/
  | inputOverVoltage (mv : Nat)
  /-- STANDBY_LOW, R593. -/
  | standbyLow (mv : Nat)
  /-- THERMAL_TRIP, R593. -/
  | thermalTrip (i : Fin 8)
  /-- COMPARATOR_RELEASE, R593. -/
  | comparatorRelease (c : Comparator)
  /-- SUPPLY_RESTART, R596. -/
  | supplyRestart
  /-- THERMAL_RESTART, R597. -/
  | thermalRestart
  /-- MANAGEMENT_WAKE, R593. -/
  | managementWake
  /-- EDGE_LINK_RETRY, R569. -/
  | edgeLinkRetry (edge : EdgeId) (limitHit : Bool)
  /-- REFCLK_RETURN, R566. -/
  | refclkReturn (link : Fin 2)
  /-- CRYSTAL_RETURN, R591. -/
  | crystalReturn
  /-- SIDEBAND_FAULT_CLEARED, R565. -/
  | sidebandFaultCleared (out : Sideband)
  /-- OLD_ASSOCIATION_EXPIRY, R538. -/
  | oldAssociationExpiry (host : Fin 2) (sub : Fin 4)
  /-- JOB_ADMISSION_END, R546. -/
  | jobAdmissionEnd
  /-- PFC_PAUSE_EXPIRY, R468. -/
  | pfcPauseExpiry (host : Fin 2) (sub : Fin 4) (prio : Fin 8)
  /-- ENTROPY_HEALTH_FAIL, R521. -/
  | entropyHealthFail
  /-- SUPPLY_MEASURE, R606. -/
  | supplyMeasure (vinMv : Nat) (stbyMv : Nat)
  deriving DecidableEq, Repr

end Sys2Proof
end

