-- ==== Sys2Proof/Decode.lean ====
section
/-! DEFINITION. Decode.lean: commands have no bits in opcode_table.json, so no word spells one. -/

namespace Sys2Proof

/-- The command a word spells: the table gives no row any bits, so none. -/
def decodeTableWord (_nbits _w : Nat) : Option Instr := none

end Sys2Proof
end

