-- ==== Sys2Proof/Machine/Fp.lean ====
section
/-! DEFINITION. Fp.lean: number formats and rounding (R278 to R290), and the FP32 operations of R301. -/

namespace Sys2Proof.Machine

/-- How a format spends its topmost codes (R279). -/
inductive Specials where
  | ieee | e4m3 | none
  deriving DecidableEq, Repr

/-- A floating-point format of R279: mantissa bits, exponent bits, bias, special codes. -/
structure Fmt where
  m : Nat
  ew : Nat
  bias : Int
  sp : Specials
  deriving DecidableEq, Repr

def fp32 : Fmt := { m := 23, ew := 8, bias := 127, sp := .ieee }
def bf16 : Fmt := { m := 7, ew := 8, bias := 127, sp := .ieee }
def fp16 : Fmt := { m := 10, ew := 5, bias := 15, sp := .ieee }
def e4m3 : Fmt := { m := 3, ew := 4, bias := 7, sp := .e4m3 }
def e5m2 : Fmt := { m := 2, ew := 5, bias := 15, sp := .ieee }
def e3m2 : Fmt := { m := 2, ew := 3, bias := 3, sp := .none }
def e2m3 : Fmt := { m := 3, ew := 2, bias := 1, sp := .none }
def e2m1 : Fmt := { m := 1, ew := 2, bias := 1, sp := .none }

/-- A decoded value: NaN, an infinity, or (-1)^neg * n * 2^e exactly. -/
inductive Val where
  | nan
  | inf (neg : Bool)
  | fin (neg : Bool) (n : Nat) (e : Int)
  deriving DecidableEq, Repr

/-- Code of the largest finite magnitude (R279). -/
def fmtMaxCode (f : Fmt) : Nat :=
  match f.sp with
  | .ieee => (2 ^ f.ew - 1) * 2 ^ f.m - 1
  | .e4m3 => 2 ^ (f.ew + f.m) - 2
  | .none => 2 ^ (f.ew + f.m) - 1

/-- Canonical NaN code (R282); formats without NaN have none, and give code 0. -/
def fmtNan (f : Fmt) : Nat :=
  match f.sp with
  | .ieee => (2 ^ f.ew - 1) * 2 ^ f.m + 2 ^ (f.m - 1)
  | .e4m3 => 0x7F
  | .none => 0

/-- Code of an infinity of an IEEE-like format. -/
def fmtInf (f : Fmt) (neg : Bool) : Nat := b2n neg * 2 ^ (f.ew + f.m) + (2 ^ f.ew - 1) * 2 ^ f.m

/-- The value of a code (R279). -/
def decodeFp (f : Fmt) (c : Nat) : Val :=
  let neg := bitOf c (f.ew + f.m)
  let ef := bitsOf c (f.ew + f.m - 1) f.m
  let mf := c % 2 ^ f.m
  if f.sp = .ieee ∧ ef = 2 ^ f.ew - 1 then (if mf = 0 then .inf neg else .nan)
  else if f.sp = .e4m3 ∧ ef = 2 ^ f.ew - 1 ∧ mf = 2 ^ f.m - 1 then .nan
  else if ef = 0 then .fin neg mf (1 - f.bias - f.m)
  else .fin neg (2 ^ f.m + mf) (ef - f.bias - f.m)

/-- The rounding directions in use: R285, and the directed ones of R175. `sr r` carries the draw of R290. -/
inductive Rnd where
  | rne | rtz | sr (r : Nat) | down | up
  deriving DecidableEq, Repr

/-- ⌊log2 (n / d)⌋ for n, d > 0. -/
def log2Ratio (n d : Nat) : Int :=
  let k : Int := (Nat.log2 n : Int) - (Nat.log2 d : Int)
  let lt : Bool := if 0 ≤ k then decide (n < d * 2 ^ k.toNat) else decide (n * 2 ^ (-k).toNat < d)
  if lt then k - 1 else k

/-- n / d * 2^s as a quotient and a remainder over a denominator. -/
def scaledDiv (n d : Nat) (s : Int) : Nat × Nat × Nat :=
  if 0 ≤ s then
    let a := n * 2 ^ s.toNat
    (a / d, a % d, d)
  else
    let d' := d * 2 ^ (-s).toNat
    (n / d', n % d', d')

/-- A magnitude (n / d) * 2^e, n > 0, as a whole number of quanta 2^q, rounded. -/
def roundQuanta (rnd : Rnd) (neg : Bool) (n d : Nat) (e q : Int) : Nat :=
  let (k, r, d') := scaledDiv n d (e - q)
  match rnd with
  | .rtz => k
  | .rne => if 2 * r > d' ∨ (2 * r = d' ∧ k % 2 = 1) then k + 1 else k
  | .down => if neg ∧ r ≠ 0 then k + 1 else k
  | .up => if !neg ∧ r ≠ 0 then k + 1 else k
  | .sr x => ((scaledDiv n d (e - q + 16)).1 + x) / 65536

/-- The result of a rounding: the code, and whether the largest finite magnitude stands in for an
overflowing value (the LIMITED of R389). -/
structure Rounded where
  code : Nat
  limited : Bool
  deriving DecidableEq, Repr

/-- The code of k quanta 2^q, where q is the quantum of k's binade or the subnormal one; `none` above the
largest finite magnitude. -/
def encodeQuanta (f : Fmt) (k : Nat) (q : Int) : Option Nat :=
  if k = 0 then some 0
  else
    let (k, q) := if k ≥ 2 ^ (f.m + 1) then (k / 2, q + 1) else (k, q)
    if k < 2 ^ f.m then some k
    else
      let c := (q + f.m + f.bias).toNat * 2 ^ f.m + (k - 2 ^ f.m)
      if c ≤ fmtMaxCode f then some c else none

/-- Rounds (-1)^neg * (n / d) * 2^e to a format under R287 to R290. -/
def roundTo (f : Fmt) (rnd : Rnd) (sat : Bool) (neg : Bool) (n d : Nat) (e : Int) : Rounded :=
  let s := b2n neg * 2 ^ (f.ew + f.m)
  if n = 0 then { code := s, limited := false }
  else
    let emin : Int := 1 - f.bias
    let ee := log2Ratio n d + e
    let q := max ee emin - f.m
    match encodeQuanta f (roundQuanta rnd neg n d e q) q with
    | some c => { code := s + c, limited := false }
    | none =>
      if sat ∨ f.sp = .none ∨ rnd = .rtz then { code := s + fmtMaxCode f, limited := true }
      else match f.sp with
        | .ieee =>
          if (rnd = .down ∧ neg = false) ∨ (rnd = .up ∧ neg = true)
          then { code := s + fmtMaxCode f, limited := true }
          else { code := fmtInf f neg, limited := false }
        | _ => { code := fmtNan f, limited := false }

/-- Rounds a decoded value to a format; an infinity follows the mode and the target (R287, R288). -/
def roundVal (f : Fmt) (rnd : Rnd) (sat : Bool) (v : Val) : Rounded :=
  match v with
  | .nan => { code := fmtNan f, limited := false }
  | .inf neg =>
    if sat ∨ f.sp = .none then { code := b2n neg * 2 ^ (f.ew + f.m) + fmtMaxCode f, limited := true }
    else match f.sp with
      | .ieee => { code := fmtInf f neg, limited := false }
      | _ => { code := fmtNan f, limited := false }
  | .fin neg n e => roundTo f rnd sat neg n 1 e

/-- The value with the largest finite magnitude of a format. -/
def maxVal (f : Fmt) (neg : Bool) : Val :=
  match decodeFp f (fmtMaxCode f) with
  | .fin _ n e => .fin neg n e
  | v => v

/-- Saturate mode on an input (R288): an infinity becomes the largest finite value of its format. -/
def satIn (f : Fmt) (sat : Bool) (v : Val) : Val :=
  match v with
  | .inf neg => if sat then maxVal f neg else v
  | _ => v

/-- The arithmetic control of a vector or row stage: rounding (SR acts as RNE there, R286) and SAT. Under `mark` an overflow shows
as an infinity where RTZ would give the largest finite value (R289), which tells a limited result (R389). -/
structure Arith where
  rtz : Bool
  sat : Bool
  mark : Bool := false
  deriving DecidableEq, Repr

def arithRne : Arith := { rtz := false, sat := false }

def arithRnd (a : Arith) : Rnd := if a.rtz then .rtz else .rne

/-- Reads an FP32 operand under a mode. -/
def rd32 (a : Arith) (x : U32) : Val := satIn fp32 a.sat (decodeFp fp32 x.toNat)

/-- An FP32 result as a word. -/
def Rounded.word (r : Rounded) (mark : Bool) : U32 :=
  BitVec.ofNat 32 (if mark && r.limited then fmtInf fp32 (bitOf r.code 31) else r.code)

/-- Writes an FP32 result under a mode. -/
def wr32 (a : Arith) (v : Val) : U32 := (roundVal fp32 (arithRnd a) a.sat v).word a.mark

/-- Whether writing an FP32 result replaces an overflow or an infinity by the largest finite value. -/
def lim32 (a : Arith) (v : Val) : Bool := (roundVal fp32 (arithRnd a) a.sat v).limited

/-- Exact sum of two finite values; a zero sum of unlike signs is +0.0 (IEEE 754-2019, RNE and RTZ). -/
def addFin (n1 : Bool) (m1 : Nat) (e1 : Int) (n2 : Bool) (m2 : Nat) (e2 : Int) : Val :=
  let e := min e1 e2
  let a : Int := (m1 * 2 ^ (e1 - e).toNat : Nat)
  let b : Int := (m2 * 2 ^ (e2 - e).toNat : Nat)
  let s := (if n1 then -a else a) + (if n2 then -b else b)
  if s = 0 then .fin (n1 && n2) 0 e else .fin (decide (s < 0)) s.natAbs e

def addVal : Val → Val → Val
  | .nan, _ => .nan
  | _, .nan => .nan
  | .inf a, .inf b => if a = b then .inf a else .nan
  | .inf a, _ => .inf a
  | _, .inf b => .inf b
  | .fin n1 m1 e1, .fin n2 m2 e2 => addFin n1 m1 e1 n2 m2 e2

def negVal : Val → Val
  | .nan => .nan
  | .inf a => .inf (!a)
  | .fin n m e => .fin (!n) m e

def mulVal : Val → Val → Val
  | .nan, _ => .nan
  | _, .nan => .nan
  | .inf a, .inf b => .inf (a ^^ b)
  | .inf a, .fin n m _ => if m = 0 then .nan else .inf (a ^^ n)
  | .fin n m _, .inf b => if m = 0 then .nan else .inf (n ^^ b)
  | .fin n1 m1 e1, .fin n2 m2 e2 => .fin (n1 ^^ n2) (m1 * m2) (e1 + e2)

/-- A value that is zero in either sign. -/
def isZeroVal : Val → Bool
  | .fin _ m _ => decide (m = 0)
  | _ => false

def addR (a : Arith) (x y : U32) : Val := addVal (rd32 a x) (rd32 a y)
def mulR (a : Arith) (x y : U32) : Val := mulVal (rd32 a x) (rd32 a y)
def fmaR (a : Arith) (x y z : U32) : Val := addVal (mulVal (rd32 a x) (rd32 a y)) (rd32 a z)

def fadd (a : Arith) (x y : U32) : U32 := wr32 a (addR a x y)
def fsub (a : Arith) (x y : U32) : U32 := wr32 a (addVal (rd32 a x) (negVal (rd32 a y)))
def fmul (a : Arith) (x y : U32) : U32 := wr32 a (mulR a x y)
def ffma (a : Arith) (x y z : U32) : U32 := wr32 a (fmaR a x y z)

/-- A result that may be a quotient: an exact value, or a ratio to round. -/
inductive Quot where
  | val (v : Val)
  | ratio (neg : Bool) (n d : Nat) (e : Int)
  deriving DecidableEq, Repr

def wrQuot (a : Arith) (q : Quot) : U32 :=
  match q with
  | .val v => wr32 a v
  | .ratio neg n d e => (roundTo fp32 (arithRnd a) a.sat neg n d e).word a.mark

def limQuot (a : Arith) (q : Quot) : Bool :=
  match q with
  | .val v => lim32 a v
  | .ratio neg n d e => (roundTo fp32 (arithRnd a) a.sat neg n d e).limited

/-- IEEE division: a finite non-zero value over zero is an infinity, 0/0 and Inf/Inf are NaN. -/
def divVal : Val → Val → Quot
  | .nan, _ => .val .nan
  | _, .nan => .val .nan
  | .inf _, .inf _ => .val .nan
  | .inf a, .fin n _ _ => .val (.inf (a ^^ n))
  | .fin n _ _, .inf b => .val (.fin (n ^^ b) 0 0)
  | .fin n1 m1 e1, .fin n2 m2 e2 =>
    if m2 = 0 then (if m1 = 0 then .val .nan else .val (.inf (n1 ^^ n2)))
    else .ratio (n1 ^^ n2) m1 m2 (e1 - e2)

def fdivQ (a : Arith) (x y : U32) : Quot := divVal (rd32 a x) (rd32 a y)
def fdiv (a : Arith) (x y : U32) : U32 := wrQuot a (fdivQ a x y)

/-- Integer square root by bits from the top: the largest r with r * r ≤ n among numbers of k bits. -/
def isqrtBits : Nat → Nat → Nat → Nat
  | 0, _, r => r
  | k + 1, n, r =>
    let t := r + 2 ^ k
    if t * t ≤ n then isqrtBits k n t else isqrtBits k n r

def isqrt (n : Nat) : Nat := isqrtBits (Nat.log2 n / 2 + 1) n 0

/-- √(m * 2^e) for m > 0 as a value whose last bit is sticky, so that rounding it rounds the root. -/
def sqrtSticky (m : Nat) (e : Int) : Nat × Int :=
  let m := m * 2 ^ 64
  let e := e - 64
  let (m, e) := if e % 2 = 0 then (m, e) else (m * 2, e - 1)
  let r := isqrt m
  (2 * r + b2n (decide (r * r ≠ m)), e / 2 - 1)

def sqrtVal : Val → Val
  | .nan => .nan
  | .inf true => .nan
  | .inf false => .inf false
  | .fin n m e =>
    if m = 0 then .fin n 0 e
    else if n then .nan
    else
      let (r, e') := sqrtSticky m e
      .fin false r e'

def fsqrt (a : Arith) (x : U32) : U32 := wr32 a (sqrtVal (rd32 a x))

/-- 1 / √x: the reciprocal of the sticky root. -/
def rsqrtQ (a : Arith) (x : U32) : Quot :=
  match rd32 a x with
  | .nan => .val .nan
  | .inf true => .val .nan
  | .inf false => .val (.fin false 0 0)
  | .fin n m e =>
    if m = 0 then .val (.inf n)
    else if n then .val .nan
    else
      -- 1/√(m 2^e) = √(2^k / m) scaled: with N = 2^(2t) / m rounded down, its root is sticky
      let (m, e) := if e % 2 = 0 then (m, e) else (m * 2, e - 1)
      let big := 2 ^ (2 * (Nat.log2 m + 64))
      let n' := big / m
      let r := isqrt n'
      .val (.fin false (2 * r + b2n (decide (r * r ≠ n' ∨ big % m ≠ 0)))
        (-(e / 2) - (Nat.log2 m + 64) - 1))

def frsqrt (a : Arith) (x : U32) : U32 := wrQuot a (rsqrtQ a x)

/-- Compares finite magnitudes with sign, as an integer sign: -1, 0, 1. Zeros compare equal here. -/
def cmpFin (n1 : Bool) (m1 : Nat) (e1 : Int) (n2 : Bool) (m2 : Nat) (e2 : Int) : Ordering :=
  let e := min e1 e2
  let a : Int := (m1 * 2 ^ (e1 - e).toNat : Nat)
  let b : Int := (m2 * 2 ^ (e2 - e).toNat : Nat)
  compare (if n1 then -a else a) (if n2 then -b else b)

/-- The order of values other than NaN; zeros equal. -/
def cmpVal : Val → Val → Ordering
  | .inf a, .inf b => if a = b then .eq else if a then .lt else .gt
  | .inf a, _ => if a then .lt else .gt
  | _, .inf b => if b then .gt else .lt
  | .fin n1 m1 e1, .fin n2 m2 e2 => cmpFin n1 m1 e1 n2 m2 e2
  | _, _ => .eq

/-- Sign of a value. -/
def signVal : Val → Bool
  | .nan => false
  | .inf n => n
  | .fin n _ _ => n

/-- The total order of R303 on values other than NaN: -0.0 below +0.0. -/
def ltMax (x y : Val) : Bool :=
  match cmpVal x y with
  | .lt => true
  | .gt => false
  | .eq => isZeroVal x && isZeroVal y && signVal x && !signVal y

/-- MAX and MIN of R303. -/
def fmaxV (x y : Val) : Val :=
  match x, y with
  | .nan, _ => .nan
  | _, .nan => .nan
  | _, _ => if ltMax x y then y else x

def fminV (x y : Val) : Val :=
  match x, y with
  | .nan, _ => .nan
  | _, .nan => .nan
  | _, _ => if ltMax y x then y else x

def fmax (a : Arith) (x y : U32) : U32 := wr32 a (fmaxV (rd32 a x) (rd32 a y))
def fmin (a : Arith) (x y : U32) : U32 := wr32 a (fminV (rd32 a x) (rd32 a y))

def isNan32 (x : U32) : Bool := decide (decodeFp fp32 x.toNat = .nan)

def isInf32 (x : U32) : Bool :=
  match decodeFp fp32 x.toNat with
  | .inf _ => true
  | _ => false

def isFinite32 (x : U32) : Bool := !isNan32 x && !isInf32 x

/-- x > y, false when either is NaN. -/
def fgt (x y : U32) : Bool :=
  match decodeFp fp32 x.toNat, decodeFp fp32 y.toNat with
  | .nan, _ => false
  | _, .nan => false
  | u, v => cmpVal u v == .gt

def fge (x y : U32) : Bool :=
  match decodeFp fp32 x.toNat, decodeFp fp32 y.toNat with
  | .nan, _ => false
  | _, .nan => false
  | u, v => cmpVal u v != .lt

def nan32 : U32 := 0x7FC00000
def one32 : U32 := 0x3F800000
def maxF32 : U32 := 0x7F7FFFFF
def inf32 : U32 := 0x7F800000
def ninf32 : U32 := 0xFF800000

/-- The FP32 value of a natural number, rounded to nearest even. -/
def natTo32 (n : Nat) : U32 := wr32 arithRne (.fin false n 0)

/-- Whether two formats' codes name NaN or infinity. -/
def isNanF (f : Fmt) (c : Nat) : Bool := decide (decodeFp f c = .nan)

/-- Converts a code between formats under ROUND and SAT. -/
def convFp (src dst : Fmt) (rnd : Rnd) (sat : Bool) (c : Nat) : Rounded :=
  roundVal dst rnd sat (satIn src sat (decodeFp src c))

/-- The widening of a BF16 or FP16 code to FP32, exact but for NaN, which becomes canonical. -/
def widen (src : Fmt) (c : Nat) : U32 := BitVec.ofNat 32 (convFp src fp32 .rne false c).code

end Sys2Proof.Machine
end

