-- ==== Sys2Proof/Config.lean ====
section
/-! DEFINITION. Config.lean: the free values (opaque constants, log entries 3, 6 and 9) and what is fixed per part. -/

namespace Sys2Proof

/-- What a byte of memory that nothing has written reads as, by loss count and address (R220, R604, R624). -/
opaque Config.freeByte : Nat → Nat → Byte

/-- What the code of R236 makes of errors in more than 5 bytes of a unit: the spec says nothing of them. The unit's address and
the errors to the outcome, and to the data that comes of it. -/
opaque Config.eccBeyond : Nat → List (Nat × Byte) → EccOutcome
opaque Config.eccData : Nat → List (Nat × Byte) → Nat → Byte

/-- Fresh open values, taken one after another (`State.free` counts them). -/
opaque Config.freeWord : Nat → Word

/-- The entropy source's output (R521): secrets the device draws for itself, one after another. -/
opaque Config.entropy : Nat → BitVec 512

/-- The bits of item k of a received frame, as its port writes it into a receive FIFO (R59, R63). -/
opaque Config.frameItem : Frame → Nat → Nat

/-- The MAC address of a sub-port (R466), and its IP address (R497). -/
opaque Config.subPortMac : Nat → Nat → BitVec 48
opaque Config.subPortIp : Nat → Nat → Nat

/-- ML-KEM-1024 (R518; FIPS 203 is not part of the spec), byte by byte: what an encapsulation key and a draw share, and the
ciphertext; the encapsulation key of a draw; and what its ciphertext decapsulates to. -/
opaque Config.kemShared : List Byte → Nat → BitVec 256
opaque Config.kemCipherByte : List Byte → Nat → Nat → Byte
opaque Config.kemKeyByte : Nat → Nat → Byte
opaque Config.decaps : Nat → List Byte → BitVec 256

/-- ML-DSA-87 (R518; FIPS 204 is not part of the spec) over a framed message: the bytes of a signature by a private key, and whether
a signature verifies under a public key. -/
opaque Config.dsaSignByte : List Byte → List Byte → Nat → Byte
opaque Config.dsaCheck : List Byte → List Byte → List Byte → Bool

/-- The identity key (R522): the fuse key, the private key as the flash holds it, what unwrapping gives byte by byte (the spec does
not say how it is wrapped), and the public key. -/
opaque Config.fuseKey : BitVec 256
opaque Config.wrappedIdentity : List Byte
opaque Config.unwrapByte : BitVec 256 → List Byte → Nat → Byte
opaque Config.identityByte : Nat → Byte

/-- The digests that the ROM holds (R523, R525, R548), and the Walvaith debug key. -/
opaque Config.romRoot : BitVec 512
opaque Config.romFirmwareKey : BitVec 512
opaque Config.romDebugKey : BitVec 512
opaque Config.debugKey : List Byte

/-- The hottest junction reading at a real-time counter value, TJ_MAX_C (R515): the outside's. -/
opaque Config.junction : Word → U32

/-- The oscillator periods of a cluster in the crystal cycle at a real-time counter value (R50 to R53). -/
opaque Config.ticks : Nat → Word → Nat

/-- The millivolt tenths by which a die's regulator slews in a crystal cycle; R47 bounds them. -/
opaque Config.slew : Nat → Word → Nat

/-- Whether a unit with a started descriptor advances work in a crystal cycle, by its identifier (R272). -/
opaque Config.advances : Nat → Word → Bool

/-- Whether the newest pass in flight of a core's array still has firings to make, at a real-time counter value (R308, R339). -/
opaque Config.firing : Nat → Word → Bool

/-- Per part: the characters of OD 0x1000:03, 0x1000:04, 0x1010:01 (R514), and the firmware image that a shipped part holds in
slot A. -/
opaque Config.serialChar : Nat → Byte
opaque Config.stepping : BitVec 16
opaque Config.mgmtMac : BitVec 48
opaque Config.shippedImage : FwImage

/-- The device certificate's parts that R523 does not give, as DER: its serial number, its issuer's name, its notBefore, the rest of
its subject, its extensions, and the bits of its signature; and the Walvaith intermediate certificate. -/
opaque Config.certPart : Nat → List Byte
opaque Config.intermediateCert : List Byte

/-- What X.509 makes of a peer's IDENTITY_CERT (R539, R592; the standard is not part of the spec): whether it chains to a root of a
digest, the Unix times from and until which each of its certificates is valid, and the device certificate's key. -/
opaque Config.certChains : BitVec 512 → List Byte → Bool
opaque Config.certDates : List Byte → List (Nat × Nat)
opaque Config.certKey : List Byte → List Byte

/-- What the spec does not lay out in a manifest (R543): where the header's fields lie; the items of SHARED_CONFIG, DEVICE_CONFIG and
IMEM for a DEV_NUMBER, from the sections' bytes; and how many of the bytes of the last two are that device's. -/
opaque Config.manifestHeader : List Byte → ManifestHeader
opaque Config.manifestItems : Nat → List Byte → List Byte → List Byte → Manifest
opaque Config.ownItemBytes : Nat → List Byte → List Byte → Nat

/-- What the spec names and does not lay out: the fuse image by MIN_SVN (R530), the firmware part that goes into MR3, MR4 or
MR5 by the image's body (R525), and the data of MR2 from OWNER_KEYS and the other kept RWS values of 0x7000 to
0x7FFF. -/
opaque Config.fuseImage : Nat → List Byte
opaque Config.firmwarePart : List Byte → Nat → List Byte
opaque Config.mr2Data : List Byte → List Nat → List Byte → List Byte

end Sys2Proof
end

