-- ==== Sys2Proof/Machine/Crypto.lean ====
section
/-! DEFINITION. Crypto.lean: AES (PRESUMED: FIPS 197), AES-256-GCM (PRESUMED: SP 800-38D) and XTS-AES-256 (PRESUMED: IEEE Std 1619),
the standards that R518 names (log entry 5). -/

namespace Sys2Proof.Machine

/-! ### AES -/

/-- The S-box, sixteen values a row, the first in the lowest byte. -/
def aesRows : List Nat :=
  [0x76ABD7FE2B670130C56F6BF27B777C63, 0xC072A49CAFA2D4ADF04759FA7DC982CA,
   0x1531D871F1E5A534CCF73F362693FDB7, 0x75B227EBE28012079A059618C323C704,
   0x842FE329B3D63B52A05A6E1B1A2C8309, 0xCF584C4A39BECB6A5BB1FC20ED00D153,
   0xA89F3C507F02F94585334D43FBAAEFD0, 0xD2F3FF1021DAB6BCF5389D928F40A351,
   0x73195D643D7EA7C41744975FEC130CCD, 0xDB0B5EDE14B8EE4688902A22DC4F8160,
   0x79E4959162ACD3C25C2406490A3A32E0, 0x08AE7A65EAF4566CA94ED58D6D37C8E7,
   0x8A8BBD4B1F74DDE8C6B4A61C2E2578BA, 0x9E1DC186B95735610EF6034866B53E70,
   0xDF2855CEE9871E9B948ED9691198F8E1, 0x16BB54B00F2D99416842E6BF0D89A18C]

def aesSub (x : Nat) : Nat := (aesRows.getD (x / 16) 0) / 256 ^ (x % 16) % 256

/-- Multiplication by x in GF(2^8). -/
def aesX2 (x : Nat) : Nat := if x < 128 then 2 * x else (2 * x) % 256 ^^^ 0x1B

/-- The next round key from a round key of 16 bytes. -/
def aesNextKey (rcon : Nat) (k : List Nat) : List Nat :=
  let g (i : Nat) : Nat := k.getD i 0
  let t0 := g 0 ^^^ aesSub (g 13) ^^^ rcon
  let t1 := g 1 ^^^ aesSub (g 14)
  let t2 := g 2 ^^^ aesSub (g 15)
  let t3 := g 3 ^^^ aesSub (g 12)
  let u0 := t0 ^^^ g 4
  let u1 := t1 ^^^ g 5
  let u2 := t2 ^^^ g 6
  let u3 := t3 ^^^ g 7
  let v0 := u0 ^^^ g 8
  let v1 := u1 ^^^ g 9
  let v2 := u2 ^^^ g 10
  let v3 := u3 ^^^ g 11
  [t0, t1, t2, t3, u0, u1, u2, u3, v0, v1, v2, v3, v0 ^^^ g 12, v1 ^^^ g 13, v2 ^^^ g 14, v3 ^^^ g 15]

def xorBytes (a b : List Nat) : List Nat := List.zipWith (fun x y => x ^^^ y) a b

/-- SubBytes and ShiftRows on a block of 16 bytes in column order. -/
def aesSubShift (s : List Nat) : List Nat :=
  ([0, 5, 10, 15, 4, 9, 14, 3, 8, 13, 2, 7, 12, 1, 6, 11] : List Nat).map (fun i => aesSub (s.getD i 0))

/-- MixColumns on one column. -/
def aesMixCol (a b c d : Nat) : List Nat :=
  let t := a ^^^ b ^^^ c ^^^ d
  [a ^^^ t ^^^ aesX2 (a ^^^ b), b ^^^ t ^^^ aesX2 (b ^^^ c), c ^^^ t ^^^ aesX2 (c ^^^ d), d ^^^ t ^^^ aesX2 (d ^^^ a)]

def aesMix (s : List Nat) : List Nat :=
  ([0, 4, 8, 12] : List Nat).flatMap (fun c => aesMixCol (s.getD c 0) (s.getD (c + 1) 0) (s.getD (c + 2) 0) (s.getD (c + 3) 0))

/-- Rounds 1 to 10: the round constants still to come, the round key, the block. -/
def aesRounds : List Nat → List Nat → List Nat → List Nat
  | [], _, s => s
  | [r], k, s => xorBytes (aesSubShift s) (aesNextKey r k)
  | r :: rs, k, s =>
    let k' := aesNextKey r k
    aesRounds rs k' (xorBytes (aesMix (aesSubShift s)) k')

def aesRcon : List Nat := [0x01, 0x02, 0x04, 0x08, 0x10, 0x20, 0x40, 0x80, 0x1B, 0x36]

/-- AES-128 of one block, key and block as 16 byte values. -/
def aes128 (key block : List Nat) : List Nat := aesRounds aesRcon key (xorBytes block key)

def natBytes (n v : Nat) : List Nat := (List.range n).map (fun i => v / 256 ^ i % 256)

def bytesNat : List Nat → Nat
  | [] => 0
  | b :: t => b + 256 * bytesNat t

/-- Four key bytes of AES-256 from the word before them and the word eight words back, the schedule's mark in place. -/
def aesKeyWords (mark : List Nat) (old : List Nat) : List Nat :=
  let w0 := xorBytes mark (old.take 4)
  let w1 := xorBytes w0 ((old.drop 4).take 4)
  let w2 := xorBytes w1 ((old.drop 8).take 4)
  w0 ++ w1 ++ w2 ++ xorBytes w2 (old.drop 12)

/-- The word of the schedule that a round key begins from: turned and marked for the even keys, only substituted for the odd ones. -/
def aesMark (rcon : Option Nat) (prev : List Nat) : List Nat :=
  let t := (prev.drop 12).map aesSub
  match rcon with
  | some r => [t.getD 1 0 ^^^ r, t.getD 2 0, t.getD 3 0, t.getD 0 0]
  | none => t

/-- The round keys of AES-256 that follow two of them. -/
def aesKeysFrom : List Nat → List Nat → List Nat → List (List Nat)
  | [], _, _ => []
  | r :: rs, a, b =>
    let c := aesKeyWords (aesMark (some r) b) a
    let d := aesKeyWords (aesMark none c) b
    if rs = [] then [c] else c :: d :: aesKeysFrom rs c d

/-- The fifteen round keys of AES-256. -/
def aes256Keys (key : List Nat) : List (List Nat) :=
  let a := key.take 16
  let b := (key.drop 16).take 16
  a :: b :: aesKeysFrom [0x01, 0x02, 0x04, 0x08, 0x10, 0x20, 0x40] a b

/-- Rounds 1 to 14 of AES-256. -/
def aesRoundsWith : List (List Nat) → List Nat → List Nat
  | [], s => s
  | [k], s => xorBytes (aesSubShift s) k
  | k :: ks, s => aesRoundsWith ks (xorBytes (aesMix (aesSubShift s)) k)

/-- AES-256 of one block. -/
def aes256 (key block : List Nat) : List Nat :=
  let ks := aes256Keys key
  aesRoundsWith (ks.drop 1) (xorBytes block (ks.getD 0 []))

/-- The inverse S-box. -/
def aesUnsub (y : Nat) : Nat := ((List.range 256).find? (fun x => decide (aesSub x = y))).getD 0

/-- Inverse ShiftRows and SubBytes. -/
def aesUnshift (s : List Nat) : List Nat :=
  ([0, 13, 10, 7, 4, 1, 14, 11, 8, 5, 2, 15, 12, 9, 6, 3] : List Nat).map (fun i => aesUnsub (s.getD i 0))

/-- Inverse MixColumns: MixColumns three times more. -/
def aesUnmix (s : List Nat) : List Nat := aesMix (aesMix (aesMix s))

/-- The rounds undone, the last round key first. -/
def aesUnrounds : List (List Nat) → List Nat → List Nat
  | [], s => s
  | [k], s => xorBytes (aesUnshift s) k
  | k :: ks, s => aesUnrounds ks (aesUnmix (xorBytes (aesUnshift s) k))

/-- The inverse of AES-256 on one block. -/
def unaes256 (key block : List Nat) : List Nat :=
  let ks := (aes256Keys key).reverse
  aesUnrounds (ks.drop 1) (xorBytes block (ks.getD 0 []))

def natsOf (bs : List Byte) : List Nat := bs.map (·.toNat)
def bytesOfNats (ns : List Nat) : List Byte := ns.map (BitVec.ofNat 8)

/-! ### GCM -/

/-- Sixteen bytes as a number, first byte highest. -/
def beNat (bs : List Nat) : Nat := bs.foldl (fun v b => 256 * v + b) 0

/-- The bytes of a number, most significant first. -/
def beBytes (n v : Nat) : List Nat := (natBytes n v).reverse

/-- The step of GHASH's field: the product so far, and the multiplicand shifted. -/
def ghashStep (x : Nat) (zv : Nat × Nat) (i : Nat) : Nat × Nat :=
  let z := if x / 2 ^ (127 - i) % 2 = 1 then zv.1 ^^^ zv.2 else zv.1
  let v := if zv.2 % 2 = 1 then (zv.2 / 2) ^^^ (0xE1 * 2 ^ 120) else zv.2 / 2
  (z, v)

/-- Multiplication in GHASH's field. -/
def ghashMul (x y : Nat) : Nat := ((List.range 128).foldl (ghashStep x) (0, y)).1

/-- Bytes in blocks of 16, the last one filled with zeros. -/
def blocks16 (bs : List Nat) : List (List Nat) :=
  (List.range (cdiv bs.length 16)).map (fun i =>
    let b := (bs.drop (16 * i)).take 16
    b ++ List.replicate (16 - b.length) 0)

/-- GHASH of additional data and ciphertext under a hash key. -/
def ghash (h : Nat) (aad cipher : List Nat) : Nat :=
  let bs := blocks16 aad ++ blocks16 cipher ++ [beBytes 8 (8 * aad.length) ++ beBytes 8 (8 * cipher.length)]
  bs.foldl (fun y b => ghashMul (y ^^^ beNat b) h) 0

/-- Bytes with the key stream of GCM's counter added: block i takes counter value i + 2. -/
def gcmStream (key iv bs : List Nat) : List Nat :=
  ((List.range (cdiv bs.length 16)).flatMap (fun i =>
    xorBytes ((bs.drop (16 * i)).take 16) (aes256 key (iv ++ beBytes 4 (i + 2)))))

/-- The tag of additional data and ciphertext: 16 bytes. -/
def gcmTagOf (key iv aad cipher : List Nat) : List Nat :=
  let h := beNat (aes256 key (List.replicate 16 0))
  xorBytes (beBytes 16 (ghash h aad cipher)) (aes256 key (iv ++ [0, 0, 0, 1]))

/-- AES-256-GCM: ciphertext and tag under a 256-bit key (its bytes lowest first) and a 96-bit IV. -/
def gcmSeal (key : BitVec 256) (iv aad plain : List Byte) : List Byte × List Byte :=
  let k := natBytes 32 key.toNat
  let c := gcmStream k (natsOf iv) (natsOf plain)
  (bytesOfNats c, bytesOfNats (gcmTagOf k (natsOf iv) (natsOf aad) c))

/-- The tag of AES-256-GCM over additional data alone (R511). -/
def gcmTag (key : BitVec 256) (iv aad : List Byte) : List Byte := (gcmSeal key iv aad []).2

/-- The plaintext of a ciphertext whose tag is right. -/
def gcmOpen (key : BitVec 256) (iv aad cipher tag : List Byte) : Option (List Byte) :=
  let k := natBytes 32 key.toNat
  if bytesOfNats (gcmTagOf k (natsOf iv) (natsOf aad) (natsOf cipher)) = tag then
    some (bytesOfNats (gcmStream k (natsOf iv) (natsOf cipher)))
  else none

/-! ### XTS -/

/-- A tweak times the field's generator. -/
def xtsDouble (t : Nat) : Nat := if t < 2 ^ 127 then 2 * t else (2 * t) % 2 ^ 128 ^^^ 0x87

/-- The tweak of each block of an access unit: the encrypted tweak value, doubled block by block. -/
def xtsTweaks (key2 : List Nat) (tweak : Nat) : List Nat :=
  let t0 := bytesNat (aes256 key2 (natBytes 16 tweak))
  [t0, xtsDouble t0, xtsDouble (xtsDouble t0), xtsDouble (xtsDouble (xtsDouble t0))]

/-- An access unit with each block taken through the cipher between its tweaks. -/
def xtsUnit (cipher : List Nat → List Nat → List Nat) (key : BitVec 512) (tweak : Nat) (bs : List Byte) : List Byte :=
  let k1 := natBytes 32 key.toNat
  let k2 := natBytes 32 (key.toNat / 2 ^ 256)
  bytesOfNats ((xtsTweaks k2 tweak).zipIdx.flatMap (fun x =>
    let t := natBytes 16 x.1
    xorBytes (cipher k1 (xorBytes (natsOf ((bs.drop (16 * x.2)).take 16)) t)) t))

/-- XTS-AES-256 of a 64-byte access unit, and its inverse (R243). -/
def xtsEncrypt : BitVec 512 → Nat → List Byte → List Byte := xtsUnit aes256
def xtsDecrypt : BitVec 512 → Nat → List Byte → List Byte := xtsUnit unaes256

end Sys2Proof.Machine
end

