-- ==== Sys2Proof/Machine/ObjTable.lean ====
section
/-! DEFINITION. ObjTable.lean: the objects of the object dictionary (R503 to R505) with type, access, default and
range, as the object tables of the chapters give them. -/

namespace Sys2Proof.Machine

/-- Access rights (R504). -/
inductive ObjAccess where
  | const | ro | rw | wo | rws
  deriving DecidableEq, Repr

/-- The range of a numeric object, or the length of a byte-string one. `special` ranges have checks of their own. -/
inductive ObjCheck where
  | any
  | range (lo hi : Nat)
  | zeroOr (lo hi : Nat)
  | step (lo hi k : Nat)
  | len (n : Nat)
  | maxLen (n : Nat)
  | special
  deriving DecidableEq, Repr

/-- An object or field (R503): type code, access, default value (0 for byte strings), range. -/
structure ObjSpec where
  index : Nat
  sub : Nat
  type : Nat
  access : ObjAccess
  dflt : Nat
  check : ObjCheck
  deriving DecidableEq, Repr

/-- The key under which an object's value is held. -/
def objKey (i sub : Nat) : Nat := i * 256 + sub

def mkObj (i sub ty : Nat) (a : ObjAccess) (d : Nat) (c : ObjCheck) : ObjSpec :=
  { index := i, sub := sub, type := ty, access := a, dflt := d, check := c }

/-- Fields `lo` to `hi` of one index with one definition. -/
def mkObjs (i lo hi ty : Nat) (a : ObjAccess) (d : Nat) (c : ObjCheck) : List ObjSpec :=
  (List.range (hi + 1 - lo)).map (fun k => mkObj i (lo + k) ty a d c)

/-- R514. -/
def objIdentity : List ObjSpec :=
  [mkObj 0x1000 1 7 .const 0 .any, mkObj 0x1000 2 7 .const 0 .any, mkObj 0x1000 3 7 .const 0 .any,
   mkObj 0x1000 4 2 .const 0 .any, mkObj 0x1000 5 1 .ro 0 .any, mkObj 0x1000 6 3 .ro 0 .any,
   mkObj 0x1001 1 1 .const 1 .any,
   mkObj 0x1010 1 4 .const 0 .any, mkObj 0x1010 2 1 .rws 0 (.range 0 3), mkObj 0x1010 3 3 .rws 0 .any,
   mkObj 0x1010 4 1 .rws 24 (.range 1 30), mkObj 0x1010 5 3 .rws 0 .any, mkObj 0x1010 6 8 .rws 0 (.len 16),
   mkObj 0x1010 7 8 .ro 0 .any, mkObj 0x1010 8 2 .rws 45792 (.range 1024 65535), mkObj 0x1010 9 1 .ro 0 .any,
   mkObj 0x1020 1 1 .rws 0 (.range 0 1), mkObj 0x1020 2 1 .rws 0 (.range 0 1),
   mkObj 0x1020 3 2 .rw 60 (.range 10 3600), mkObj 0x1020 4 4 .ro 0 .any, mkObj 0x1020 5 4 .ro 0 .any]

/-- R47, R515, R607. The default of BED_TARGET is that of POWERUP_MODE 0. -/
def objPower : List ObjSpec :=
  [mkObj 0x2001 1 3 .ro 0 .any, mkObj 0x2001 2 6 .ro 0 .any, mkObj 0x2001 3 3 .rws 3200 (.range 800 3200),
   mkObj 0x2001 4 6 .ro 0 .any] ++
  mkObjs 0x2010 1 4 2 .rws 700 (.step 600 800 5) ++ mkObjs 0x2011 1 4 6 .ro 0 .any ++
  mkObjs 0x2012 1 4 2 .ro 0 .any ++
  mkObjs 0x2020 1 2 1 .ro 1 .any ++ mkObjs 0x2020 3 62 1 .rw 1 (.range 0 1) ++
  mkObjs 0x2021 1 62 1 .ro 0 .any ++
  [mkObj 0x2022 1 1 .rws 0 (.range 0 1), mkObj 0x2022 2 1 .rws 0 (.range 0 1),
   mkObj 0x2022 3 1 .rws 0 (.range 0 31), mkObj 0x2022 4 1 .ro 0 .any,
   mkObj 0x2030 1 4 .ro 0 .any, mkObj 0x2030 2 4 .rw 0 .any] ++
  mkObjs 0x2040 1 4 1 .rws 110 (.range 70 110) ++ mkObjs 0x2040 5 6 1 .rws 105 (.range 70 105) ++
  mkObjs 0x2040 7 8 1 .rws 95 (.range 70 95) ++
  [mkObj 0x2040 9 1 .rws 1 (.range 0 1), mkObj 0x2041 1 1 .rw 100 (.range 60 105)]

/-- R515, R578. -/
def objHealth : List ObjSpec :=
  [mkObj 0x3001 1 3 .ro 0 .any, mkObj 0x3001 2 8 .ro 0 .any, mkObj 0x3001 3 3 .ro 0 .any,
   mkObj 0x3001 4 4 .ro 0 .any, mkObj 0x3001 5 8 .ro 0 .any,
   mkObj 0x3002 1 1 .ro 0 .any, mkObj 0x3002 2 8 .ro 0 .any, mkObj 0x3002 3 3 .ro 0 .any,
   mkObj 0x3003 1 8 .ro 0 .any, mkObj 0x3003 2 2 .rws 0 .special, mkObj 0x3003 3 2 .rws 0 .special,
   mkObj 0x3003 4 2 .ro 0 .any,
   mkObj 0x3010 1 3 .rw 1000 (.zeroOr 10 600000),
   mkObj 0x3011 1 2 .ro 0 .any, mkObj 0x3011 2 1 .ro 0 .any]

/-- R54, R83, R168, R183, R216, R248, R277. -/
def objCompute : List ObjSpec :=
  [mkObj 0x4020 1 3 .rw 2000 (.zeroOr 100 100000), mkObj 0x4020 2 3 .rw 4000 (.step 0 100000 4),
   mkObj 0x4021 1 3 .rw 0 (.zeroOr 100 60000),
   mkObj 0x4030 1 2 .rw 8192 (.range 1 65535), mkObj 0x4030 2 2 .rw 8192 (.range 1 65535),
   mkObj 0x4210 1 1 .rw 8 (.range 2 255), mkObj 0x4210 2 1 .rw 8 (.range 0 12),
   mkObj 0x4210 3 1 .rw 1 (.range 0 1), mkObj 0x4210 4 3 .rw 65536 (.range 1024 1073741824),
   mkObj 0x4220 1 1 .rw 0 (.range 0 1), mkObj 0x4220 2 3 .rw 4096 (.range 256 65536),
   mkObj 0x4220 3 2 .rw 32 (.range 4 1024),
   mkObj 0x5010 1 3 .rw 1000 (.range 10 100000), mkObj 0x5010 2 2 .rw 24 (.zeroOr 1 168),
   mkObj 0x5010 3 2 .rw 8 (.range 1 1024), mkObj 0x5010 4 2 .rws 256 (.range 16 1024)] ++
  mkObjs 0x5020 1 12 8 .ro 0 .any ++
  [mkObj 0x5021 1 4 .rws 0 .special, mkObj 0x5030 1 1 .rw 16 (.range 4 128)]

/-- R435, R437, R452, R456, R463, R494. -/
def objLinks : List ObjSpec :=
  [mkObj 0x6001 1 2 .rws 0 (.range 0 32767), mkObj 0x6001 2 2 .rws 0 .special,
   mkObj 0x6001 3 1 .rws 0 (.range 0 1), mkObj 0x6001 4 2 .rws 0 .special,
   mkObj 0x6010 1 3 .rw 200 (.range 20 100000), mkObj 0x6010 2 1 .rw 16 (.range 4 64)] ++
  mkObjs 0x6020 1 8 3 .rws 8192 (.range 2048 131072) ++ [mkObj 0x6020 9 3 .rws 32768 (.range 2048 131072)] ++
  mkObjs 0x6021 1 9 3 .rws 49152 (.range 2048 196608) ++
  [mkObj 0x6030 1 1 .rws 0 (.range 0 2), mkObj 0x6030 2 1 .rws 0 (.range 0 2),
   mkObj 0x6030 3 1 .rws 3 .special, mkObj 0x6030 4 1 .rws 0x18 .special,
   mkObj 0x6030 5 1 .rws 1 (.range 0 1), mkObj 0x6030 6 3 .rw 0 (.range 0 1073741824)] ++
  mkObjs 0x6031 1 4 8 .rws 0 (.maxLen 131072)

/-- R516, R551. -/
def objSecurity : List ObjSpec :=
  [mkObj 0x7001 1 8 .wo 0 (.maxLen 16384), mkObj 0x7001 2 8 .ro 0 .any, mkObj 0x7001 3 3 .wo 0 .any,
   mkObj 0x7001 4 1 .ro 0 .any, mkObj 0x7001 5 8 .ro 0 .any,
   mkObj 0x7002 1 8 .const 0 .any, mkObj 0x7002 2 8 .ro 0 .any, mkObj 0x7002 3 8 .wo 0 .special,
   mkObj 0x7002 4 8 .ro 0 .any, mkObj 0x7002 5 8 .rws 0 .special,
   mkObj 0x7003 1 8 .wo 0 .special, mkObj 0x7003 2 1 .ro 0 .any,
   mkObj 0x7004 1 8 .rws 0 (.maxLen 16777216), mkObj 0x7004 2 1 .rws 0 (.range 0 1),
   mkObj 0x7004 3 3 .ro 0 .any, mkObj 0x7004 4 3 .rws 0 .special, mkObj 0x7004 5 3 .ro 0 .any,
   mkObj 0x7004 6 1 .ro 0 .any,
   mkObj 0x7005 1 8 .rws 0 .special, mkObj 0x7005 2 8 .ro 0 .any,
   mkObj 0x7006 1 8 .rws 0 .special, mkObj 0x7006 2 8 .ro 0 .any]

/-- R424, R427, R429, R430, R516, R517. LOSS_SCALE and LOSS_SCALE_MAX run from 1.0 to 2^24 as FP32 patterns. -/
def objJobs : List ObjSpec :=
  [mkObj 0x8010 1 2 .rw 0 .special, mkObj 0x8010 2 8 .ro 0 .any,
   mkObj 0xA001 1 1 .ro 0 .any, mkObj 0xA001 2 8 .rws 0 (.maxLen 67108864), mkObj 0xA001 3 8 .ro 0 .any,
   mkObj 0xA001 4 1 .rws 0 (.range 0 1),
   mkObj 0xA010 1 4 .ro 0 .any, mkObj 0xA010 2 4 .ro 0 .any,
   mkObj 0xA020 1 6 .rw 0x3F800000 (.range 0x3F800000 0x4B800000), mkObj 0xA020 2 1 .rw 0 (.range 0 1),
   mkObj 0xA020 3 6 .rw 0x3F000000 (.range 1 0x3F7FFFFF), mkObj 0xA020 4 3 .rw 2000 (.range 1 1000000),
   mkObj 0xA020 5 6 .rw 0x4B800000 (.range 0x3F800000 0x4B800000),
   mkObj 0xA021 1 3 .ro 0 .any, mkObj 0xA021 2 4 .ro 0 .any, mkObj 0xA030 1 8 .ro 0 .any]

def objTable : List ObjSpec :=
  objIdentity ++ objPower ++ objHealth ++ objCompute ++ objLinks ++ objSecurity ++ objJobs

/-- The object or field at an index and subindex, subindex 0 apart. -/
def objFind (i sub : Nat) : Option ObjSpec := objTable.find? (fun o => o.index = i ∧ o.sub = sub)

/-- The highest subindex in use of a REC (R503), 0 where no such index exists. -/
def objHighest (i : Nat) : Nat := objTable.foldl (fun m o => if o.index = i ∧ m < o.sub then o.sub else m) 0

/-- The default of a numeric object. -/
def objDefault (i sub : Nat) : Nat := ((objFind i sub).map (·.dflt)).getD 0

/-- Whether a numeric value lies in an object's range; `special` objects have their own checks. -/
def objInRange (c : ObjCheck) (v : Nat) : Bool :=
  match c with
  | .range lo hi => decide (lo ≤ v ∧ v ≤ hi)
  | .zeroOr lo hi => decide (v = 0 ∨ (lo ≤ v ∧ v ≤ hi))
  | .step lo hi k => decide (lo ≤ v ∧ v ≤ hi ∧ v % k = 0)
  | _ => true

/-- Whether a byte string's length fits. -/
def objLenOk (c : ObjCheck) (n : Nat) : Bool :=
  match c with
  | .len k => decide (n = k)
  | .maxLen k => decide (n ≤ k)
  | _ => true

/-- The bytes of a value of a numeric type (R503), 0 for the others. -/
def objTypeBytes (ty : Nat) : Nat :=
  match ty with
  | 1 => 1
  | 2 => 2
  | 3 => 4
  | 4 => 8
  | 5 => 4
  | 6 => 4
  | _ => 0

/-- Request objects that read as empty or as 0 and keep no value (R505). -/
def objKeepsNothing (i sub : Nat) : Bool :=
  decide ((i = 0x2022 ∧ sub = 2) ∨ (i = 0xA001 ∧ (sub = 2 ∨ sub = 4)) ∨ (i = 0x7002 ∧ sub = 5) ∨
    (i = 0x7004 ∧ sub = 1))

end Sys2Proof.Machine
end

