-- ==== Sys2Proof/Machine/Routes.lean ====
section
/-! DEFINITION. Routes.lean: the Trellis stops and the routes over the die mesh and the package edges (R14 to R22). -/

namespace Sys2Proof.Machine

/-! ### The die mesh (R19, R20, R22) -/

/-- What a Trellis stop serves. -/
inductive StopUnit where
  | stack (i : Fin 3)
  | dieControl
  | cluster (c : Fin 8)
  | horizontal
  | vertical
  | link
  | network
  deriving DecidableEq, Repr

/-- The unit of a stop, stops numbered 4 × row + column (R19). -/
def stopUnit (k : Fin 16) : StopUnit :=
  if h : k.val < 3 then .stack ⟨k.val, h⟩
  else if k.val = 3 then .dieControl
  else if k.val < 12 then .cluster (Fin.ofNat 8 (k.val - 4))
  else if k.val = 12 then .horizontal
  else if k.val = 13 then .vertical
  else if k.val = 14 then .link
  else .network

/-- The stop that serves a unit (R19). -/
def stopOf : StopUnit → Fin 16
  | .stack i => Fin.ofNat 16 i.val
  | .dieControl => 3
  | .cluster c => Fin.ofNat 16 (4 + c.val)
  | .horizontal => 12
  | .vertical => 13
  | .link => 14
  | .network => 15

/-- The numbers from one to another, both included, up or down. -/
def walk (a b : Nat) : List Nat :=
  if a ≤ b then (List.range (b - a + 1)).map (fun i => a + i) else (List.range (a - b + 1)).map (fun i => a - i)

/-- The stops that a packet passes, from its first to its last: along the row, then along the column (R20). -/
def meshPath (a b : Fin 16) : List (Fin 16) :=
  (walk (a.val % 4) (b.val % 4)).map (fun c => Fin.ofNat 16 (a.val / 4 * 4 + c)) ++
    ((walk (a.val / 4) (b.val / 4)).drop 1).map (fun r => Fin.ofNat 16 (r * 4 + b.val % 4))

/-- The output by which a packet leaves a stop for the next one: 0 north, 1 east, 2 south, 3 west, 4 the stop's own unit
(R231). -/
def meshOutput (a b : Fin 16) : Fin 5 :=
  if b.val + 4 = a.val then 0 else if b.val = a.val + 1 then 1 else if b.val = a.val + 4 then 2
  else if b.val + 1 = a.val then 3 else 4

/-- The stops of a path with the output taken at each; the last hands the packet to its unit. -/
def meshHops : List (Fin 16) → List (Fin 16 × Fin 5)
  | [] => []
  | [a] => [(a, 4)]
  | a :: b :: t => (a, meshOutput a b) :: meshHops (b :: t)

/-! ### The package edges (R16 to R18); dies 0 to 3, link dies A and B as 4 and 5 -/

/-- The dies that an edge joins (R16), edges in the order of R574: H0, H1, V0, V1, LA0, LA1, LB2, LB3. -/
def edgeEnds (e : Nat) : Nat × Nat :=
  match e with
  | 0 => (0, 1)
  | 1 => (2, 3)
  | 2 => (0, 2)
  | 3 => (1, 3)
  | 4 => (4, 0)
  | 5 => (4, 1)
  | 6 => (5, 2)
  | _ => (5, 3)

/-- The stop at which an edge meets the mesh of a die (R19). -/
def edgeStop (e : Nat) : Fin 16 := stopOf (if e < 2 then .horizontal else if e < 4 then .vertical else .link)

/-- The die at the other end of an edge. -/
def edgeFar (e a : Nat) : Option Nat :=
  let x := edgeEnds e
  if x.1 = a then some x.2 else if x.2 = a then some x.1 else none

/-- The edges that traffic from a compute die takes while none is fenced (R17). -/
def usualEdges (a b : Nat) : List Nat :=
  let h := if a % 2 = b % 2 then [] else [a / 2]
  let v := if a / 2 = b / 2 then [] else [2 + b % 2]
  if b < 4 then h ++ v
  else if a / 2 = b - 4 then [4 + a]
  else [2 + a % 2, 4 + (a + 2) % 4]

/-- Every way from die `a` to die `b` that crosses no dead edge, no die twice and no link die, horizontal edges first. -/
def waysTo (dead : Nat → Bool) (b : Nat) : Nat → Nat → List Nat → List (List Nat)
  | 0, _, _ => []
  | n + 1, a, seen =>
    if a = b then [[]]
    else if 4 ≤ a ∧ seen ≠ [] then []
    else (List.range 8).flatMap (fun e =>
      match edgeFar e a with
      | some c => if dead e || seen.contains c then [] else (waysTo dead b n c (a :: seen)).map (fun w => e :: w)
      | none => [])

/-- The first of the shortest lists. -/
def shortest : List (List Nat) → Option (List Nat)
  | [] => none
  | w :: ws => some (ws.foldl (fun m x => if x.length < m.length then x else m) w)

/-- The edges between two dies: those of R17, or, where one of them is dead, the shortest way that uses none (R18). What
comes from a link die goes the reverse way (log entry 47). -/
def edgeRoute (dead : Nat → Bool) (a b : Nat) : Option (List Nat) :=
  let out := fun (a b : Nat) =>
    if a < 4 ∧ !(usualEdges a b).any dead then some (usualEdges a b) else shortest (waysTo dead b 6 a [])
  if 4 ≤ a ∧ b < 4 then (out b a).map List.reverse else out a b

/-- Where a packet starts or ends: at a stop of a compute die, or in a link die. -/
inductive Site where
  | stop (die : Fin 4) (k : Fin 16)
  | linkDie (l : Fin 2)
  deriving DecidableEq, Repr

def Site.die : Site → Nat
  | .stop d _ => d.val
  | .linkDie l => 4 + l.val

/-- One part of a packet's way: the hops over a die's mesh, or an edge. -/
inductive Leg where
  | mesh (die : Nat) (hops : List (Fin 16 × Fin 5))
  | edge (e : Nat)
  deriving DecidableEq, Repr

/-- The legs over the edges still to cross, from a stop of a die (or from a link die) to a stop (R17, R20). -/
def legsOver (last : Option (Fin 16)) : List Nat → Nat → Option (Fin 16) → List Leg
  | [], d, here =>
    match here, last with
    | some a, some b => [.mesh d (meshHops (meshPath a b))]
    | _, _ => []
  | e :: t, d, here =>
    let c := (edgeFar e d).getD d
    (match here with
      | some a => [.mesh d (meshHops (meshPath a (edgeStop e)))]
      | none => []) ++ .edge e :: legsOver last t c (if c < 4 then some (edgeStop e) else none)

/-- A packet's whole way between two sites; `none` where no path is left (R18). -/
def packetLegs (dead : Nat → Bool) (a b : Site) : Option (List Leg) :=
  let stop := fun (x : Site) => match x with
    | .stop _ k => some k
    | .linkDie _ => none
  (edgeRoute dead a.die b.die).map (fun es => legsOver (stop b) es a.die (stop a))

/-- The dies that link die A reaches, itself included; every other one counts as cut off when fenced edges leave no path
(DESIGN CHOICE: R18 does not say which side of a cut is the unreachable one; log entry 47). -/
def reachedDies (dead : Nat → Bool) : List Nat := (List.range 6).filter (fun d => (edgeRoute dead 4 d).isSome)

end Sys2Proof.Machine
end

