-- ==== Sys2Proof/Machine/State.lean ====
section
/-! DEFINITION. State.lean: the state of the block as plain data, unit by unit, and the state right after reset.
Each structure's docstring names the rules that give its fields. Reset values are the At reset columns (R9);
a value marked DESIGN CHOICE is log entry 4. -/

namespace Sys2Proof.Machine

/-- Reasons to stop with a fault. No meaning raises one: the T9 answers every wrong access, record or
command with an event and goes on (R283, R560), so a stop would be the model's own. Safe. -/
inductive Fault where
  /-- Raised by no meaning; kept so that the type names a stop at all. Safe. -/
  | stopped
  deriving DecidableEq, Repr

/-- Reasons to refuse a command. -/
inductive Refusal where
  /-- Raised only by an arm of `exec` whose command has no meaning yet. Safe. -/
  | notModelled (mnemonic : String)
  deriving DecidableEq, Repr

/-- All byte-addressable storage (R25, R26, R29). `cells` lists bytes at strictly rising addresses, before encryption;
`zeroed` names the regions (stack s as s, cluster g as 12 + g) whose unlisted bytes are zero
(R624, R604); `eras` counts each region's losses of contents, so that lost bytes are new free values (log entry 3).
`keys` holds the memory key in force in each stack, `first` the key under which the stack's units were initialised, and
`under`, by address / 64, the key under which an access unit was last written where that is another (R243, R244, R624). -/
structure Memory where
  cells : List Host.Cell
  zeroed : List Nat
  eras : Tab Nat
  keys : Tab (BitVec 512)
  first : Tab (BitVec 512)
  under : Tab (BitVec 512)
  deriving DecidableEq, Repr

/-- The ten counters of R273 in the order of its offsets, and the last snapshot. -/
structure Stall where
  counts : Vector Word 10
  snapTick : Word
  snapCounts : Vector Word 10
  deriving DecidableEq, Repr

def Stall.zero : Stall :=
  { counts := Vector.replicate 10 0, snapTick := 0, snapCounts := Vector.replicate 10 0 }

/-- TRIM_STATUS.STATE (R55). -/
inductive TrimState where
  | untrimmed | trimming | locked | failed
  deriving DecidableEq, Repr

/-- Where a trim or retrim stands (R51): no trim, the window of step 2 for a bit, or the measurement of
step 3, saying whether it may be repeated. -/
inductive TrimPhase where
  | idle
  | window (bit : Fin 12)
  | measure (mayRepeat : Bool)
  deriving DecidableEq, Repr

/-- The reference oscillator (R50 to R56). `trimmed`: the trim of R51 has ended since the bed came on. -/
structure Osc where
  tick : Word
  trimCode : BitVec 12
  trimState : TrimState
  phase : TrimPhase
  trimmed : Bool
  error : BitVec 16
  anchorTick : Word
  anchorRtc : Word
  rateMon : BitVec 16
  deriving DecidableEq, Repr

def Osc.reset : Osc :=
  { tick := 0, trimCode := 0x800, trimState := .untrimmed, phase := .idle, trimmed := false, error := 0,
    anchorTick := 0, anchorRtc := 0, rateMon := 0 }

/-- Tags of FIFO items (R59). -/
inductive FifoTag where
  | idle | data | head | last
  deriving DecidableEq, Repr

/-- A stored FIFO item; a HEAD has no length until LAST is written (R61, R62). -/
structure FifoItem where
  tag : FifoTag
  bits : Nat
  len : Option Nat
  abort : Bool
  deriving DecidableEq, Repr

/-- A boundary FIFO (R58 to R73). `discard`: the reader is inside an aborted packet (R64); `lastRead` is what the
reader last got for use. -/
structure Fifo where
  items : List FifoItem
  wptr : Nat
  rptr : Nat
  wptrSeen : Nat
  rptrSeen : Nat
  empty : Bool
  full : Bool
  flow : Bool
  high : Nat
  low : Nat
  peak : Nat
  resets : Nat
  aborted : Nat
  discard : Bool
  lastRead : FifoItem
  deriving DecidableEq, Repr

/-- A token's counts and EXPECT (R84). -/
structure Token where
  even : Byte
  odd : Byte
  expect : Byte
  deriving DecidableEq, Repr

def Token.reset : Token := { even := 0, odd := 0, expect := 1 }

/-- A descriptor's eight words (R91). -/
structure Desc where
  w0 : Word
  w1 : Word
  w2 : Word
  w3 : Word
  w4 : Word
  w5 : Word
  w6 : Word
  w7 : Word
  deriving DecidableEq, Repr

/-- A descriptor in a queue: its words as read when posted (R95), its address, whether a launch
entry posted it (R555), and whether Harrow did (R162). -/
structure QDesc where
  desc : Desc
  addr : Nat
  launch : Bool
  harrow : Bool
  deriving DecidableEq, Repr

/-- A scalar summary entry (R389). -/
structure Summary where
  w0 : Word
  w1 : Word
  w2 : Word
  w3 : Word
  deriving DecidableEq, Repr

/-- How far a started descriptor has come: started, its engine works on it, staged and waiting for a decision (R192), or ready
to complete. -/
inductive Phase where
  | started | working | staged | finished
  deriving DecidableEq, Repr

/-- A started descriptor (R92, R93) with its Season, its ordinal in that Season (R291) and the summary
that it owes (R389). -/
structure Running where
  q : QDesc
  season : Nat
  ordinal : Nat
  phase : Phase
  summary : Option Summary
  deriving DecidableEq, Repr

/-- An engine queue (R96, R97): descriptors waiting, descriptors started, the ordinal counter of R291. -/
structure Queue where
  waiting : List QDesc
  running : List Running
  ordSeason : Nat
  ordNext : Nat
  deriving DecidableEq, Repr

def Queue.empty : Queue := { waiting := [], running := [], ordSeason := 0, ordNext := 0 }

/-- A launch entry (R100): its words, and, for a BARRIER, whether it has been released (R103). -/
structure LaunchEntry where
  w0 : Word
  w1 : Word
  w2 : Word
  w3 : Word
  released : Bool
  deriving DecidableEq, Repr

def LaunchEntry.unused : LaunchEntry := { w0 := 0, w1 := 0, w2 := 0, w3 := 0, released := false }

/-- A Season stamp (R113). -/
structure Stamp where
  season : Nat
  arriveTick : Word
  advanceTick : Word
  held : Bool
  deriving DecidableEq, Repr

/-- SEQ_STATUS.STATE (R114). -/
inductive SeqState where
  | halted | running | waitCredit | waitToken | waitSeason | waitSummary | faulted
  deriving DecidableEq, Repr

/-- The control sequencer (R114 to R120). `load` is the register and data of an LD under way. -/
structure Sequencer where
  regs : Vector Word 32
  pc : Nat
  state : SeqState
  imem : Tab Word
  load : Option (Fin 32 × Word)
  barrierResult : Word
  deriving DecidableEq, Repr

def Sequencer.reset : Sequencer :=
  { regs := Vector.replicate 32 0, pc := 0, state := .halted, imem := [], load := none, barrierResult := 0 }

/-- A micro-batch piece that waits for the ring (R157), with what its counters and its gather need. -/
structure Piece where
  bytes : List Byte
  rows : Nat
  edges : Nat
  halos : Nat
  deriving DecidableEq, Repr

/-- A SAMPLE command whose pieces are being written (R154 to R160): the pieces still to be written, how many are,
and the fault (class:code and arguments) that ends it once they are. -/
structure SampleJob where
  mb : Nat
  season : Nat
  unit : Nat
  hops : Nat
  seeds : Nat
  outAddr : Nat
  outLog2 : Nat
  pieceToken : Option Nat
  spec : Bool
  pieces : List Piece
  written : Nat
  fault : Option (Nat × Nat × Nat)
  deriving DecidableEq, Repr

/-- The decision on a command's speculative gathers (R163, R164). -/
inductive Decision where
  | undecided | confirmed | discarded
  deriving DecidableEq, Repr

/-- The latest SAMPLE command with SPEC set (R162 to R165): its Season, and the gathers posted under it. -/
structure SpecCommand where
  season : Nat
  confirmToken : Nat
  decision : Decision
  gathers : Nat
  deriving DecidableEq, Repr

/-- A gather that waits for a Rake credit (R162, R164). -/
structure SpecPost where
  rowAddr : Nat
  rows : Nat
  spec : Bool
  deriving DecidableEq, Repr

/-- A line of the topology cache (R137). -/
structure TopoLine where
  line : Nat
  bytes : List Byte
  deriving DecidableEq, Repr

/-- Harrow (R128 to R168). Each set of the topology cache lists its lines, most recently used first; `budgets` are the default piece
budgets that the last SAMPLE found as it started (R168). -/
structure Harrow where
  consumed : U32
  produced : U32
  specTemplate : BitVec 48
  expansions : Word
  edgesEmitted : Word
  pieces : Word
  contPieces : Word
  haloNodes : Word
  shortDraws : Word
  specIssued : Word
  specConfirmed : Word
  specDiscarded : Word
  topoHits : Word
  topoMisses : Word
  curMb : BitVec 16
  curPiece : BitVec 16
  job : Option SampleJob
  spec : Option SpecCommand
  toPost : List SpecPost
  budgets : Nat × Nat
  topo : Tab (List TopoLine)
  fills : List TopoLine
  deriving DecidableEq, Repr

def Harrow.reset : Harrow :=
  { consumed := 0, produced := 0, specTemplate := 0, expansions := 0, edgesEmitted := 0, pieces := 0,
    contPieces := 0, haloNodes := 0, shortDraws := 0, specIssued := 0, specConfirmed := 0,
    specDiscarded := 0, topoHits := 0, topoMisses := 0, curMb := 0, curPiece := 0, job := none,
    spec := none, toPost := [], budgets := (8192, 8192), topo := [], fills := [] }

/-- A way of a Cloche set (R180). -/
structure ClocheWay where
  way : Nat
  table : Nat
  row : Nat
  epoch : Nat
  count : Nat
  prot : Bool
  record : List Byte
  deriving DecidableEq, Repr

/-- Where a row of a Rake command lies when it is issued: in this device's HBM, or at the device that serves it. -/
inductive RowSource where
  | localRow (addr : Nat)
  | remote (device : Nat)
  deriving DecidableEq, Repr

/-- One row on its way to a Rake command (R187, R189): the row, the list positions that take it, whether
the Cloche takes it and with which epoch (R181), and the tag of its request once it has gone to another device. -/
structure RowItem where
  row : Nat
  positions : List Nat
  fill : Bool
  epoch : Nat
  tag : Option Nat
  deriving DecidableEq, Repr

/-- How a staged row stands at confirmation (R193): not checked, its VERSION asked of another device under a tag, found
unchanged, or found changed and to be read again. -/
inductive StagedStatus where
  | unchecked
  | asked (tag : Nat)
  | current
  | stale
  | reading (tag : Nat)
  deriving DecidableEq, Repr

/-- A row of a staged gather with the VERSION it was read with (R192, R193); the record lies in the staging area. `counts`: its read by
another device's back end was speculative, and is counted there as its VERSION is asked (R210). -/
structure StagedRow where
  pos : Nat
  row : Nat
  version : Nat
  status : StagedStatus
  counts : Bool
  deriving DecidableEq, Repr

/-- The bag that a POOL command accumulates (R188): the next list position, its first and its end, and the partials by
16 × owner device + stack; and the reply to a request for a member owned elsewhere. -/
structure Bag where
  pos : Nat
  start : Nat
  stop : Nat
  parts : Tab (List U32)
  tag : Option Nat
  reply : Option (List Byte)
  deriving DecidableEq, Repr

/-- A Rake command under way (R187 to R193): its started descriptor, the next list position or bag, the rows on their
way, the distinct rows it last read with the partial they belong to and their records (R189), what it has staged, in which 4 KiB
blocks of the staging area, and whether it is confirmed meanwhile (R163); of its work before that, how many reads were forwarded, how
many rows were coalesced, and the slots and addresses of the rows read here (R210, R214); and the fault that ends it once its issued
rows are done (R190). -/
structure RakeJob where
  run : Running
  next : Nat
  bag : Option Bag
  items : List RowItem
  recent : List (Nat × Nat × Option (List Byte))
  staged : List StagedRow
  blocks : List Nat
  confirmed : Bool
  forwarded : Nat
  coalesced : Nat
  reads : List (Nat × Nat)
  fault : Option (Nat × Nat × Nat)
  deriving DecidableEq, Repr

/-- A speculative gather that is staged, or was counted in SPEC_NOFIT (R192): its 4 KiB blocks of the staging area, and how many
of its reads were forwarded, how many rows coalesced, and what was read here, while it was not confirmed. -/
structure StagedGather where
  run : Running
  bytes : Nat
  blocks : List Nat
  fits : Bool
  confirmed : Bool
  forwarded : Nat
  coalesced : Nat
  reads : List (Nat × Nat)
  rows : List StagedRow
  deriving DecidableEq, Repr

/-- A record on its way into the Cloche, with the COMMIT_EPOCH of its issue (R181). -/
structure ClocheFill where
  table : Nat
  row : Nat
  epoch : Nat
  record : List Byte
  deriving DecidableEq, Repr

/-- The Rake front end and the Cloche (R179 to R194, R214). -/
structure Rake where
  rowsGathered : Word
  bagsPooled : Word
  rowsCoalesced : Word
  clocheHits : Word
  clocheMisses : Word
  staleRefills : Word
  specStaged : Word
  specNofit : Word
  specRefetched : Word
  forwarded : Word
  cloche : Tab (List ClocheWay)
  accesses : Nat
  nextTag : Nat
  jobs : List RakeJob
  staged : List StagedGather
  fills : List ClocheFill
  deriving DecidableEq, Repr

def Rake.reset : Rake :=
  { rowsGathered := 0, bagsPooled := 0, rowsCoalesced := 0, clocheHits := 0, clocheMisses := 0,
    staleRefills := 0, specStaged := 0, specNofit := 0, specRefetched := 0, forwarded := 0,
    cloche := [], accesses := 0, nextTag := 0, jobs := [], staged := [], fills := [] }

/-- A partial of the Sprinkler front end (R199, R203, R207): its key, its FP32 elements and where it is held. -/
inductive PartialPlace where
  | buffer | spilled | hot
  deriving DecidableEq, Repr

structure FrontPartial where
  table : Nat
  row : Nat
  mb : Nat
  place : PartialPlace
  elems : List U32
  deriving DecidableEq, Repr

/-- A SCATTER under way (R199, R202): the next list position, the bag it lies in with its bounds, and the positions that
its list holds so far. -/
structure ScatterJob where
  run : Running
  pos : Nat
  bag : Nat
  start : Nat
  stop : Nat
  deriving DecidableEq, Repr

/-- The Sprinkler front end (R195 to R208, R215). `parts` is ordered most recently used first;
`taken` gives, per micro-batch, the lowest position not yet taken (R199); `recent` the positions of the
last 1,024 per stream with their indices, newest first (R207); `windowPos` and `streamPos` count the positions of the
open window and of the stream (R202); `sending` the partials sent to other devices and not acknowledged, by device and
PSN (R197). -/
structure Sprinkler where
  free : Bool
  contributions : Word
  partialsSent : Word
  spills : Word
  hotDiverts : Word
  clamped : Word
  parts : List FrontPartial
  taken : Tab Nat
  recent : List (Nat × Nat × Nat)
  windowPos : Nat
  streamPos : Nat
  sending : List (Nat × Nat)
  job : Option ScatterJob
  deriving DecidableEq, Repr

def Sprinkler.reset : Sprinkler :=
  { free := false, contributions := 0, partialsSent := 0, spills := 0, hotDiverts := 0, clamped := 0,
    parts := [], taken := [], recent := [], windowPos := 0, streamPos := 0, sending := [], job := none }

/-- A cluster (R11 level table) without its cores. Partition sizes in KiB (R28). `sent` lists the
scopes for which this Season's arrival has been sent (R109). -/
structure Cluster where
  osc : Osc
  seq : Sequencer
  season : Nat
  seasonLimit : Nat
  stampHead : Nat
  stamps : Tab Stamp
  latePosts : BitVec 16
  aheadPosts : BitVec 16
  droppedPosts : BitVec 16
  tokens : Tab Token
  launch : Tab LaunchEntry
  sent : List Scope
  arriveTick : Option Word
  heldFlag : Bool
  summaries : List Summary
  queues : Tab Queue
  harrow : Harrow
  rake : Rake
  sprinkler : Sprinkler
  stalls : Vector Stall 4
  scratchKib : Nat
  clocheKib : Nat
  topoKib : Nat
  stalledRaised : Bool
  advanceRtc : Word
  resetting : Bool
  active : Bool
  deriving DecidableEq, Repr

def Cluster.reset : Cluster :=
  { osc := .reset, seq := .reset, season := 0, seasonLimit := 0, stampHead := 0, stamps := [],
    latePosts := 0, aheadPosts := 0, droppedPosts := 0, tokens := [], launch := [], sent := [],
    arriveTick := none, heldFlag := false, summaries := [], queues := [], harrow := .reset,
    rake := .reset, sprinkler := .reset, stalls := Vector.replicate 4 .zero, scratchKib := 24576,
    clocheKib := 0, topoKib := 0, stalledRaised := false, advanceRtc := 0, resetting := false,
    active := false }

/-- Stationary modes (R312). -/
inductive StatMode where
  | output | weight | input
  deriving DecidableEq, Repr

/-- How far a pass has come (R308, R310). -/
inductive PassPhase where
  | ready | firing
  deriving DecidableEq, Repr

/-- A finished tile on its way to the queue (R367): header words and row-major elements as bit patterns. -/
structure Tile where
  h0 : Word
  h1 : Word
  elems : List U32
  deriving DecidableEq, Repr

/-- A pass of a matrix command (R308 to R315): the block of D it covers, its firing periods, whether it
is skipped (R330, R359), whether it has been held under R310, the results once it fires, and the tiles it owes (R328). -/
structure Pass where
  row0 : Nat
  rows : Nat
  col0 : Nat
  cols : Nat
  periods : Nat
  skipped : Bool
  held : Bool
  phase : PassPhase
  writes : List (Nat × List Byte)
  tiles : List Tile
  deriving DecidableEq, Repr

/-- A matrix command under way: its started descriptor, the mode taken (R314), its metadata as read once (R356) and its
passes not yet drained, in the order of R315. -/
structure MatrixJob where
  run : Running
  mode : StatMode
  meta_ : List Byte
  passes : List Pass
  deriving DecidableEq, Repr

/-- How an array stands with ballast (R77 to R82): wound down, ready to fill, filling, or on the ramp. -/
inductive BallastState where
  | woundDown
  | busy
  | ballast
  | ramp (quarter : Fin 4)
  deriving DecidableEq, Repr

/-- The matrix engine (R306 to R340, R362) and its array's ballast (R77 to R83). `idle`: the array is in an idle interval, at
whose start `gapNs` and `rampNs` were taken. -/
structure Matrix where
  mode : StatMode
  firings : Word
  ballastFirings : Word
  passes : Word
  skipped : Word
  hazardHolds : Word
  usefulMacs : Word
  capacityMacs : Word
  sparsePasses : Word
  expandedPasses : Word
  blocksFired : Word
  metaBytes : Word
  sparseFaults : Word
  jobs : List MatrixJob
  ballast : BallastState
  idle : Bool
  gapNs : Nat
  rampNs : Nat
  deriving DecidableEq, Repr

def Matrix.reset : Matrix :=
  { mode := .output, firings := 0, ballastFirings := 0, passes := 0, skipped := 0, hazardHolds := 0,
    usefulMacs := 0, capacityMacs := 0, sparsePasses := 0, expandedPasses := 0, blocksFired := 0,
    metaBytes := 0, sparseFaults := 0, jobs := [], ballast := .woundDown, idle := true, gapNs := 2000, rampNs := 4000 }

/-- A panel of the transposing buffer (R317): 128 rows of one operand from `row0` on, positions `k0` on along K, as stored. -/
structure Panel where
  row0 : Nat
  k0 : Nat
  data : List Byte
  deriving DecidableEq, Repr

/-- The transposing buffer (R317 to R319, R340): panels 0 and 1 are A's, 2 and 3 are B's; `rows` is the row buffer of a CONV, the
input rows that it holds by number (R336), and `rowbuf` says that a CONV holds it. `nextPanel` says which panel of A's pair and of
B's is refilled next. -/
structure TransBuf where
  panels : Vector (Option Panel) 4
  nextPanel : Nat × Nat
  rows : List (Nat × List Byte)
  rowbuf : Bool
  elemsConverted : Word
  elemsLimited : Word
  nanBlocks : Word
  bytesRead : Word
  deriving DecidableEq, Repr

def TransBuf.reset : TransBuf :=
  { panels := Vector.replicate 4 none, nextPanel := (0, 0), rows := [], rowbuf := false, elemsConverted := 0, elemsLimited := 0, nanBlocks := 0, bytesRead := 0 }

/-- The buffer without operand data. -/
def TransBuf.empty (t : TransBuf) : TransBuf := { t with panels := Vector.replicate 4 none, nextPanel := (0, 0), rows := [], rowbuf := false }

/-- A tile in the finished-tile queue: its header, held beside its slot, and the slot that holds its data (R365, R367). -/
structure SlotTile where
  h0 : Word
  h1 : Word
  slot : Nat
  deriving DecidableEq, Repr

/-- A CHAIN with FTQ set between two of its tiles (R371, R377): its stage words as read once (R380), and the chain's
results by position with the limited flag. -/
structure VecJob where
  stages : List Word
  out : Tab (U32 × Bool)
  deriving DecidableEq, Repr

/-- The vector engine and its finished-tile queue (R363 to R390, R397). -/
structure Vec where
  ftqSlots : Nat
  ftq : List SlotTile
  elements : Word
  tilesConsumed : Word
  tilesDropped : Word
  summaries : Word
  nonfinite : Word
  limited : Word
  tilesLost : Word
  job : Option VecJob
  deriving DecidableEq, Repr

def Vec.reset : Vec :=
  { ftqSlots := 0, ftq := [], elements := 0, tilesConsumed := 0, tilesDropped := 0, summaries := 0,
    nonfinite := 0, limited := 0, tilesLost := 0, job := none }

/-- The row engine (R391 to R398). -/
structure RowEngine where
  rowsDone : Word
  elements : Word
  emptyRows : Word
  summaries : Word
  nonfinite : Word
  deriving DecidableEq, Repr

def RowEngine.reset : RowEngine :=
  { rowsDone := 0, elements := 0, emptyRows := 0, summaries := 0, nonfinite := 0 }

/-- The transfer engine (R250 to R255, R276). -/
structure Transfer where
  readsOut : Nat
  bytesRead : Word
  bytesWritten : Word
  deriving DecidableEq, Repr

def Transfer.reset : Transfer := { readsOut := 0, bytesRead := 0, bytesWritten := 0 }

/-- An entry in flight in the thread unit (R260 to R268): its thread, its number, the bank of each slot it
claimed (`none` for storage that counts against no cap), its remote and local addresses, and the data of an ISTORE. -/
structure Entry where
  thread : Nat
  index : Nat
  slots : List (Option Nat)
  remote : Nat
  near : Nat
  data : List Byte
  deriving DecidableEq, Repr

/-- A thread-unit descriptor under way: its started descriptor, the next entry of each thread, the entries in flight, the
threads whose next entry has been counted in CAP_HOLDS, and whether it has faulted (R258). -/
structure ThreadJob where
  run : Running
  next : List Nat
  inFlight : List Entry
  counted : List Nat
  failed : Bool
  deriving DecidableEq, Repr

/-- The thread unit (R256 to R268, R275). -/
structure ThreadUnit where
  job : Option ThreadJob
  orphans : List Entry
  turn : Nat
  heldCap : BitVec 16
  cap : Nat
  entries : Word
  capHolds : Word
  slotPeak : Nat
  deriving DecidableEq, Repr

def ThreadUnit.reset : ThreadUnit :=
  { job := none, orphans := [], turn := 0, heldCap := 0, cap := 16, entries := 0, capHolds := 0, slotPeak := 0 }

/-- A core's six engines (R11) with their stall blocks by engine code. -/
structure Core where
  mtx : Matrix
  tbuf : TransBuf
  vec : Vec
  row : RowEngine
  xfer : Transfer
  thr : ThreadUnit
  stalls : Vector Stall 6
  deriving DecidableEq, Repr

def Core.reset : Core :=
  { mtx := .reset, tbuf := .reset, vec := .reset, row := .reset, xfer := .reset, thr := .reset,
    stalls := Vector.replicate 6 .zero }

/-- A grant (R225, R232): what was asked for, how many access units have been moved, and RESOURCE_WATCHDOG_US as the grant was
given. -/
structure Grant where
  ask : Ask
  moved : Nat
  limitUs : Nat
  deriving DecidableEq, Repr

/-- A lottery arbiter (R225 to R230): its LFSR, RR, the grant under way, and the requests that wait, in the order in which they came
(R224: one queue per requester). -/
structure Arbiter where
  lfsr : BitVec 16
  rr : Nat
  grant : Option Grant
  queue : List Ask
  deriving DecidableEq, Repr

/-- STACK_STATUS.STATE (R246), but for FENCED, which follows the fence list. -/
inductive StackState where
  | off | training | ready
  deriving DecidableEq, Repr

/-- A retired-page entry (R241): `history` is POISON as restored from the flash, `flashed` the POISON that went to the flash with
the entry. -/
structure Retired where
  addr : Nat
  cause : Nat
  rtc : Word
  history : Bool
  flashed : Option Bool
  deriving DecidableEq, Repr

/-- A row of a Sprinkler log (R201, R202, R205): keyed partials by (source device, micro-batch), or the
FREE accumulator. -/
structure LogRow where
  table : Nat
  row : Nat
  parts : List (Nat × Nat × List U32)
  acc : Option (List U32)
  deriving DecidableEq, Repr

/-- A row of the Sprinkler shadow log (R206, R410): the new record, and the row's Gsum for a rerun. -/
structure ShadowRow where
  table : Nat
  row : Nat
  addr : Nat
  record : Option (List Byte)
  gsum : List U32
  deriving DecidableEq, Repr

/-- A stack with its base die (R217 to R248). `errors` holds, unit by unit, the bytes of the 72 stored that differ from what was
written, with their differences (R236); `scrubbed` the units scrubbed in the period that began at `scrubSince` (R238);
`bedKey` the memory key drawn as the bed came on (R244),
`toRetire` the granules, with causes, that reads of engines since the last crystal cycle may retire in the next one (R239). -/
structure Stack where
  state : StackState
  fencedReq : Byte
  lfsrSeed : BitVec 16
  ceCount : Word
  ueCount : Word
  wdBites : Word
  rowSlots : Word
  jobKey : Bool
  tickets : Tab Word
  grants : Vector Word 8
  retired : List Retired
  arbs : Tab Arbiter
  ceEvents : List (Nat × Nat)
  toRetire : List (Nat × Nat)
  poisoned : List Nat
  errors : Tab (Tab Byte)
  scrubbed : List Nat
  scrubSince : Word
  bedKey : BitVec 512
  log : List LogRow
  shadow : List ShadowRow
  loads : Tab (U32 × U32)
  deriving DecidableEq, Repr

def Stack.reset : Stack :=
  { state := .off, fencedReq := 0, lfsrSeed := 0xACE1, ceCount := 0, ueCount := 0, wdBites := 0,
    rowSlots := 0, jobKey := false, tickets := [], grants := Vector.replicate 8 0, retired := [],
    arbs := [], ceEvents := [], toRetire := [], poisoned := [], errors := [],
    scrubbed := [], scrubSince := 0, bedKey := 0, log := [], shadow := [], loads := [] }

/-- UPD_STATUS.STATE and DECISION (R430). -/
inductive UpdState where
  | idle | updating | updated | rerun | committing | committed
  deriving DecidableEq, Repr

inductive StepDecision where
  | none | take | clip | skip
  deriving DecidableEq, Repr

/-- One item of an update unit's work (R406 to R411). -/
inductive UpdWork where
  | row (group : Nat) (i : Nat)
  | record (group : Nat) (p : Nat)
  | embed (group : Nat) (table : Nat) (row : Nat) (stack : Nat)
  deriving DecidableEq, Repr

/-- The UPDATE that a unit works on (R421): its cluster, its started descriptor, and which events it has raised (R409, R423). -/
structure UpdJob where
  cluster : Nat
  run : Running
  skewNamed : Bool
  nonfiniteNamed : Bool
  deriving DecidableEq, Repr

/-- A step's COMMIT (R418): the cluster that posted it, its started descriptor, VOTE and CLIP_NORM, the RTC of its start;
whether it is decided, whether its update-nonfinite event is raised, whether its reruns are done, whether the device's column
sums are sent, those to come by
group with how many elements, whether its writes are done, and whether the advance waits for it (R421). -/
structure CommitJob where
  cluster : Nat
  run : Running
  vote : Word
  clipNorm : U32
  season : Nat
  rtc : Word
  decided : Bool
  named : Bool
  settled : Bool
  colsSent : Bool
  cols : List (Nat × Nat)
  finished : Bool
  advWait : Bool
  deriving DecidableEq, Repr

/-- A STEP_LOG entry (R430). -/
structure StepLog where
  t : U32
  decision : StepDecision
  skew : Bool
  norm : U32
  c : U32
  rtcStart : Word
  rtcAdvance : Word
  deriving DecidableEq, Repr

/-- Counter increments that R430 applies at the advance. -/
structure UpdPending where
  committedRecords : Nat
  committedRows : Nat
  stepSkewRecords : Nat
  nonfinite : Nat
  invalid : Nat
  clamped : Nat
  deriving DecidableEq, Repr

def UpdPending.zero : UpdPending :=
  { committedRecords := 0, committedRows := 0, stepSkewRecords := 0, nonfinite := 0, invalid := 0, clamped := 0 }

/-- An update unit (R399 to R431). `sumSq` is the exact vote accumulator of R415 in units of 2^-298; `header` says that
`stepT` has come; `arrived` lists the chunks in the landing area by group, first element and count (R408); `groups` the
groups that the step's UPDATEs have named with their MB_COUNT and LR, `season` the Season of those UPDATEs; `gsums` the
summed partials of rows by table and row; `shadow` the bytes of the step's shadow halves, shadow VROW and VCOL and COLPART by
address, which only the units see until the step is taken (R124, R125, R420). -/
structure UpdateUnit where
  state : UpdState
  decision : StepDecision
  epoch : Bool
  stepNumber : U32
  stepT : U32
  header : Bool
  voteSum : U32
  gradNonfinite : Bool
  logFault : Bool
  updateFault : Bool
  norm : U32
  c : U32
  lossScaleCur : U32
  stepsTaken : Word
  stepsClipped : Word
  stepsSkipped : Word
  committedRecords : Word
  committedRows : Word
  stepSkewRecords : Word
  nonfinite : Word
  invalid : Word
  shadowWritten : Word
  shadowDiscarded : Word
  shadowRowsDiscarded : Word
  colReady : List Nat
  stepLog : Tab StepLog
  stepLogHead : Nat
  sumSq : Nat
  arrived : List (Nat × Nat × Nat)
  groups : Tab (Nat × U32)
  season : Option Nat
  work : List UpdWork
  gsums : List (Nat × Nat × List U32)
  job : Option UpdJob
  commit : Option CommitJob
  skewRaised : Bool
  pend : UpdPending
  shadowNow : List Nat
  shadow : Tab Byte
  growth : Nat
  deriving DecidableEq, Repr

def UpdateUnit.reset : UpdateUnit :=
  { state := .idle, decision := .none, epoch := false, stepNumber := 0, stepT := 0, header := false, voteSum := 0,
    gradNonfinite := false, logFault := false, updateFault := false, norm := 0, c := 0, lossScaleCur := 0x3F800000,
    stepsTaken := 0, stepsClipped := 0, stepsSkipped := 0, committedRecords := 0, committedRows := 0,
    stepSkewRecords := 0, nonfinite := 0, invalid := 0, shadowWritten := 0, shadowDiscarded := 0,
    shadowRowsDiscarded := 0, colReady := [], stepLog := [], stepLogHead := 0, sumSq := 0, arrived := [], groups := [],
    season := none, work := [], gsums := [], job := none, commit := none, skewRaised := false, pend := .zero,
    shadowNow := [], shadow := [], growth := 0 }

/-- A compute die (R11): the regulator's output and thermal value (R47, R598), the Trellis arbiters
(R231), the update unit. -/
structure Die where
  vcore : Nat
  thermal : Nat
  trellisSeed : BitVec 16
  trellisTickets : Tab Word
  trellisArbs : Tab Arbiter
  upd : UpdateUnit
  deriving DecidableEq, Repr

def Die.reset : Die :=
  { vcore := 0, thermal := 800, trellisSeed := 0xACE1, trellisTickets := [], trellisArbs := [],
    upd := .reset }

/-- PORT_STATUS.STATE (R462). TRAINING covers steps 1 to 4 of R442. -/
inductive PortState where
  | off | training | keying | up | down | miswired
  deriving DecidableEq, Repr

/-- Where bring-up stands (R442): waiting for light and PMA training, for FEC lock, for HELLO. -/
inductive PortStep where
  | pma | fec | hello | none
  deriving DecidableEq, Repr

/-- The link-key exchange of a port (R539, R540): the peer's certificate, the encapsulation key with the draw that made it,
the ciphertext and the shared secret. -/
structure Keyex where
  cert : Option (List Byte)
  ek : Option (List Byte)
  draw : Nat
  ct : Option (List Byte)
  secret : Option (BitVec 256)
  deriving DecidableEq, Repr

/-- A packet waiting to leave by a port (R440, R453, R459): the role of the port and the class with which it came, its
class on this hop, where its cells are charged (16 × link die + channel), whether it crossed the compute dies on its way through,
and whether it was re-routed. -/
structure TxEntry where
  packet : Packet
  inRole : Option Nat
  inCls : Bool
  cls : Bool
  charged : Option Nat
  crossed : Bool
  rerouted : Bool
  deriving DecidableEq, Repr

/-- A flit kept for replay (R445): its SEQ, its packet and its number within the packet. -/
structure TxFlit where
  seq : Nat
  entry : TxEntry
  idx : Nat
  deriving DecidableEq, Repr

/-- A fabric port (R432 to R448, R462). -/
structure Port where
  state : PortState
  step : PortStep
  lanesUp : Byte
  lanesGood : Byte
  width : Nat
  role : Nat
  peerDev : Nat
  peerPort : Nat
  peerDigest : BitVec 512
  flitsTx : Word
  flitsRx : Word
  replays : Word
  tagFails : Word
  fecCorrected : Word
  fecUncorrected : Word
  widthChanges : Word
  txCount : Word
  egressSeed : BitVec 16
  egressTickets : Word
  egressTickets8 : Byte
  arbs : Tab Arbiter
  nextSeq : Nat
  expectSeq : Nat
  replay : List TxFlit
  credits : Tab Nat
  owed : Tab Nat
  retryRx : Option Nat
  retryTx : Option Nat
  failures : Nat
  failuresTx : Nat
  rxParts : Tab (List Byte)
  txQueue : List TxEntry
  keys : Option (BitVec 256 × BitVec 256)
  salts : U32 × U32
  keyex : Keyex
  wasUp : Bool
  narrow : Bool
  keepKeys : Bool
  inUse : Bool
  fab : Nat × Nat × Nat × Nat
  deriving DecidableEq, Repr

def Keyex.none : Keyex := { cert := .none, ek := .none, draw := 0, ct := .none, secret := .none }

def Port.reset : Port :=
  { state := .off, step := .none, lanesUp := 0, lanesGood := 0, width := 0, role := 15, peerDev := 0,
    peerPort := 0, peerDigest := 0, flitsTx := 0, flitsRx := 0, replays := 0, tagFails := 0,
    fecCorrected := 0, fecUncorrected := 0, widthChanges := 0, txCount := 0, egressSeed := 0xACE1,
    egressTickets := 0x1010101010101010, egressTickets8 := 0x10, arbs := [], nextSeq := 0,
    expectSeq := 0, replay := [], credits := [], owed := [], retryRx := .none, retryTx := .none, failures := 0, failuresTx := 0,
    rxParts := [],
    txQueue := [], keys := .none, salts := (0, 0), keyex := .none, wasUp := false, narrow := false, keepKeys := false,
    inUse := true, fab := (0, 0, 0, 0) }

/-- A transport flow as sender and as receiver (R451 to R453). -/
structure TxFlow where
  dst : Nat
  fvc : Nat
  nextPsn : Nat
  unacked : List Packet
  deriving DecidableEq, Repr

/-- `held` lists packets ahead of their PSN, with the link die and channel whose cells they take (R453). -/
structure RxFlow where
  src : Nat
  fvc : Nat
  expect : Nat
  sinceAck : Nat
  held : List (Packet × Nat × Nat)
  deriving DecidableEq, Repr

/-- A packet of this device that its pool keeps until it is acknowledged (R452): its flow, its PSN and its channel. -/
structure KeptPacket where
  dst : Nat
  fvc : Nat
  psn : Nat
  channel : Nat
  deriving DecidableEq, Repr

/-- A packet buffer pool (R459, R460, R463). -/
structure Pool where
  used : Vector Nat 9
  peak : Vector Nat 9
  reserve : Vector Nat 9
  cap : Vector Nat 9
  e2eRetransmits : Word
  duplicates : Word
  reseqHeld : Word
  reseqDropped : Word
  crossings : Word
  unreachable : Word
  egressSeed : BitVec 16
  egressTickets : Word
  egressTickets8 : Byte
  egressArbs : Tab Arbiter
  kept : List KeptPacket
  deriving DecidableEq, Repr

def Pool.reset : Pool :=
  { used := Vector.replicate 9 0, peak := Vector.replicate 9 0,
    reserve := (Vector.replicate 9 8192).set 8 32768, cap := Vector.replicate 9 49152,
    e2eRetransmits := 0, duplicates := 0, reseqHeld := 0, reseqDropped := 0, crossings := 0,
    unreachable := 0, egressSeed := 0xACE1, egressTickets := 0x1010101010101010,
    egressTickets8 := 0x10, egressArbs := [], kept := [] }

/-- A queue pair (R471 to R477): its configuration, its error state, PSNs, slots filled, the slot that is filled next, the
priority of its last frame, and a message under way with the bytes of a word that its WRITE has begun. -/
structure QueuePair where
  cfg : QpConfig
  error : Bool
  expectPsn : Nat
  prio : Nat
  filled : U32
  slot : Nat
  consumed : U32
  sendBuf : List Byte
  sendOpen : Bool
  writeAt : Option (Nat × Nat)
  writeTail : List Byte
  cnpRtc : Option Word
  deriving DecidableEq, Repr

/-- A RoCEv2 request accepted and not yet served, with the cells that it takes in the pool (R459, R471). -/
structure RoceWait where
  qpn : Nat
  psn : Nat
  req : RoceReq
  cells : Nat
  deriving DecidableEq, Repr

/-- A MACsec sub-port (R469, R537, R538): keys per association, the transmit association, the association
still received after a rekey, the highest packet number received, the next one to send. -/
structure SubPort where
  link : Bool
  keys : Tab (BitVec 256 × BitVec 96)
  txAn : Nat
  newAn : Option Nat
  oldAn : Option Nat
  installedRtc : Word
  rxPn : Tab Nat
  txPn : Tab Nat
  paused : Tab Nat
  keyed : Bool
  mac : BitVec 48
  deriving DecidableEq, Repr

def SubPort.reset : SubPort :=
  { link := false, keys := [], txAn := 0, newAn := none, oldAn := none, installedRtc := 0, rxPn := [],
    txPn := [], paused := [], keyed := false, mac := 0 }

/-- A host port (R465 to R477, R492). -/
structure HostPort where
  breakout : Nat
  ingestPrio : Nat
  subs : Vector SubPort 4
  framesRx : Word
  framesTx : Word
  fcsErrors : Word
  pfcTx : Word
  pfcRx : Word
  macsecDrops : Word
  prioDrops : Word
  accessNaks : Word
  rnrNaks : Word
  qps : Tab QueuePair
  regions : Tab Region
  accepted : List RoceWait
  pausing : Bool
  ingestPausing : Bool
  unclocked : Bool
  laneMapped : Bool
  deriving DecidableEq, Repr

def HostPort.reset : HostPort :=
  { breakout := 0, ingestPrio := 3, subs := Vector.replicate 4 .reset, framesRx := 0, framesTx := 0,
    fcsErrors := 0, pfcTx := 0, pfcRx := 0, macsecDrops := 0, prioDrops := 0, accessNaks := 0,
    rnrNaks := 0, qps := [], regions := [], accepted := [], pausing := false,
    ingestPausing := false, unclocked := false, laneMapped := false }

/-- A shard notice (R478) with its queue pair's region, and the byte offset of a field that is not zero as it must be. -/
structure Notice where
  seq : Nat
  codec : Nat
  endEpoch : Bool
  offset : Nat
  length : Nat
  records : Nat
  region : Nat
  bad : Option Nat
  deriving DecidableEq, Repr

/-- An ingest engine (R478 to R493). -/
structure Ingest where
  cfg : Option IngestConfig
  early : List Notice
  ready : List Notice
  noticeBytes : List (Nat × List Byte)
  nextSeq : U32
  epoch : U32
  lastFault : U32
  outConsumed : Word
  outProduced : Word
  shardsDone : Word
  shardsFaulted : Word
  bytesIn : Word
  bytesDecoded : Word
  recordsAdmitted : Word
  recordsEmitted : Word
  decoded : List (Notice × List (List Byte))
  slots : List (List Byte)
  draws : Nat
  emitQ : List (List Byte × Bool)
  sinceToken : Nat
  deriving DecidableEq, Repr

def Ingest.reset : Ingest :=
  { cfg := none, early := [], ready := [], noticeBytes := [], nextSeq := 0, epoch := 0,
    lastFault := 0xFFFFFFFF, outConsumed := 0, outProduced := 0, shardsDone := 0, shardsFaulted := 0,
    bytesIn := 0, bytesDecoded := 0, recordsAdmitted := 0, recordsEmitted := 0, decoded := [],
    slots := [], draws := 0, emitQ := [], sinceToken := 0 }

/-- What a bed is doing; the STATE of R581 follows from it, the target, the parent and the holds. -/
inductive BedPhase where
  | off | starting | on | stopping
  deriving DecidableEq, Repr

/-- A power bed (R579 to R589). `target` is the target in force; `barred` a FAB or HOST bed that failed
power-good and waits for a new request (R586). -/
structure Bed where
  phase : BedPhase
  target : Bool
  transitions : Nat
  barred : Bool
  deriving DecidableEq, Repr

def Bed.reset : Bed := { phase := .off, target := false, transitions := 0, barred := false }

/-- Why AON holds the device off (R594 to R597). -/
inductive ShutCause where
  | underV | overV | reversal | thermal
  deriving DecidableEq, Repr

/-- The always-on domain (R590 to R597, R605, R606) and the power manager's values (R598, R599). `rotRetry`: `some true`
after a first power-good failure of the ROT bed, `some false` after a second (R586); `powerSteps`: the power-up order has
come to step 4 (R600); `rampRtc` is when the last ramp to on began (R587); `overMs` counts the measurements over the limit at 600 mV; `tj` is the hottest junction reading (R515). -/
structure Aon where
  powered : Bool
  rtc : Word
  xtalOk : Bool
  stbyOk : Bool
  vinOk : Bool
  wakeSeen : Bool
  shut : Bool
  shutCause : Option ShutCause
  reversed : Bool
  underV : Bool
  overV : Bool
  standbyLow : Bool
  therm : Byte
  onVin : Bool
  resetKind : Nat
  resetCause : Nat
  vinMv : Nat
  stbyMv : Nat
  rotRetry : Option Bool
  rampRtc : Option Word
  packageMv : Nat
  arrayLimit : Nat
  overMs : Nat
  pinW : U32
  tj : U32
  wallBase : Word
  rotFaultLow : Bool
  sideband : List (Sideband × SidebandState)
  refclkMissing : Bool × Bool
  powerSteps : Bool
  deriving DecidableEq, Repr

def Aon.reset : Aon :=
  { powered := false, rtc := 0, xtalOk := false, stbyOk := false, vinOk := false, wakeSeen := false,
    shut := false, shutCause := none, reversed := false, underV := false, overV := false,
    standbyLow := false, therm := 0, onVin := false, resetKind := 0, resetCause := 0, vinMv := 0,
    stbyMv := 0, rotRetry := none, rampRtc := none, packageMv := 800, arrayLimit := 100, overMs := 0,
    pinW := 0, tj := 0, wallBase := 0,
    rotFaultLow := false, sideband := [], refclkMissing := (false, false), powerSteps := false }

/-- An event raised and not yet recorded (R552 to R555). -/
structure Event where
  unit : BitVec 16
  code : BitVec 16
  season : Nat
  arg0 : Word
  arg1 : Word
  arg2 : Word
  deriving DecidableEq, Repr

/-- An event record in the ring (R552). -/
structure Record where
  time : Nat
  code : BitVec 16
  season : U32
  arg0 : Word
  arg1 : BitVec 48
  arg2 : U32
  unit : BitVec 16
  deriving DecidableEq, Repr

/-- A fence (R568 to R572); `flashed` once a persistent one is on the flash. -/
structure FenceEntry where
  unit : BitVec 16
  cause : BitVec 16
  persistent : Bool
  by_ : BitVec 16
  flashed : Bool
  deriving DecidableEq, Repr

/-- Health: events, fences, capacity (R552 to R578). `ring` says of each record whether one BLOCK_READ has returned it whole
(R515); `capCause` is the first change since the last publication (R575);
`fenceBusy` lists the fences between step 1 and step 5 of R570. -/
structure Health where
  raised : List Event
  ring : Tab (Record × Bool)
  head : Nat
  lost : Nat
  suppressed : Word
  lastTime : List (BitVec 16 × BitVec 16 × Word)
  latch : List Event
  log : List Record
  fences : List FenceEntry
  capacity : Vector Word 8
  capVersion : U32
  published : Bool
  capCause : Option (BitVec 16 × BitVec 16)
  replaceReasons : Byte
  edgeRetries : List (Nat × Word)
  recovery : List RecoveryKind
  recoverySince : Word
  recoveryRaised : Bool
  fenceBusy : List (BitVec 16)
  deriving DecidableEq, Repr

/-- CAPACITY before the first publication (R574): every live bit, ports not in use at reset. -/
def Health.reset : Health :=
  { raised := [], ring := [], head := 0, lost := 0, suppressed := 0, lastTime := [],
    latch := [], log := [], fences := [],
    capacity := #v[0x0000000000014350, 0, 0x0047FFFFFFFFFFFF, 0x0000000003000FFF,
      0xFFFFFFFFFFFFFFFF, 0, 0, 0],
    capVersion := 0, published := false, capCause := none, replaceReasons := 0,
    edgeRetries := [], recovery := [], recoverySince := 0, recoveryRaised := false, fenceBusy := [] }

/-- The host sub-port and the priority by which a message came in band (R497). -/
structure InBand where
  host : Fin 2
  sub : Fin 4
  prio : Nat
  deriving DecidableEq, Repr

/-- A Breop request admitted by the agent (R498, R501): where it came from, the address and port that it was sent to, its fields, the
bytes that a tag covers and the tag, and whether its format is wrong. -/
structure BreopReq where
  src : Source
  dest : Source
  via : Option InBand
  op : Nat
  auth : Bool
  reqId : Nat
  session : Nat
  seq : Nat
  payload : List Byte
  covered : List Byte
  tag : List Byte
  badFormat : Bool
  deriving DecidableEq, Repr

/-- A message that the agent sent (R496, R497, R500, R510), with its tag where it carries AUTH (R511): to whom, from which address and
port, and by which sub-port where it goes in band. -/
structure BreopResp where
  dst : Source
  sender : Source
  via : Option InBand
  op : Nat
  status : Nat
  reqId : Nat
  session : Nat
  seq : Nat
  auth : Bool
  payload : List Byte
  tag : List Byte
  deriving DecidableEq, Repr

/-- A response kept for repetition (R502). -/
structure Kept where
  resp : BreopResp
  rtc : Word
  deriving DecidableEq, Repr

/-- A subscription (R509, R510): its owner, the session that it was opened in, the value of its object when that was looked at last,
and whether it has changed since its last NOTIFY. -/
structure Subscription where
  id : Nat
  src : Source
  dest : Source
  via : Option InBand
  index : Nat
  sub : Nat
  intervalMs : Nat
  session : Option Nat
  renewedRtc : Word
  lease : Nat
  sentRtc : Option Word
  count : Nat
  lastValue : List Byte
  changed : Bool
  deriving DecidableEq, Repr

/-- An open session (R511, R512, R536): `lastSeq` is the highest SEQ that was accepted in it, if any was. -/
structure Session where
  id : Nat
  key : BitVec 256
  saltTx : U32
  saltRx : U32
  lastSeq : Option Nat
  usedRtc : Word
  deriving DecidableEq, Repr

/-- Block staging of an object (R508). -/
structure Staging where
  index : Nat
  sub : Nat
  src : Source
  session : Nat
  bytes : List Byte
  lastRtc : Word
  deriving DecidableEq, Repr

/-- The Breop agent and the management port (R495 to R517). -/
structure Agent where
  requests : List BreopReq
  kept : List Kept
  subs : List Subscription
  sessions : List Session
  staging : List Staging
  nextSub : Nat
  nextSession : Nat
  admitted : Word
  dropped : Word
  mgmtLink : PhyLink
  addrInForce : Nat
  lastStatus : Nat
  counterSnap : List Byte
  results : List (Source × List Byte)
  macsecResults : List (Source × List Byte)
  challenges : List (Source × BitVec 256 × Word)
  deriving DecidableEq, Repr

def Agent.reset : Agent :=
  { requests := [], kept := [], subs := [], sessions := [], staging := [], nextSub := 0,
    nextSession := 1, admitted := 0, dropped := 0, mgmtLink := .down, addrInForce := 0, lastStatus := 0,
    counterSnap := [], results := [], macsecResults := [], challenges := [] }

/-- The objects' held values (R503 to R505): numbers and byte strings by index * 256 + subindex, the RWS
values on flash, and those written and not yet durable. -/
structure Objects where
  nums : Tab Nat
  blobs : Tab (List Byte)
  flashNums : Tab Nat
  flashBlobs : Tab (List Byte)
  deriving DecidableEq, Repr

/-- The root of trust (R518 to R551): `identityKey` is the private identity key while it is unwrapped (R522, R525). -/
structure Rot where
  stage : Nat
  slot : Bool
  recovery : Bool
  bootResult : Nat
  fwSlots : Option FwImage × Option FwImage
  minSvn : Nat
  fwStatus : Nat
  fwStaged : Option FwImage
  mr : Vector (BitVec 512) 16
  halted : Bool
  kemDraw : Option Nat
  identityKey : Option (List Byte)
  quoteNonce : Option (List Byte)
  quote : List Byte
  debugState : Nat
  deriving DecidableEq, Repr

/-- A shipped part has a firmware image in slot A, which is per part (log entry 4); no firmware is in slot B until one is written. -/
def Rot.reset : Rot :=
  { stage := 0, slot := false, recovery := false, bootResult := 0,
    fwSlots := (some Config.shippedImage, none),
    minSvn := 0, fwStatus := 0, fwStaged := none, mr := Vector.replicate 16 0,
    halted := false, kemDraw := none, identityKey := none, quoteNonce := none, quote := [], debugState := 0 }

/-- JOB_STATE (R516). -/
inductive JobState where
  | none | verifying | running | ending | rejected
  deriving DecidableEq, Repr

/-- The job (R543 to R547): state, the manifest under verification or in force, the keys, the tables and groups, the Season
that the device has entered (R209, R212), and the last commit Season that it has ended (R184, R429). -/
structure Job where
  state : JobState
  manifest : Option Manifest
  digest : BitVec 512
  secret : Option (BitVec 256)
  pepper : BitVec 128
  memKey : Option (BitVec 512)
  tables : Tab TableDesc
  groups : Tab GroupDesc
  devSeason : Nat
  commitSeason : Option Nat
  deriving DecidableEq, Repr

def Job.reset : Job :=
  { state := .none, manifest := none, digest := 0, secret := none, pepper := 0, memKey := none,
    tables := [], groups := [], devSeason := 0, commitSeason := none }

/-- A token post on its way (R84, R87): where from, where to, which token, which Season tag; `any` marks
a post that takes the receiver's Season (R490). `stream` numbers the sender of the posts that keep their order (R122): 1 the cluster's
sequencer, 2 + a micro-batch the pieces of a SAMPLE, 2^17 + a link die its ingest engine; 0 a completing descriptor, whose post keeps
no order to others. -/
structure Post where
  source : Option Nat
  cluster : Fin 32
  token : Nat
  tag : Nat
  any : Bool
  stream : Nat
  deriving DecidableEq, Repr

/-- Who sent a barrier arrival: a cluster, a die's control, or another device. -/
inductive ArrivalFrom where
  | cluster (g : Nat) | die (d : Nat) | device (n : Nat)
  deriving DecidableEq, Repr

/-- A barrier arrival on its way or held at an aggregator (R108 to R110). -/
structure Arrival where
  scope : Scope
  season : Nat
  sender : ArrivalFrom
  sum : U32
  orBits : U32
  deriving DecidableEq, Repr

/-- An aggregated release on its way (R110). -/
structure Release where
  scope : Scope
  season : Nat
  die : Option Nat
  payload : Word
  deriving DecidableEq, Repr

/-- A partial on its way to its owner's back end (R197, R201). -/
structure PartialMsg where
  cluster : Option Nat
  source : Nat
  table : Nat
  row : Nat
  mb : Nat
  step : Nat
  elems : List U32
  free : Bool
  deriving DecidableEq, Repr

/-- A reduction value waiting in the staging region (R457, R458). -/
structure ChunkPart where
  group : Nat
  first : Nat
  root : Nat
  kind : Nat
  sender : Nat
  step : Nat
  elems : List U32
  deriving DecidableEq, Repr

/-- A Transplant copy still to be made (R212); `lost`: a record came back, so that the new owner does not record it. -/
structure MoveJob where
  table : Nat
  shard : Nat
  oldSlot : Nat
  newDevice : Nat
  newSlot : Nat
  rows : Nat
  nextRow : Nat
  season : Nat
  lost : Bool
  deriving DecidableEq, Repr

/-- A shard that moves to this device (R212): its slot here and how many of its rows have arrived; `State.early` holds those whose
rows came before this device entered the Season. -/
structure Incoming where
  table : Nat
  shard : Nat
  slot : Nat
  arrived : Nat
  deriving DecidableEq, Repr

/-- A row request that this device has passed to a shard's new owner (R212): the tag under which, and the requester with the
request's keys. -/
structure Relay where
  tag : Nat
  requester : Nat
  key0 : Nat
  key1 : Nat
  deriving DecidableEq, Repr

/-- What the device sends out of a port of its own; `secured` is what leaves a host port under MACsec, with its association and IV
(R469). -/
inductive Sent where
  | pfc (host : Nat) (sub : Nat) (prio : Nat) (time : Nat)
  | roceAck (host : Nat) (qpn : Nat) (psn : Nat)
  | roceNak (host : Nat) (qpn : Nat) (psn : Nat) (syndrome : Nat)
  | roceCnp (host : Nat) (qpn : Nat)
  | roceRead (host : Nat) (qpn : Nat) (psn : Nat) (data : List Byte)
  | breop (m : BreopResp)
  | secured (an : Nat) (iv : List Byte) (m : Sent)
  | mgmtReply (m : MgmtFrame)
  | flit (port : Nat) (header : Word) (payload : List Byte) (tag : List Byte)
  | nakFlit (port : Nat) (seq : Nat) (header : Word) (tag : List Byte)
  | keyupdate (port : Nat) (header : Word) (tag : List Byte)
  | keyex (port : Nat) (payload : List Byte) (header : Word)
  | hello (port dev role shape : Nat) (digest : BitVec 512) (header : Word)
  deriving DecidableEq, Repr

/-- A message of a host port that waits: its sub-port, its priority and its frames (R58, R468). -/
structure HeldFrame where
  host : Fin 2
  sub : Nat
  prio : Nat
  msg : Sent
  frames : Nat
  deriving DecidableEq, Repr

/-- The access unit that a base die served last (R17, R20, R22, R237): who asked, the way of the request, the virtual channels of
request and response, and the data that went back. -/
structure Access where
  unit : Nat
  requester : Nat
  write : Bool
  legs : List Leg
  vc : Fin 4
  replyVc : Fin 4
  data : List Byte
  deriving DecidableEq, Repr

/-- The T9. -/
structure State where
  mem : Memory
  aon : Aon
  beds : Vector Bed 62
  dies : Vector Die 4
  clusters : Vector Cluster 32
  cores : Vector Core 256
  hbm : Vector Stack 12
  ports : Vector Port 16
  pools : Vector Pool 2
  hosts : Vector HostPort 2
  ingests : Vector Ingest 2
  fifos : Tab Fifo
  txFlows : List TxFlow
  rxFlows : List RxFlow
  delivered : List Packet
  posts : List Post
  arrivals : List Arrival
  held : List Arrival
  releases : List Release
  partials : List PartialMsg
  chunks : List ChunkPart
  moves : List MoveJob
  incoming : List Incoming
  early : List Incoming
  relays : List Relay
  nextRelay : Nat
  health : Health
  agent : Agent
  objs : Objects
  rot : Rot
  job : Job
  sent : List Sent
  heldHost : List HeldFrame
  heldMgmt : List Sent
  gone : List Nat
  lastArb : Option (ArbId × Nat)
  lastAccess : Option Access
  phases : List Byte
  phaseDue : Option (Nat × Nat × Nat)
  fabInForce : Nat × Nat × Nat × Nat
  free : Nat
  pending : List Instr
  deriving DecidableEq, Repr

/-- The machine right after power-on reset (R9, R604 POWER_ON column), before AON powers up: every switched
bed off, AON's bed on, no job, nothing pending. -/
def State.reset : State :=
  { mem := { cells := [], zeroed := [], eras := [], keys := [], first := [], under := [] },
    aon := .reset,
    beds := (Vector.replicate 62 .reset).set 0 { phase := .on, target := true, transitions := 0, barred := false },
    dies := Vector.replicate 4 .reset,
    clusters := Vector.replicate 32 .reset,
    cores := Vector.replicate 256 .reset,
    hbm := Vector.replicate 12 .reset,
    ports := Vector.replicate 16 .reset,
    pools := Vector.replicate 2 .reset,
    hosts := Vector.replicate 2 .reset,
    ingests := Vector.replicate 2 .reset,
    fifos := [],
    txFlows := [], rxFlows := [], delivered := [], posts := [], arrivals := [], held := [],
    releases := [], partials := [], chunks := [], moves := [], incoming := [], early := [], relays := [], nextRelay := 0,
    health := .reset, agent := .reset,
    objs := { nums := [], blobs := [], flashNums := [], flashBlobs := [] },
    rot := .reset, job := .reset, sent := [], heldHost := [], heldMgmt := [], gone := [], lastArb := none, lastAccess := none, phases := [], phaseDue := none,
    fabInForce := (0, 0, 0, 0), free := 0, pending := [] }

end Sys2Proof.Machine
end

