-- ==== Sys2Proof/Machine/Ops.lean ====
section
/-! DEFINITION. Ops.lean: the named operations over the state that every family uses: changing one unit, reading and
writing memory, units and their identifiers, raising events, free values, the access rules R31 to R35. -/

namespace Sys2Proof.Machine

/-- What a meaning answers. -/
abbrev Out := Host.Outcome State Fault Refusal

/-! ### One unit of the state -/

def State.modCluster (s : State) (g : Fin 32) (f : Cluster → Cluster) : State :=
  { s with clusters := s.clusters.set g (f s.clusters[g]) }

def State.modCore (s : State) (n : Fin 256) (f : Core → Core) : State :=
  { s with cores := s.cores.set n (f s.cores[n]) }

def State.modDie (s : State) (d : Fin 4) (f : Die → Die) : State :=
  { s with dies := s.dies.set d (f s.dies[d]) }

def State.modStack (s : State) (k : Fin 12) (f : Stack → Stack) : State :=
  { s with hbm := s.hbm.set k (f s.hbm[k]) }

def State.modPort (s : State) (p : Fin 16) (f : Port → Port) : State :=
  { s with ports := s.ports.set p (f s.ports[p]) }

def State.modPool (s : State) (l : Fin 2) (f : Pool → Pool) : State :=
  { s with pools := s.pools.set l (f s.pools[l]) }

def State.modHost (s : State) (h : Fin 2) (f : HostPort → HostPort) : State :=
  { s with hosts := s.hosts.set h (f s.hosts[h]) }

def State.modIngest (s : State) (i : Fin 2) (f : Ingest → Ingest) : State :=
  { s with ingests := s.ingests.set i (f s.ingests[i]) }

def State.modBed (s : State) (b : Fin 62) (f : Bed → Bed) : State :=
  { s with beds := s.beds.set b (f s.beds[b]) }

def State.modUpd (s : State) (d : Fin 4) (f : UpdateUnit → UpdateUnit) : State :=
  s.modDie d (fun x => { x with upd := f x.upd })

def State.modSeq (s : State) (g : Fin 32) (f : Sequencer → Sequencer) : State :=
  s.modCluster g (fun c => { c with seq := f c.seq })

def State.modOsc (s : State) (g : Fin 32) (f : Osc → Osc) : State :=
  s.modCluster g (fun c => { c with osc := f c.osc })

def State.modHarrow (s : State) (g : Fin 32) (f : Harrow → Harrow) : State :=
  s.modCluster g (fun c => { c with harrow := f c.harrow })

def State.modRake (s : State) (g : Fin 32) (f : Rake → Rake) : State :=
  s.modCluster g (fun c => { c with rake := f c.rake })

def State.modSprinkler (s : State) (g : Fin 32) (f : Sprinkler → Sprinkler) : State :=
  s.modCluster g (fun c => { c with sprinkler := f c.sprinkler })

def State.modMatrix (s : State) (n : Fin 256) (f : Matrix → Matrix) : State :=
  s.modCore n (fun c => { c with mtx := f c.mtx })

def State.modTbuf (s : State) (n : Fin 256) (f : TransBuf → TransBuf) : State :=
  s.modCore n (fun c => { c with tbuf := f c.tbuf })

def State.modVec (s : State) (n : Fin 256) (f : Vec → Vec) : State :=
  s.modCore n (fun c => { c with vec := f c.vec })

def State.modRow (s : State) (n : Fin 256) (f : RowEngine → RowEngine) : State :=
  s.modCore n (fun c => { c with row := f c.row })

def State.modXfer (s : State) (n : Fin 256) (f : Transfer → Transfer) : State :=
  s.modCore n (fun c => { c with xfer := f c.xfer })

def State.modThr (s : State) (n : Fin 256) (f : ThreadUnit → ThreadUnit) : State :=
  s.modCore n (fun c => { c with thr := f c.thr })

def State.modHealth (s : State) (f : Health → Health) : State := { s with health := f s.health }
def State.modAon (s : State) (f : Aon → Aon) : State := { s with aon := f s.aon }
def State.modAgent (s : State) (f : Agent → Agent) : State := { s with agent := f s.agent }
def State.modRot (s : State) (f : Rot → Rot) : State := { s with rot := f s.rot }
def State.modJob (s : State) (f : Job → Job) : State := { s with job := f s.job }
def State.modObjs (s : State) (f : Objects → Objects) : State := { s with objs := f s.objs }
def State.setMem (s : State) (m : Memory) : State := { s with mem := m }

/-- A fresh open value (log entry 3), and the state that has used it. -/
def State.freshWord (s : State) : Word × State := (Config.freeWord s.free, { s with free := s.free.succ })

/-- Fresh entropy (R521, log entry 6). -/
def State.freshEntropy (s : State) : BitVec 512 × State := (Config.entropy s.free, { s with free := s.free.succ })

def fin2 (n : Nat) : Fin 2 := Fin.ofNat 2 n
def fin4 (n : Nat) : Fin 4 := Fin.ofNat 4 n
def fin8 (n : Nat) : Fin 8 := Fin.ofNat 8 n
def fin12 (n : Nat) : Fin 12 := Fin.ofNat 12 n
def fin16 (n : Nat) : Fin 16 := Fin.ofNat 16 n
def fin32 (n : Nat) : Fin 32 := Fin.ofNat 32 n
def fin62 (n : Nat) : Fin 62 := Fin.ofNat 62 n
def fin256 (n : Nat) : Fin 256 := Fin.ofNat 256 n

/-- Saturating increments of counters. -/
def inc64 (w : Word) (n : Nat) : Word := BitVec.ofNat 64 (satAt (2 ^ 64 - 1) (w.toNat + n))
def inc16 (w : BitVec 16) : BitVec 16 := BitVec.ofNat 16 (satAt 65535 (w.toNat + 1))
def wrap64 (w : Word) (n : Nat) : Word := w + BitVec.ofNat 64 n

/-! ### Units, beds and fences -/

/-- The die of a global cluster, the cluster of a global core, the die of a stack (R38). -/
def dieOfCluster (g : Fin 32) : Fin 4 := fin4 (g.val / 8)
def clusterOfCore (n : Fin 256) : Fin 32 := fin32 (n.val / 8)
def dieOfStack (k : Fin 12) : Fin 4 := fin4 (k.val / 3)

/-- Unit identifiers (R39, R40). -/
def uidEngine (n e : Nat) : BitVec 16 := BitVec.ofNat 16 (n * 64 + e)
def uidCluster (g u : Nat) : BitVec 16 := BitVec.ofNat 16 (0x4000 + g / 8 * 0x800 + g % 8 * 0x100 + u)
def uidDie (d u : Nat) : BitVec 16 := BitVec.ofNat 16 (0x8000 + d * 0x800 + u)
def uidLink (l u : Nat) : BitVec 16 := BitVec.ofNat 16 (0xC000 + l * 0x2000 + u)
def uidStack (k : Nat) : BitVec 16 := uidDie (k / 3) (5 + k % 3)
def uidPort (p : Nat) : BitVec 16 := uidLink (p / 8) (p % 8)
def uidRot : BitVec 16 := uidLink 0 0x20
def uidAon : BitVec 16 := uidLink 0 0x21
def uidAgent : BitVec 16 := uidLink 0 0x23

/-- Bed numbers (R579). -/
def bedRot : Fin 62 := 1
def bedHost (h : Nat) : Fin 62 := fin62 (2 + h)
def bedDie (d : Nat) : Fin 62 := fin62 (4 + d)
def bedStack (k : Nat) : Fin 62 := fin62 (8 + k)
def bedCluster (g : Nat) : Fin 62 := fin62 (20 + g)
def bedPort (p : Nat) : Fin 62 := fin62 (52 + p / 2)
def bedIngest (i : Nat) : Fin 62 := fin62 (60 + i)

/-- A bed in the on state. -/
def State.bedOn (s : State) (b : Fin 62) : Bool := decide (s.beds[b].phase = .on)

def State.clusterOn (s : State) (g : Fin 32) : Bool := s.bedOn (bedCluster g)

/-- The edges in the order of R574 as fenceable identifiers (R626). -/
def edgeUid (e : Nat) : BitVec 16 :=
  match e with
  | 0 => uidDie 0 1
  | 1 => uidDie 2 1
  | 2 => uidDie 0 2
  | 3 => uidDie 1 2
  | 4 => uidDie 0 3
  | 5 => uidDie 1 3
  | 6 => uidDie 2 3
  | _ => uidDie 3 3

/-- A unit on the fence list (R570 step 1 onward). -/
def Health.listed (h : Health) (u : BitVec 16) : Bool := h.fences.any (fun f => f.unit = u)

/-- The dies that are not cut off (R18, log entry 47). -/
def Health.reached (h : Health) : List Nat := reachedDies (fun e => h.listed (edgeUid e))

/-- The die of a fenceable unit, link dies as 4 and 5; `none` for an edge. -/
def uidDieOf (u : BitVec 16) : Option Nat :=
  let n := u.toNat
  if n / 0x4000 = 3 then some (4 + n / 0x2000 % 2)
  else if n / 0x4000 = 2 ∧ n % 16 ∈ [1, 2, 3] then none
  else some (n / 0x800 % 8)

/-- A unit that is fenced, or that fenced edges leave without a path (R18). -/
def State.fenced (s : State) (u : BitVec 16) : Bool :=
  s.health.listed u || (!s.health.fences.isEmpty && (uidDieOf u).any (fun d => !s.health.reached.contains d))

def State.clusterFenced (s : State) (g : Fin 32) : Bool := s.fenced (uidCluster g 0)
def State.stackFenced (s : State) (k : Fin 12) : Bool := s.fenced (uidStack k)
def State.dieFenced (s : State) (d : Fin 4) : Bool := s.fenced (uidDie d 8)

/-- A die whose update unit works: its bed is on and neither is fenced (R421). -/
def State.updLive (s : State) (d : Fin 4) : Bool := s.bedOn (bedDie d.val) && !s.dieFenced d && !s.fenced (uidDie d.val 4)

/-- A cluster that takes work: bed on, not fenced, not in a CLUSTER reset (R603). -/
def State.clusterLive (s : State) (g : Fin 32) : Bool :=
  s.clusterOn g && !s.clusterFenced g && !s.clusters[g].resetting

/-- A cluster that accepts descriptors: live, and its trim has ended (R51). -/
def State.clusterAccepts (s : State) (g : Fin 32) : Bool :=
  s.clusterLive g && s.clusters[g].osc.trimmed

/-- Clusters whose Season counts for SEASON_MIN and SEASON_MAX (R516): on, not fenced, and named by the job. -/
def State.liveClusters (s : State) : List (Fin 32) :=
  (List.finRange 32).filter (fun g => s.clusterOn g && !s.clusterFenced g && s.clusters[g].active)

/-- A job is running: accepted and not ended. -/
def State.jobRuns (s : State) : Bool := decide (s.job.state = .running)

def State.seasonMin (s : State) : Nat :=
  match s.liveClusters with
  | [] => 0
  | g :: t => t.foldl (fun m h => min m s.clusters[h].season) s.clusters[g].season

def State.seasonMax (s : State) : Nat :=
  s.liveClusters.foldl (fun m h => max m s.clusters[h].season) 0

/-! ### Events -/

/-- Raises an event. While the ROT bed is not on, AON latches classes 0x0B and 0x0D, up to 16 (R557), and keeps the
events of its own; events of every other unit are lost (R556). -/
def State.raiseEvent (s : State) (e : Event) : State :=
  if s.bedOn bedRot then s.modHealth (fun h => { h with raised := h.raised ++ [e] })
  else if e.code.toNat / 256 = 0x0B ∨ e.code.toNat / 256 = 0x0D then
    s.modHealth (fun h =>
      if h.latch.length < 16 then { h with latch := h.latch ++ [e] }
      else { h with suppressed := inc64 h.suppressed 1 })
  else s

/-- Raises an event with the arguments as numbers (R554 cuts them when the record is written). -/
def State.raise (s : State) (unit : BitVec 16) (code season a0 a1 a2 : Nat) : State :=
  let season := if s.jobRuns then season else 0
  s.raiseEvent
    { unit := unit, code := BitVec.ofNat 16 code, season := season, arg0 := BitVec.ofNat 64 a0,
      arg1 := BitVec.ofNat 64 a1, arg2 := BitVec.ofNat 64 a2 }

/-- An event of a unit of a cluster, in the cluster's current Season (R553). -/
def State.raiseC (s : State) (g : Fin 32) (unit : BitVec 16) (code a0 a1 a2 : Nat) : State :=
  s.raise unit code s.clusters[g].season a0 a1 a2

/-- An event of any other unit, with SEASON_MIN (R553). -/
def State.raiseD (s : State) (unit : BitVec 16) (code a0 a1 a2 : Nat) : State :=
  s.raise unit code s.seasonMin a0 a1 a2

/-! ### Objects -/

/-- The value an RW or RWS object holds: the one last written, or its default (R505). -/
def State.objNum (s : State) (i sub : Nat) : Nat :=
  match tabFind s.objs.nums (objKey i sub) with
  | some v => v
  | none => objDefault i sub

def State.objBytes (s : State) (i sub : Nat) : List Byte := tabGet s.objs.blobs [] (objKey i sub)

def State.setObjNum (s : State) (i sub v : Nat) : State :=
  s.modObjs (fun o => { o with nums := tabSet o.nums (objKey i sub) v })

def State.setObjBytes (s : State) (i sub : Nat) (b : List Byte) : State :=
  s.modObjs (fun o => { o with blobs := tabSet o.blobs (objKey i sub) b })

/-! ### The interleave (R221) -/

def hbmEnd : Nat := 0xC000000000

structure HbmPlace where
  stack : Fin 12
  pc : Nat
  bank : Nat
  row : Nat
  column : Nat
  deriving DecidableEq, Repr

def hbmPlace (a : Nat) : HbmPlace :=
  let g := a / 4096
  let i := g % 3
  let q := g / 3
  let d := (q % 4) ^^^ (q / 256 % 4)
  let pc := (q / 4 % 64) ^^^ (q / 1024 % 64)
  let p := q / 256 * 4096 + a % 4096
  { stack := fin12 (3 * d + i), pc := pc, bank := (p / 1024 % 64) ^^^ (p / 65536 % 64),
    row := p / 65536, column := p % 1024 }

def stackOf (a : Nat) : Fin 12 := (hbmPlace a).stack

/-- The granules that a range touches, by number. -/
def granules (a n : Nat) : List Nat :=
  if n = 0 then [] else (List.range ((a + n - 1) / 4096 + 1 - a / 4096)).map (fun k => a / 4096 + k)

/-! ### Windows (R24 to R30) -/

def clusterBase (g : Nat) : Nat := 0x10000000000 + g * 0x2000000
def coreBase (n : Nat) : Nat := 0x11000000000 + n * 0x400000
def unitBase : Nat := 0x12000000000
def linkBase : Nat := 0x13000000000
def dieBase (d : Nat) : Nat := unitBase + d * 0x10000000
def coreEngineBase (n e : Nat) : Nat :=
  dieBase (n / 64) + n / 8 % 8 * 0x1000000 + n % 8 * 0x100000 + e * 0x10000
def clusterUnitBase (g u : Nat) : Nat := dieBase (g / 8) + g % 8 * 0x1000000 + 0x800000 + u * 0x80000
def dieUnitBase (d u : Nat) : Nat := dieBase d + 0x8000000 + u * 0x100000
def linkUnitBase (l u : Nat) : Nat := linkBase + l * 0x10000000 + u * 0x100000

/-- The unit that a register address belongs to, and the offset in its block (R30, R40). -/
inductive RegUnit where
  | engine (n : Fin 256) (e : Fin 6)
  | cluster (g : Fin 32) (u : Fin 9)
  | die (d : Fin 4) (u : Fin 9)
  | link (l : Fin 2) (u : Nat)
  deriving DecidableEq, Repr

/-- Link-die unit codes that exist on a link die (R40). -/
def linkUnitOk (l u : Nat) : Bool :=
  decide (u < 8 ∨ (0x10 ≤ u ∧ u ≤ 0x14) ∨ (l = 0 ∧ 0x20 ≤ u ∧ u ≤ 0x23))

/-- The unit in whose register block an address lies, and the offset there (R30, R32). An address of the two windows in the block of no
unit counts as reserved (DESIGN CHOICE: R32 says so only of the codes 0x20 to 0x23 of link die B; log entry 51). -/
def regUnitOf (a : Nat) : Option (RegUnit × Nat) :=
  if unitBase ≤ a ∧ a < unitBase + 0x40000000 then
    let o := a - unitBase
    let d := o / 0x10000000
    let x := o % 0x10000000
    if x < 0x8000000 then
      let g := 8 * d + x / 0x1000000
      let y := x % 0x1000000
      if y < 0x800000 then
        let e := y % 0x100000 / 0x10000
        if h : e < 6 then some (.engine (fin256 (8 * g + y / 0x100000)) ⟨e, h⟩, y % 0x10000) else none
      else
        let u := (y - 0x800000) / 0x80000
        if h : u < 9 then some (.cluster (fin32 g) ⟨u, h⟩, (y - 0x800000) % 0x80000) else none
    else
      let u := (x - 0x8000000) / 0x100000
      if h : u < 9 then some (.die (fin4 d) ⟨u, h⟩, x % 0x100000) else none
  else if linkBase ≤ a ∧ a < linkBase + 0x20000000 then
    let o := a - linkBase
    let l := o / 0x10000000
    let u := o % 0x10000000 / 0x100000
    if linkUnitOk l u then some (.link (fin2 l) u, o % 0x100000) else none
  else none

/-- The bed that supplies a register block's unit (R41). -/
def regBed : RegUnit → Fin 62
  | .engine n _ => bedCluster (n.val / 8)
  | .cluster g u => if u.val = 8 then bedDie (g.val / 8) else bedCluster g.val
  | .die d u => if 5 ≤ u.val ∧ u.val ≤ 7 then bedStack (3 * d.val + (u.val - 5)) else bedDie d.val
  | .link l u =>
    if u < 8 then bedPort (8 * l.val + u)
    else if u = 0x11 then bedIngest l.val
    else if u = 0x21 then 0
    else if 0x20 ≤ u then bedRot
    else bedHost l.val

/-- The unit whose fence covers a register block (R569): its cluster, stack, edge, die, update unit, host port or
ingest engine. Any other link-die unit counts as fenced only while its die is cut off (R18). -/
def regFenceUnit : RegUnit → Option (BitVec 16)
  | .engine n _ => some (uidCluster (n.val / 8) 0)
  | .cluster g u => if u.val = 8 then some (uidDie (g.val / 8) 8) else some (uidCluster g.val 0)
  | .die d u =>
    if u.val = 1 then some (uidDie (d.val / 2 * 2) 1)
    else if u.val = 2 then some (uidDie (d.val % 2) 2)
    else if u.val = 0 ∨ u.val = 8 then some (uidDie d.val 8)
    else some (uidDie d.val u.val)
  | .link l u => some (uidLink l.val u)

/-! ### Failures of a descriptor, command or access (R90, R560) -/

/-- A failure before DCTX is known: class:code and the first two arguments. -/
structure Fail where
  code : Nat
  arg0 : Nat
  arg1 : Nat
  deriving DecidableEq, Repr

def failAddress (a reason : Nat) : Fail := { code := 0x0201, arg0 := a, arg1 := reason }
def failBed (a bed : Nat) : Fail := { code := 0x0202, arg0 := a, arg1 := bed }
def failFormat (item offset : Nat) : Fail := { code := 0x0101, arg0 := item, arg1 := offset }
def failUncorr (a : Nat) : Fail := { code := 0x0203, arg0 := a, arg1 := (stackOf a).val }

/-- Who makes an access: any unit, a copy as a requester of R224 (R31), the tiles of a finished-tile queue, the owner of a closed
region, a requester, or the owner of a region as a requester; and, of any of them, the die that it comes from (R18). -/
inductive Who where
  | any | copy (r : Nat) | ftq | owner (o : RegionOwner) | req (r : Nat) | ownReq (o : RegionOwner) (r : Nat)
  | onDie (d : Nat) (w : Who)
  deriving DecidableEq, Repr

/-- Accesses of a cluster and of a core, from their die. -/
def Who.ofCluster (g : Fin 32) (w : Who) : Who := .onDie (g.val / 8) w
def Who.ofCore (n : Fin 256) (w : Who) : Who := .onDie (n.val / 64) w

/-- The owner whose region is open to an access (R178). -/
def Who.owns : Who → Option RegionOwner
  | .owner o => some o
  | .ownReq o _ => some o
  | .onDie _ w => w.owns
  | _ => none

/-- The requester that can be fenced at a stack (R234). -/
def Who.requester : Who → Option Nat
  | .req r => some r
  | .copy r => some r
  | .ownReq _ r => some r
  | .onDie _ w => w.requester
  | _ => none

def Who.isCopy : Who → Bool
  | .copy _ => true
  | .onDie _ w => w.isCopy
  | _ => false

def Who.isFtq : Who → Bool
  | .ftq => true
  | .onDie _ w => w.isFtq
  | _ => false

/-- The die that an access comes from, where it comes over Trellis; link dies as 4 and 5. -/
def Who.die : Who → Option Nat
  | .onDie d _ => some d
  | _ => none

/-- No way is left from the die of an access to another die (R18). -/
def Health.parted (h : Health) (who : Who) (d : Nat) : Bool :=
  !h.fences.isEmpty && who.die.any (fun a => (edgeRoute (fun e => h.listed (edgeUid e)) a d).isNone)

/-- No way is left from the die of an access to that of a register block. -/
def Health.partedReg (h : Health) (who : Who) (u : RegUnit) : Bool :=
  match u with
  | .engine n _ => h.parted who (n.val / 64)
  | .cluster g _ => h.parted who (g.val / 8)
  | .die d _ => h.parted who d.val
  | .link l _ => h.parted who (4 + l.val)

/-- The areas of an ingest engine: staging halves, shuffle buffer and output ring (R486). -/
def ingestAreas (i : Fin 2) (c : IngestConfig) : List ClosedRegion :=
  [{ owner := .ingest i.val, start := c.stageAddr, length := 2 * c.stageBytes },
   { owner := .ingest i.val, start := c.shuffleAddr, length := c.shuffleBytes },
   { owner := .ingest i.val, start := c.outAddr, length := 2 ^ c.outLog2 }]

/-- The closed HBM regions that a manifest places (R178, R486). -/
def closedOf (m : Manifest) : List ClosedRegion := m.regions ++ m.ingest.flatMap (fun x => ingestAreas x.1 x.2)

/-- The manifest in force: one that has been accepted (R28, R546). -/
def Job.inForce (j : Job) : Option Manifest := if j.state = .verifying then none else j.manifest

/-- The closed HBM regions of the manifest in force (R178). -/
def State.closedRegions (s : State) : List ClosedRegion := (s.job.inForce.map closedOf).getD []

/-- What a manifest says of a cluster; where it says nothing, the whole of its memory is explicit scratch (R28). -/
def clusterConfigOf (m : Manifest) (g : Fin 32) : ClusterConfig :=
  (m.clusters.find? (fun c => decide (c.cluster = g))).getD
    { cluster := g, scratchKib := 24576, clocheKib := 0, topoKib := 0, imem := [], launch := [] }

/-- The slots that a manifest gives a core's finished-tile queue (R365). -/
def ftqSlotsOf (m : Manifest) (n : Fin 256) : Nat :=
  ((m.ftqSlots.find? (fun x => decide (x.1 = n))).map (·.2)).getD 0

/-- The first address of a range in a closed region of another owner. -/
def State.closedHit (s : State) (who : Who) (a n : Nat) : Option Nat :=
  ((s.closedRegions.filter (fun r => decide (who.owns ≠ some r.owner) && decide (0 < r.length) &&
    decide (r.start < a + n) && decide (a < r.start + r.length))).map (fun r => max a r.start)).min?

/-- A requester that is fenced at a stack (R234, R235). -/
def State.reqFenced (s : State) (who : Who) (k : Fin 12) : Bool :=
  who.requester.any (bitOf s.hbm[k].fencedReq.toNat)

/-- What stands in the way of a granule: its stack or its requester fenced (R37, R234), no way to it (R18), its bed off or its
training not done (R34, R219). -/
def State.granuleFail (s : State) (who : Who) (a n gr : Nat) : Option Fail :=
  let k := stackOf (gr * 4096)
  let first := max a (gr * 4096)
  if n = 0 then none
  else if s.stackFenced k || s.reqFenced who k || s.health.parted who (k.val / 3) then some (failAddress first 2)
  else if !s.bedOn (bedStack k) || decide (s.hbm[k].state ≠ .ready) then some (failBed first (8 + k.val))
  else none

/-- What stands in the way of a stack as a whole. -/
def State.stackFail (s : State) (who : Who) (k : Fin 12) : Option Fail :=
  if s.stackFenced k || s.reqFenced who k || s.health.parted who (k.val / 3) then some (failAddress 0 2)
  else if !s.bedOn (bedStack k) || decide (s.hbm[k].state ≠ .ready) then some (failBed 0 (8 + k.val))
  else none

def firstSome {α β : Type} (f : α → Option β) : List α → Option β
  | [] => none
  | x :: t => match f x with
    | some y => some y
    | none => firstSome f t

/-- A live cluster's memories: fence or no way, then bed. -/
def State.clusterFail (s : State) (who : Who) (g : Fin 32) (a : Nat) : Option Fail :=
  if s.clusterFenced g || s.health.parted who (g.val / 8) then some (failAddress a 2)
  else if !s.clusterOn g then some (failBed a (20 + g.val))
  else none

/-- The HBM part of a range: of what stands in the way, the first address (R33). -/
def State.hbmFail (s : State) (who : Who) (a n : Nat) : Option Fail :=
  let f := firstSome (s.granuleFail who a n) (granules a (min n (hbmEnd - a)))
  match s.closedHit who a n, f with
  | some x, some f => if f.arg0 < x then some f else some (failAddress x 1)
  | some x, none => some (failAddress x 1)
  | none, some f => some f
  | none, none => if hbmEnd < a + n then some (failAddress hbmEnd 0) else none

/-- The access rules R24 to R35 and R37 for a range: `none` where the access is performed. Where the window of a cluster or
core is off, its bed is named before a reserved or closed address of the same window (DESIGN CHOICE, log entry 15). -/
def State.accessFail (s : State) (who : Who) (a n : Nat) : Option Fail :=
  if n = 0 then none
  else if 2 ^ 48 ≤ a then some (failAddress a 4)
  else if a < hbmEnd then s.hbmFail who a n
  else if 0x10000000000 ≤ a ∧ a < 0x10040000000 then
    let g := fin32 ((a - 0x10000000000) / 0x2000000)
    let base := clusterBase g
    let lim := base + s.clusters[g].scratchKib * 1024
    match s.clusterFail who g a with
    | some f => some f
    | none =>
      if lim < a + n then
        let first := max a lim
        some (failAddress first (if first < base + 0x1800000 then 1 else 0))
      else none
  else if 0x11000000000 ≤ a ∧ a < 0x11040000000 then
    let n' := fin256 ((a - 0x11000000000) / 0x400000)
    let base := coreBase n'
    let lo := base + 0x280000 - s.cores[n'].vec.ftqSlots * 0x10000
    match s.clusterFail who (clusterOfCore n') a with
    | some f => some f
    | none =>
      if !who.isFtq ∧ s.cores[n'].vec.ftqSlots ≠ 0 ∧ a < base + 0x280000 ∧ lo < a + n then some (failAddress (max a lo) 1)
      else if base + 0x290000 < a + n then some (failAddress (max a (base + 0x290000)) 0)
      else none
  else if (unitBase ≤ a ∧ a < unitBase + 0x40000000) ∨ (linkBase ≤ a ∧ a < linkBase + 0x20000000) then
    if who.isCopy ∨ ¬ (n = 4 ∨ n = 8) ∨ a % n ≠ 0 then some (failAddress a 3)
    else match regUnitOf a with
      | none => some (failAddress a 0)
      | some (u, _) =>
        if (regFenceUnit u).any s.fenced || s.health.partedReg who u then some (failAddress a 2)
        else if !s.bedOn (regBed u) then some (failBed a (regBed u).val)
        else none
  else some (failAddress a 0)

/-! ### Memory (R25, log entry 3) -/

/-- The region of an address for loss and zeroing: stack s as s, a cluster's memories as 12 + g. -/
def regionOf (a : Nat) : Nat :=
  if a < hbmEnd then (stackOf a).val
  else if a < 0x11000000000 then 12 + (a - 0x10000000000) / 0x2000000
  else 12 + (a - 0x11000000000) / 0x2000000

/-- What an unlisted byte reads as: zero in a zeroed region, otherwise a free value. -/
def Memory.unlisted (m : Memory) (a : Nat) : Byte :=
  if m.zeroed.contains (regionOf a) then 0 else Config.freeByte (tabGet m.eras 0 (regionOf a)) a

/-- A byte as it was written. -/
def Memory.plain (m : Memory) (a : Nat) : Byte :=
  match tabFind m.cells a with
  | some b => b
  | none => m.unlisted a

/-- The memory key in force in a stack (R244). -/
def Memory.keyNow (m : Memory) (k : Fin 12) : BitVec 512 := tabGet m.keys 0 k.val

/-- The key under which an access unit was initialised, and under which it was last written. -/
def Memory.keyFirst (m : Memory) (unit : Nat) : BitVec 512 := tabGet m.first 0 (stackOf (unit * 64)).val
def Memory.keyOf (m : Memory) (unit : Nat) : BitVec 512 := tabGet m.under (m.keyFirst unit) unit

/-- An HBM byte whose unit was last written under a key that is no longer in force. -/
def Memory.foreign (m : Memory) (a : Nat) : Bool :=
  decide (a < hbmEnd) && decide (m.keyOf (a / 64) ≠ m.keyNow (stackOf (a / 64 * 64)))

/-- An access unit as the DRAM holds it: encrypted under the key of its last write, with its address / 64 as the tweak (R243). -/
def Memory.stored (m : Memory) (unit : Nat) : List Byte :=
  xtsEncrypt (m.keyOf unit) unit ((List.range 64).map (fun i => m.plain (unit * 64 + i)))

/-- What decrypting a stored unit with the key in force gives. -/
def Memory.decrypted (m : Memory) (unit : Nat) : List Byte :=
  xtsDecrypt (m.keyNow (stackOf (unit * 64))) unit (m.stored unit)

/-- A byte as it is read: under the key of its last write, as written; under another key, whatever the decryption of what is
stored gives (R243, R244). -/
def Memory.read (m : Memory) (a : Nat) : Byte :=
  if m.foreign a then (m.decrypted (a / 64)).getD (a % 64) 0 else m.plain a

/-- Sets a byte, keeping the canonical form. -/
def Memory.put (m : Memory) (a : Nat) (b : Byte) : Memory :=
  if b = 0 ∧ m.zeroed.contains (regionOf a) then { m with cells := tabDel m.cells a }
  else { m with cells := tabSet m.cells a b }

def Memory.putAll (m : Memory) (a : Nat) : List Byte → Memory
  | [] => m
  | b :: t => (m.put a b).putAll (a + 1) t

/-- The 64 bytes of an access unit as they are read. -/
def Memory.unitNow (m : Memory) (unit : Nat) : List Byte := (List.range 64).map (fun i => m.read (unit * 64 + i))

/-- Makes the key in force the key of a unit. -/
def Memory.keyed (m : Memory) (unit : Nat) : Memory :=
  let k := m.keyNow (stackOf (unit * 64))
  { m with under := if k = m.keyFirst unit then tabDel m.under unit else tabSet m.under unit k }

/-- Before a byte of a unit last written under another key is written, the unit becomes what it reads as, under the key in
force (R625). -/
def Memory.adopt (m : Memory) (a : Nat) : Memory :=
  if m.foreign a then (m.putAll (a / 64 * 64) (m.unitNow (a / 64))).keyed (a / 64) else m

/-- Writes a byte, keeping the canonical form. -/
def Memory.write (m : Memory) (a : Nat) (b : Byte) : Memory := (m.adopt a).put a b

/-- The canonical form: addresses strictly rise, no entry is zero in a zeroed region, and a unit is listed only under a key that
is not its stack's first. -/
def Memory.wf (m : Memory) : Bool :=
  tabSorted m.cells && m.cells.all (fun c => !(decide (c.2 = 0) && m.zeroed.contains (regionOf c.1))) &&
    tabSorted m.under && m.under.all (fun u => decide (u.2 ≠ m.keyFirst u.1))

def Memory.writeBytes (m : Memory) (a : Nat) : List Byte → Memory
  | [] => m
  | b :: t => (m.write a b).writeBytes (a + 1) t

def Memory.readBytes (m : Memory) (a n : Nat) : List Byte := (List.range n).map (fun i => m.read (a + i))

/-- One more loss of a region. -/
def nextEra (eras : Tab Nat) (r : Nat) : Tab Nat := tabSet eras r (tabGet eras 0 r + 1)

/-- Forgets what the bytes of a region were: nothing is listed for it. -/
def Memory.clear (m : Memory) (r : Nat) : Memory :=
  { m with
    cells := m.cells.filter (fun c => regionOf c.1 ≠ r)
    under := m.under.filter (fun u => (stackOf (u.1 * 64)).val ≠ r) }

/-- Loses a region's contents (R220, R604): its bytes are new free values. -/
def Memory.lose (m : Memory) (r : Nat) : Memory :=
  let m := m.clear r
  { m with zeroed := m.zeroed.filter (fun z => z ≠ r), eras := nextEra m.eras r }

/-- Writes a region with zero (R604 CLUSTER, R624); a stack's under its key in force. -/
def Memory.zero (m : Memory) (r : Nat) : Memory :=
  let m := m.clear r
  { m with zeroed := r :: m.zeroed.filter (fun z => z ≠ r), first := if r < 12 then tabSet m.first r (tabGet m.keys 0 r) else m.first }

/-- Another memory key in a stack (R244): what the stack holds stays as it is stored. -/
def Memory.setKey (m : Memory) (k : Fin 12) (key : BitVec 512) : Memory := { m with keys := tabSet m.keys k.val key }

def State.readMem (s : State) (a n : Nat) : List Byte := s.mem.readBytes a n
def State.readNat (s : State) (a n : Nat) : Nat := leNat (s.mem.readBytes a n)
def State.readWord (s : State) (a : Nat) : Word := BitVec.ofNat 64 (s.readNat a 8)

/-- What the code of R236 makes of the errors of a unit: it corrects errors in up to 3 bytes and detects errors in up to 5. What it makes
of more is open (log entry 48). -/
def eccOfErrors (unit : Nat) (e : Tab Byte) : EccOutcome :=
  if e = [] then .clean
  else if e.length ≤ 3 then .corrected
  else if e.length ≤ 5 then .uncorrectable
  else Config.eccBeyond unit e

/-- The access units of a stack that a read finds uncorrectable: those poisoned, and those with errors that the code only detects (R236,
R240). -/
def Stack.badUnits (k : Stack) : List Nat :=
  k.poisoned ++ (k.errors.filter (fun e => decide (eccOfErrors e.1 e.2 = .uncorrectable))).map (·.1)

/-- The access units of a stack that a read corrects. -/
def Stack.weakUnits (k : Stack) : List Nat :=
  (k.errors.filter (fun e => decide (eccOfErrors e.1 e.2 = .corrected))).map (·.1)

/-- A unit of which a write of n bytes at a covers a part. -/
def partUnit (a n u : Nat) : Bool := decide (u % 64 = 0 ∧ u < a + n ∧ a < u + 64 ∧ ¬ (a ≤ u ∧ u + 64 ≤ a + n))

/-- Uncorrectable access units that a write of n bytes at a covers only in part: none of their bytes is written (R625). -/
def State.partPoisoned (s : State) (a n : Nat) : List Nat :=
  if a < hbmEnd then (s.hbm.toList.flatMap Stack.badUnits).filter (partUnit a n) else []

/-- One corrected event of a granule: up to 4,096 are tracked, the least recently updated replaced (R239). -/
def countCe (gran : Nat) (xs : List (Nat × Nat)) : List (Nat × Nat) :=
  let n := ((xs.find? (fun x => decide (x.1 = gran))).map (·.2)).getD 0
  ((gran, n + 1) :: xs.filter (fun x => x.1 ≠ gran)).take 4096

/-- The corrected reads of some units of a stack, counted (R237, R239). -/
def Stack.countWeak (us : List Nat) (k : Stack) : Stack :=
  us.foldl (fun k u => { k with
    ceCount := wrap64 k.ceCount 1, ceEvents := countCe (u / 4096 * 4096) k.ceEvents,
    toRetire := k.toRetire.filter (fun x => x ≠ (u / 4096 * 4096, 0)) ++ [(u / 4096 * 4096, 0)] }) k

/-- An engine's read of a range: each unit that needs correction counts (R237). The granules whose count has come to the threshold are
retired in the next crystal cycle (R239). -/
def State.noteRead (s : State) (a n : Nat) : State :=
  if a < hbmEnd then
    { s with hbm := s.hbm.map (fun k => k.countWeak (k.weakUnits.filter (fun u => decide (u < a + n ∧ a < u + 64)))) }
  else s

/-- Writes the bytes that lie in no unit of a list. -/
def Memory.writeOutside (m : Memory) (us : List Nat) (a : Nat) : List Byte → Memory
  | [] => m
  | b :: t => (if us.any (fun u => decide (u ≤ a ∧ a < u + 64)) then m else m.write a b).writeOutside us (a + 1) t

/-- Writes bytes. A whole access unit written clears its poison (R240), and a unit written with new check bytes holds no error
any more (R236, R625); the read that merges a part into a unit counts where it corrects. -/
def State.writeMem (s : State) (a : Nat) (bs : List Byte) : State :=
  let us := s.partPoisoned a bs.length
  let s := s.setMem (if us = [] then s.mem.writeBytes a bs else s.mem.writeOutside us a bs)
  if a < hbmEnd then
    { s with hbm := s.hbm.map (fun k => { k.countWeak (k.weakUnits.filter (partUnit a bs.length)) with
        poisoned := k.poisoned.filter (fun u => decide (¬ (a ≤ u ∧ u + 64 ≤ a + bs.length)))
        errors := k.errors.filter (fun e => us.contains e.1 || decide (e.1 + 64 ≤ a ∨ a + bs.length ≤ e.1)) }) }
  else s

/-- The first access unit of a range that a read finds uncorrectable (R237, R240). -/
def State.poisonHit (s : State) (a n : Nat) : Option Nat :=
  if a < hbmEnd then
    firstSome (fun g => (s.hbm[stackOf (g * 4096)]).badUnits.find? (fun u => decide (u < a + n ∧ a < u + 64)))
      (granules a n)
  else none

/-- A read by a descriptor or command: the access rules, then R237. -/
def State.readFail (s : State) (who : Who) (a n : Nat) : Option Fail :=
  match s.accessFail who a n with
  | some f => some f
  | none => (s.poisonHit a n).map failUncorr

def State.readChecked (s : State) (who : Who) (a n : Nat) : Except Fail (List Byte) :=
  match s.readFail who a n with
  | some f => .error f
  | none => .ok (s.readMem a n)

/-- The failure of a write that covers a poisoned access unit only in part (R625). -/
def State.mergeFail (s : State) (a n : Nat) : Option Fail := (s.partPoisoned a n).head?.map failUncorr

def State.writeChecked (s : State) (who : Who) (a : Nat) (bs : List Byte) : Except Fail State :=
  match s.accessFail who a bs.length with
  | some f => .error f
  | none =>
    match s.mergeFail a bs.length with
    | some f => .error f
    | none => .ok (s.writeMem a bs)

/-- Fails unless every range is accessible. -/
def State.checkAll (s : State) (who : Who) (rs : List (Nat × Nat)) : Except Fail Unit :=
  match firstSome (fun r => s.accessFail who r.1 r.2) rs with
  | some f => .error f
  | none => .ok ()

/-! ### Speculative state (R124 to R126, R420) -/

/-- The stacks of a die. -/
def stacksOf (d : Fin 4) : List (Fin 12) := (List.finRange 3).map (fun i => fin12 (3 * d.val + i.val))

/-- A stack's logs are emptied; rows of its shadow log count as discarded at the die's update unit. -/
def State.dropLogs (s : State) (k : Fin 12) : State :=
  let rows := (s.hbm[k].shadow.filter (fun r => r.record.isSome)).length
  (s.modStack k (fun x => { x with log := [], shadow := [] })).modUpd (dieOfStack k) (fun u =>
    { u with shadowRowsDiscarded := wrap64 u.shadowRowsDiscarded rows })

/-- All speculative state in a stack is discarded: its logs, and the shadow halves that lie in it, which count (R420). -/
def State.dropStack (s : State) (k : Fin 12) : State :=
  (List.finRange 4).foldl (fun s d => s.modUpd d (fun u =>
    { u with shadow := u.shadow.filter (fun c => decide (stackOf c.1 ≠ k))
             shadowNow := u.shadowNow.filter (fun a => decide (stackOf a ≠ k))
             shadowDiscarded := wrap64 u.shadowDiscarded (u.shadowNow.filter (fun a => decide (stackOf a = k))).length })) (s.dropLogs k)

/-- Bytes by address as runs of consecutive bytes of one granule. -/
def runsOf : Tab Byte → List (Nat × List Byte)
  | [] => []
  | (a, b) :: t =>
    match runsOf t with
    | (a', bs) :: r => if a' = a + 1 ∧ a' % 4096 ≠ 0 then (a, b :: bs) :: r else (a, [b]) :: (a', bs) :: r
    | [] => [(a, [b])]

/-- Little-endian words of a byte string. -/
def wordsOf (bs : List Byte) : Nat → List Word
  | 0 => []
  | n + 1 => BitVec.ofNat 64 (leNat (bs.take 8)) :: wordsOf (bs.drop 8) n

def wordBytes (w : Word) : List Byte := leBytes 8 w.toNat

end Sys2Proof.Machine
end

