-- ==== Sys2Proof/Machine/Operands.lean ====
section
/-! DEFINITION. Operands.lean: the fields of descriptors, launch entries and sequencer instructions, the queue codes,
and the checks of their reserved fields (R8, R91, R97 to R100, R115 to R117, R555). -/

namespace Sys2Proof.Machine

/-! ### Reserved fields (R8) -/

/-- A span of bits of one of an item's words: word, high bit, low bit. -/
abbrev Span := Nat × Nat × Nat

/-- The byte offset of the first span, in list order, that holds a non-zero value. -/
def firstNonzero (ws : List Word) (spans : List Span) : Option Nat :=
  firstSome (fun sp => match sp with
    | (w, hi, lo) => if bitsOf ((ws.getD w 0).toNat) hi lo ≠ 0 then some (w * 8 + lo / 8) else none) spans

/-- The lowest byte offset among the conditions that hold (R560: the first offending field). -/
def minBad (bad : List (Bool × Nat)) : Option Nat :=
  bad.foldl (fun m x => if x.1 then some (match m with
    | some y => min y x.2
    | none => x.2) else m) none

/-- Spans that hold a non-zero value, as conditions for `minBad`. -/
def spansBad (ws : List Word) (spans : List Span) : List (Bool × Nat) :=
  spans.map (fun sp => match sp with
    | (w, hi, lo) => (decide (bitsOf ((ws.getD w 0).toNat) hi lo ≠ 0), w * 8 + lo / 8))

/-! ### Locations in a core's SRAM (R322, R366) -/

/-- The address of a 26-bit location of a core: its own window, or its cluster's. -/
def locAddr (n : Fin 256) (loc : Nat) : Nat :=
  (if bitOf loc 25 then clusterBase (n.val / 8) else coreBase n.val) + loc % 2 ^ 25

/-- Why an address cannot serve a command: what the access rules say of it, or reason 5 (R560). -/
def State.placeFail (s : State) (a : Nat) : Fail :=
  match s.accessFail .any a 1 with
  | some f => if f.code = 0x0201 then f else failAddress a 5
  | none => failAddress a 5

/-- The address of an extent of a command of core n, `add` bytes past a location; it must lie below `lim` of the core's
window, or in its cluster's explicit scratch. -/
def State.place (s : State) (n : Fin 256) (lim loc add bytes : Nat) : Except Fail Nat :=
  let cl := bitOf loc 25
  let win := if cl then clusterBase (n.val / 8) else coreBase n.val
  let lim := if cl then 0x2000000 else lim
  let off := loc % 2 ^ 25 + add
  match s.accessFail .any (win + off) (min bytes (lim - off)) with
  | some f => .error f
  | none => if lim < off + bytes then .error (s.placeFail (win + max off lim)) else .ok (win + off)

/-- Whether two extents share a byte. -/
def overlap (a n b m : Nat) : Bool := decide (a < b + m ∧ b < a + n)

/-! ### Descriptors (R91) -/

def descWords (d : Desc) : List Word := [d.w0, d.w1, d.w2, d.w3, d.w4, d.w5, d.w6, d.w7]

def descOfBytes (bs : List Byte) : Desc :=
  let w (i : Nat) : Word := BitVec.ofNat 64 (leNat ((bs.drop (8 * i)).take 8))
  { w0 := w 0, w1 := w 1, w2 := w 2, w3 := w 3, w4 := w 4, w5 := w 5, w6 := w 6, w7 := w 7 }

/-- Bits [hi:lo] of word `i` of a descriptor. -/
def Desc.bits (d : Desc) (i hi lo : Nat) : Nat := bitsOf ((descWords d).getD i 0).toNat hi lo
def Desc.bit (d : Desc) (i b : Nat) : Bool := bitOf ((descWords d).getD i 0).toNat b

def Desc.opcode (d : Desc) : Nat := d.bits 0 7 0
def Desc.postEn (d : Desc) : Bool := d.bit 0 8
def Desc.postNext (d : Desc) : Bool := d.bit 0 9
def Desc.ordered (d : Desc) : Bool := d.bit 0 10
def Desc.postToken (d : Desc) : Nat := d.bits 0 63 52
def Desc.waitSeason (d : Desc) : Nat := d.bits 1 47 0
def Desc.postCluster (d : Desc) : Fin 32 := fin32 (d.bits 1 52 48)
def Desc.waits (d : Desc) : List Nat := ([d.bits 0 27 16, d.bits 0 39 28, d.bits 0 51 40]).take (d.bits 1 54 53)

/-- Reserved fields of the header (R91). -/
def headerSpans : List Span := [(0, 15, 11), (1, 63, 55)]

/-- Bytes 16 to 63 (R8: reserved in a NOP). -/
def bodySpans : List Span := (List.range 6).map (fun i => (i + 2, 63, 0))

/-! ### Queues (R97) -/

/-- The codes of R97. -/
def queueCode : QueueId → Nat
  | .matrix k => 8 * k.val
  | .vector k => 8 * k.val + 2
  | .row k => 8 * k.val + 3
  | .transfer k => 8 * k.val + 4
  | .thread k => 8 * k.val + 5
  | .harrow => 0x40
  | .rake => 0x41
  | .sprinkler => 0x42
  | .update => 0x48

/-- The queue of a code; `none` for a reserved one (R98). -/
def queueOfCode (c : Nat) : Option QueueId :=
  if h : c < 64 then
    let k : Fin 8 := ⟨c / 8, by omega⟩
    match c % 8 with
    | 0 => some (.matrix k)
    | 2 => some (.vector k)
    | 3 => some (.row k)
    | 4 => some (.transfer k)
    | 5 => some (.thread k)
    | _ => none
  else if c = 0x40 then some .harrow
  else if c = 0x41 then some .rake
  else if c = 0x42 then some .sprinkler
  else if c = 0x48 then some .update
  else none

/-- Depth in descriptors (R97). -/
def queueDepth : QueueId → Nat
  | .matrix _ => 16
  | .vector _ => 16
  | .row _ => 8
  | .transfer _ => 32
  | .thread _ => 16
  | .harrow => 16
  | .rake => 32
  | .sprinkler => 32
  | .update => 4

/-- The opcodes a queue accepts, NOP among them (R138, R185, R196, R250, R256, R321, R374, R391, R425). -/
def queueOpcodes : QueueId → Nat
  | .matrix _ => 5
  | .vector _ => 3
  | .row _ => 6
  | .transfer _ => 3
  | .thread _ => 3
  | .harrow => 3
  | .rake => 4
  | .sprinkler => 4
  | .update => 4

/-- The unit that raises a queue's events. -/
def queueUnit (g : Fin 32) : QueueId → BitVec 16
  | .matrix k => uidEngine (8 * g.val + k.val) 0
  | .vector k => uidEngine (8 * g.val + k.val) 2
  | .row k => uidEngine (8 * g.val + k.val) 3
  | .transfer k => uidEngine (8 * g.val + k.val) 4
  | .thread k => uidEngine (8 * g.val + k.val) 5
  | .harrow => uidCluster g.val 1
  | .rake => uidCluster g.val 2
  | .sprinkler => uidCluster g.val 3
  | .update => uidDie (g.val / 8) 4

/-- The core of a cluster's engine. -/
def coreOf (g : Fin 32) (k : Fin 8) : Fin 256 := fin256 (8 * g.val + k.val)

/-- A core's place in its cluster. -/
def coreK (n : Fin 256) : Fin 8 := ⟨n.val % 8, by omega⟩

/-- The descriptor context of an event (R555). -/
def dctx (code : Nat) (q : QDesc) : Nat :=
  code + q.desc.opcode * 2 ^ 8 + q.desc.postToken * 2 ^ 16 + b2n q.desc.postEn * 2 ^ 28 + b2n q.launch * 2 ^ 29

/-- The context of a launch entry whose descriptor was not read (R107). -/
def dctxLaunch (code : Nat) : Nat := code + 2 ^ 29

/-- A header or opcode that the queue rejects (R8, R91): the offset of the first offending field. -/
def headerBad (q : QueueId) (d : Desc) : Option Nat :=
  match firstNonzero (descWords d) headerSpans with
  | some o => some o
  | none =>
    if queueOpcodes q ≤ d.opcode then some 0
    else if d.opcode = 0 then firstNonzero (descWords d) bodySpans
    else none

/-! ### Launch entries (R100) -/

def LaunchEntry.season (e : LaunchEntry) : Nat := bitsOf e.w0.toNat 47 0
def LaunchEntry.stride (e : LaunchEntry) : Nat := bitsOf e.w0.toNat 55 48
def LaunchEntry.queue (e : LaunchEntry) : Nat := bitsOf e.w0.toNat 63 56
def LaunchEntry.descAddr (e : LaunchEntry) : Nat := bitsOf e.w1.toNat 47 0
def LaunchEntry.kind (e : LaunchEntry) : Nat := bitsOf e.w1.toNat 49 48
def LaunchEntry.waits (e : LaunchEntry) : List Nat :=
  ([bitsOf e.w2.toNat 11 0, bitsOf e.w2.toNat 23 12, bitsOf e.w2.toNat 35 24]).take (bitsOf e.w1.toNat 53 52)
def LaunchEntry.payloadReg (e : LaunchEntry) : Nat := bitsOf e.w2.toNat 40 36
def LaunchEntry.payloadEn (e : LaunchEntry) : Bool := bitOf e.w2.toNat 41
def LaunchEntry.isLaunch (e : LaunchEntry) : Bool := decide (e.kind = 1)
def LaunchEntry.isBarrier (e : LaunchEntry) : Bool := decide (e.kind = 2)

def LaunchEntry.scope (e : LaunchEntry) : Scope :=
  match bitsOf e.w1.toNat 51 50 with
  | 0 => .cluster
  | 1 => .die
  | 2 => .device
  | _ => .system

def scopeCode : Scope → Nat
  | .cluster => 0
  | .die => 1
  | .device => 2
  | .system => 3

def LaunchEntry.ofWords (w0 w1 w2 w3 : Word) : LaunchEntry :=
  { w0 := w0, w1 := w1, w2 := w2, w3 := w3, released := false }

/-- The checks of R100 on an entry's 32 bytes. PAYLOAD_REG and PAYLOAD_EN, 'BARRIER only', must be zero in a LAUNCH entry
(DESIGN CHOICE, log entry 47). -/
def launchOk (e : LaunchEntry) : Bool :=
  let ws := [e.w0, e.w1, e.w2, e.w3]
  match e.kind with
  | 0 => true
  | 1 => (firstNonzero ws [(1, 51, 50), (1, 63, 54), (2, 41, 36), (2, 63, 42), (3, 63, 0)]).isNone &&
      (queueOfCode e.queue).isSome
  | 2 => (firstNonzero ws [(0, 63, 56), (1, 47, 0), (1, 63, 54), (2, 63, 42), (3, 63, 0)]).isNone
  | _ => false

/-- After firing or release: re-armed at SEASON + STRIDE, or unused (R102). That the sum wraps at 48 bits, and that an unused
entry keeps every field but KIND, are DESIGN CHOICES (log entry 47). -/
def launchRearm (e : LaunchEntry) : LaunchEntry :=
  if e.stride = 0 then { e with w1 := e.w1 &&& ~~~(3#64 <<< 48), released := false }
  else
    let w := e.w0.toNat - e.season + (e.season + e.stride) % 2 ^ 48
    { e with w0 := BitVec.ofNat 64 w, released := false }

/-! ### Sequencer instructions (R115 to R117) -/

structure SeqInstr where
  opc : Nat
  sd : Fin 32
  sa : Fin 32
  sb : Fin 32
  cond : Nat
  imm : Nat
  deriving DecidableEq, Repr

def seqDecode (w : Word) : SeqInstr :=
  let n := w.toNat
  { opc := bitsOf n 7 0, sd := fin32 (bitsOf n 12 8), sa := fin32 (bitsOf n 17 13), sb := fin32 (bitsOf n 22 18),
    cond := bitsOf n 25 23, imm := bitsOf n 63 32 }

/-- What an operation uses of its word: SD, SA, SB, COND, and the bits of IMM in use as a mask (R116, R559). -/
structure SeqUse where
  sd : Bool
  sa : Bool
  sb : Bool
  cond : Bool
  imm : Nat
  deriving DecidableEq, Repr

def useRRR : SeqUse := { sd := true, sa := true, sb := true, cond := false, imm := 0 }
def useOf (sd sa sb cond : Bool) (imm : Nat) : SeqUse := { sd := sd, sa := sa, sb := sb, cond := cond, imm := imm }

def seqUse (opc : Nat) : Option SeqUse :=
  match opc with
  | 0x00 => some (useOf false false false false 0)
  | 0x01 => some (useOf true false false false 0xFFFFFFFF)
  | 0x02 => some (useOf true false false false 0xFFFFFFFF)
  | 0x03 => some useRRR
  | 0x04 => some (useOf true true false false 0xFFFFFFFF)
  | 0x05 => some useRRR
  | 0x06 => some useRRR
  | 0x07 => some useRRR
  | 0x08 => some useRRR
  | 0x09 => some (useOf true true false false 0x3F)
  | 0x0A => some (useOf true true false false 0x3F)
  | 0x0B => some useRRR
  | 0x0C => some (useOf true true false false 0xFFFFFFFF)
  | 0x0D => some (useOf false true true false 0xFFFFFFFF)
  | 0x0E => some (useOf false true true true 0xFFFFFFFF)
  | 0x0F => some (useOf true false false false 0xFFFFFFFF)
  | 0x10 => some (useOf false true false false 0)
  | 0x11 => some (useOf false true false false 0xFF)
  | 0x12 => some (useOf false false false false 0x3FFFF)
  | 0x13 => some (useOf false false false false 0xFFFFF)
  | 0x14 => some (useOf false false false false 0xFFF)
  | 0x15 => some (useOf false true false false 0)
  | 0x16 => some (useOf false true false false 0xFF)
  | 0x17 => some (useOf false true false false 0)
  | 0x18 => some (useOf true false false false 0x103)
  | 0x19 => some (useOf true false false false 0xF)
  | 0x1A => some (useOf true true true false 0xFFFF)
  | 0x1B => some (useOf false false false false 0)
  | _ => none

/-- A field that the operation leaves unused is non-zero, or a reserved bit is set (R115, R8). -/
def seqReservedSet (u : SeqUse) (w : Word) : Bool :=
  let i := seqDecode w
  (!u.sd && decide (i.sd ≠ 0)) || (!u.sa && decide (i.sa ≠ 0)) || (!u.sb && decide (i.sb ≠ 0)) ||
  (!u.cond && decide (i.cond ≠ 0)) || decide (bitsOf w.toNat 31 26 ≠ 0) ||
  decide ((BitVec.ofNat 32 i.imm &&& ~~~(BitVec.ofNat 32 u.imm)) ≠ 0)

/-- An instruction that R118 calls rejected by its word alone: a reserved OPC, field or bit, COND, queue code, system
value or event class (R98, R115 to R117, R559). -/
def seqWordBad (w : Word) : Bool :=
  let i := seqDecode w
  match seqUse i.opc with
  | none => true
  | some u =>
    seqReservedSet u w ||
    match i.opc with
    | 0x0E => decide (5 < i.cond)
    | 0x11 => (queueOfCode (i.imm % 256)).isNone
    | 0x19 => decide (3 < i.imm)
    | 0x1A => decide (i.imm / 256 % 256 < 0xF0)
    | _ => false

/-- The comparisons of BR (R117). -/
def seqCompare (cond : Nat) (a b : Word) : Bool :=
  match cond with
  | 0 => decide (a = b)
  | 1 => decide (a ≠ b)
  | 2 => a.slt b
  | 3 => !a.slt b
  | 4 => a.ult b
  | _ => !a.ult b

end Sys2Proof.Machine
end

