-- ==== Sys2Proof/Machine/Pepper.lean ====
section
/-! DEFINITION. Pepper.lean: the Pepper stream (R143 to R146, R176, R291, R384): AES-128 in counter mode, the
counter blocks and the draws. -/

namespace Sys2Proof.Machine

/-- A counter block's 16 output bytes as one 128-bit number, first byte lowest (R144): word wi is bits
[32i + 31 : 32i], draw k is bits [16k + 15 : 16k]. The key's 16 bytes are those of the manifest, first byte lowest. -/
def pepperBlock (key : BitVec 128) (ctr : Nat) : Nat :=
  bytesNat (aes128 (natBytes 16 key.toNat) (natBytes 16 ctr))

def pepperWord (key : BitVec 128) (ctr i : Nat) : Nat := pepperBlock key ctr / 2 ^ (32 * i) % 2 ^ 32
def pepperDraw (key : BitVec 128) (ctr k : Nat) : Nat := pepperBlock key ctr / 2 ^ (16 * k) % 2 ^ 16

/-- R143. -/
def ctrHarrow (season unit mb hop pos block : Nat) : Nat :=
  season % 2 ^ 48 + unit % 2 ^ 16 * 2 ^ 48 + 1 * 2 ^ 64 + mb % 2 ^ 16 * 2 ^ 68 + hop % 4 * 2 ^ 84 +
    pos % 2 ^ 28 * 2 ^ 86 + block % 2 ^ 12 * 2 ^ 114

/-- R176. -/
def ctrRequant (season table row block : Nat) : Nat :=
  season % 2 ^ 48 + table % 2 ^ 16 * 2 ^ 48 + 2 * 2 ^ 64 + row % 2 ^ 40 * 2 ^ 68 + block % 2 ^ 16 * 2 ^ 108

/-- R291; element e uses draw e mod 8 of the block with ELEM e / 8. -/
def ctrConvert (season unit seq elem : Nat) : Nat :=
  season % 2 ^ 48 + unit % 2 ^ 16 * 2 ^ 48 + 3 * 2 ^ 64 + seq % 2 ^ 16 * 2 ^ 68 + elem % 2 ^ 40 * 2 ^ 84

/-- R384. -/
def ctrDrop (season unit key elem : Nat) : Nat :=
  season % 2 ^ 48 + unit % 2 ^ 16 * 2 ^ 48 + 4 * 2 ^ 64 + key % 2 ^ 16 * 2 ^ 68 + elem % 2 ^ 40 * 2 ^ 84

/-- The draw of element e of an engine conversion (R291). -/
def convDraw (key : BitVec 128) (season unit seq e : Nat) : Nat :=
  pepperDraw key (ctrConvert season unit seq (e / 8)) (e % 8)

/-- R146. -/
def uniformBelow (w m : Nat) : Nat := w * m / 2 ^ 32

end Sys2Proof.Machine
end

