-- ==== Sys2Proof/Machine/Graph.lean ====
section
/-! DEFINITION. Graph.lean: the graph store, the topology cache and the selection of neighbours (R128 to R150). -/

namespace Sys2Proof.Machine

/-- What a seed tree or a hop-1 subtree is made of (R153, R154): the seed and the edges below it. -/
structure GEdge where
  hop : Nat
  dst : Nat
  pos : Nat
  src : Nat
  ts : Nat
  sub : Nat
  deriving DecidableEq, Repr

structure SeedUnit where
  seed : Nat
  node : Nat
  edges : List GEdge
  deriving DecidableEq, Repr

/-- What a SAMPLE changes while it expands: the cache, the lines it misses, its counts, the timestamps it has read by
node and place (R134), and the pieces closed and open (R154). -/
structure GSt where
  topo : Tab (List TopoLine)
  fills : List TopoLine
  hits : Nat
  misses : Nat
  expansions : Nat
  short : Nat
  seen : List (Nat × Nat × Nat)
  closed : List (List SeedUnit)
  cur : List SeedUnit
  die : Nat
  deriving DecidableEq, Repr

abbrev GM := EStateM Fail GSt

/-- A graph header (R129). -/
structure GraphHdr where
  weighted : Bool
  temporal : Bool
  base : Nat
  count : Nat
  index : Nat
  blocks : Nat
  deriving DecidableEq, Repr

def graphFail (addr node : Nat) : Fail := { code := 0x0401, arg0 := addr, arg1 := node }

/-- Reserved fields of the graph header (R129, R630). -/
def graphSpans : List Span :=
  [(0, 63, 50), (1, 63, 40), (2, 63, 40), (3, 63, 48), (4, 63, 48), (5, 63, 48), (6, 63, 0), (7, 63, 0)]

/-- Reads and checks a graph header. -/
def State.graphHdr (s : State) (die addr : Nat) : Except Fail GraphHdr := do
  let bs ← s.readChecked (.onDie die .any) addr 64
  let ws := wordsOf bs 8
  let w (i : Nat) : Nat := (ws.getD i 0).toNat
  if bitsOf (w 0) 31 0 = 0x48520001 ∧ bitsOf (w 0) 47 32 = 1 ∧ firstNonzero ws graphSpans = none ∧
      0 < bitsOf (w 2) 39 0 then
    .ok { weighted := bitOf (w 0) 48, temporal := bitOf (w 0) 49, base := bitsOf (w 1) 39 0,
          count := bitsOf (w 2) 39 0, index := bitsOf (w 3) 47 0, blocks := bitsOf (w 4) 47 0 }
  else .error (graphFail addr 0)

/-- A node of the local range (R135). -/
def GraphHdr.isLocal (h : GraphHdr) (node : Nat) : Bool := decide (h.base ≤ node ∧ node < h.base + h.count)

/-! ### The topology cache (R137) -/

/-- The set of a line number under R137. -/
def topoSet (sets line : Nat) : Nat := ((line % 2 ^ 32 * 2654435761 % 2 ^ 32) ^^^ (line / 2 ^ 32)) % sets

/-- Places a line in its set as the most recently used of at most sixteen (R137). -/
def topoInstall (sets : Nat) (l : TopoLine) (t : Tab (List TopoLine)) : Tab (List TopoLine) :=
  if sets = 0 then t
  else
    let k := topoSet sets l.line
    tabSet t k ((l :: (tabGet t [] k).filter (fun x => x.line ≠ l.line)).take 16)

/-- Lines on their way reach their sets. -/
def GSt.filled (sets : Nat) (g : GSt) : GSt :=
  { g with topo := g.fills.foldl (fun t l => topoInstall sets l t) g.topo, fills := [] }

/-- Reads a line through the cache: the lines on their way are in their sets by then. A miss reads HBM, and the line is on its way
to its set; with no cache every access goes to HBM (R137). -/
def readLine (s : State) (sets line : Nat) : GM (List Byte) := fun g0 =>
  let g := g0.filled sets
  match (tabGet g.topo [] (topoSet sets line)).find? (fun l => decide (l.line = line)) with
  | some l => .ok l.bytes { g with hits := g.hits + 1, topo := topoInstall sets l g.topo }
  | none =>
    match s.readChecked (.onDie g.die .any) (line * 64) 64 with
    | .error f => .error f { g with misses := g.misses + 1 }
    | .ok bs => .ok bs { g with misses := g.misses + 1, fills := if sets = 0 then [] else [{ line := line, bytes := bs }] }

/-- Reads n bytes at an address, line by line. -/
def gread (s : State) (sets addr n : Nat) : GM Nat := do
  let ls := (List.range ((addr + n - 1) / 64 + 1 - addr / 64)).map (fun k => addr / 64 + k)
  let bs ← ls.mapM (readLine s sets)
  return leNat ((bs.flatten.drop (addr % 64)).take n)

/-! ### Blocks (R130 to R134) -/

/-- An opened adjacency block. -/
structure Block where
  addr : Nat
  len : Nat
  degree : Nat
  total : U32
  deriving DecidableEq, Repr

/-- Opens a node's block; a node whose ADJ_LEN is 0 has none. -/
def openBlock (s : State) (sets : Nat) (h : GraphHdr) (node : Nat) : GM (Option Block) := do
  let e ← gread s sets (h.index + 8 * (node - h.base)) 8
  if bitsOf e 63 40 = 0 then return none
  let a := h.blocks + 64 * bitsOf e 39 0
  let w ← gread s sets a 16
  if bitsOf w 103 64 ≠ node then throw (graphFail a node)
  return some { addr := a, len := 64 * bitsOf e 63 40, degree := bitsOf w 31 0,
                total := if h.weighted then BitVec.ofNat 32 (bitsOf w 63 32) else 0 }

/-- A directory entry (R132) with the edges of its group. -/
structure DirEntry where
  base : Nat
  width : Nat
  ofs : Nat
  cum : Nat
  n : Nat
  deriving DecidableEq, Repr

def pad8 (n : Nat) : Nat := roundUp n 8

/-- The bytes of a group payload (R133). -/
def payloadBytes (h : GraphHdr) (e : DirEntry) : Nat :=
  pad8 (cdiv (e.n * e.width) 8) + (if h.weighted then pad8 (2 * e.n) else 0) + (if h.temporal then pad8 (4 * e.n) else 0)

/-- Reads a directory entry and checks PAYLOAD_OFS against ADJ_LEN (R136). -/
def dirEntry (s : State) (sets : Nat) (h : GraphHdr) (node : Nat) (b : Block) (g : Nat) : GM DirEntry := do
  let w ← gread s sets (b.addr + 16 + 16 * g) 16
  let e : DirEntry :=
    { base := bitsOf w 39 0, width := bitsOf w 45 40, ofs := bitsOf w 95 64, cum := bitsOf w 127 96,
      n := min 64 (b.degree - 64 * g) }
  if b.len < e.ofs + payloadBytes h e then throw (graphFail b.addr node)
  return e

/-- The neighbour of edge i (R133). -/
def edgeNode (s : State) (sets : Nat) (h : GraphHdr) (node : Nat) (b : Block) (i : Nat) : GM Nat := do
  let e ← dirEntry s sets h node b (i / 64)
  if e.width = 0 then return e.base
  let lo := e.width * (i % 64)
  let v ← gread s sets (b.addr + e.ofs + lo / 8) ((lo + e.width - 1) / 8 - lo / 8 + 1)
  return (e.base + v / 2 ^ (lo % 8) % 2 ^ e.width) % 2 ^ 40

/-- The FP16 weight of edge i. -/
def edgeWeight (s : State) (sets : Nat) (h : GraphHdr) (node : Nat) (b : Block) (i : Nat) : GM Nat := do
  let e ← dirEntry s sets h node b (i / 64)
  gread s sets (b.addr + e.ofs + pad8 (cdiv (e.n * e.width) 8) + 2 * (i % 64)) 2

/-- Notes a timestamp read at a place of a node's order, checked against every one of the node read before (R134). A group's
smallest timestamp stands just before its first edge. -/
def noteTime (node block place t : Nat) : GM Nat := do
  let g ← get
  if g.seen.any (fun x => decide (x.1 = node ∧ ((x.2.1 < place ∧ t < x.2.2) ∨ (place < x.2.1 ∧ x.2.2 < t)))) then
    throw (graphFail block node)
  set { g with seen := (node, place, t) :: g.seen }
  return t

/-- The timestamp of edge i. -/
def edgeTime (s : State) (sets : Nat) (h : GraphHdr) (node : Nat) (b : Block) (i : Nat) : GM Nat := do
  let e ← dirEntry s sets h node b (i / 64)
  let t ← gread s sets (b.addr + e.ofs + pad8 (cdiv (e.n * e.width) 8) +
    (if h.weighted then pad8 (2 * e.n) else 0) + 4 * (i % 64)) 4
  noteTime node b.addr (2 * i + 1) t

/-- The smallest timestamp of group g, as its directory entry gives it (R132). -/
def groupTime (s : State) (sets : Nat) (h : GraphHdr) (node : Nat) (b : Block) (g : Nat) : GM Nat := do
  let e ← dirEntry s sets h node b g
  noteTime node b.addr (128 * g) e.cum

/-! ### Selection (R146 to R150) -/

/-- The words of a node's stream, one after another (R144). -/
def harrowWord (key : BitVec 128) (season unit mb hop pos k : Nat) : Nat :=
  pepperWord key (ctrHarrow season unit mb hop pos (k / 4)) (k % 4)

/-- Floyd's selection of R147, drawing word k for j = d - f + k. -/
def floydPick (word : Nat → Nat) (d f : Nat) : List Nat :=
  (List.range f).foldl (fun sel k =>
    let j := d - f + k
    let t := uniformBelow (word k) (j + 1)
    sel ++ [if sel.contains t then j else t]) []

/-- Uniform selection out of d edges (R147, R148). -/
def selectUniform (word : Nat → Nat) (d f : Nat) (replace : Bool) : List Nat :=
  if replace then (if d = 0 then [] else (List.range f).map (fun k => uniformBelow (word k) d))
  else if d ≤ f then List.range d
  else floydPick word d f

def weightNonzero (w : Nat) : Bool := decide (w % 2 ^ 15 ≠ 0)

/-- Step 4 of R149 in a group: the first edge of non-zero weight whose running sum exceeds t. -/
def weightScan (s : State) (sets : Nat) (h : GraphHdr) (node : Nat) (b : Block) (t : U32) :
    List Nat → U32 → GM (Option Nat)
  | [], _ => return none
  | i :: rest, run => do
    let w ← edgeWeight s sets h node b i
    let run' := fadd arithRne run (widen fp16 w)
    if weightNonzero w && fgt run' t then return some i
    else weightScan s sets h node b t rest run'

/-- One weighted draw (R149). -/
def weightDraw (s : State) (sets : Nat) (h : GraphHdr) (node : Nat) (b : Block) (last w : Nat) : GM Nat := do
  let u := wr32 arithRne (.fin false (w / 256) (-24))
  let t := fmul arithRne u b.total
  let cums ← (List.range (cdiv b.degree 64)).mapM (fun g => do
    let e ← dirEntry s sets h node b g
    return BitVec.ofNat 32 e.cum)
  let gi := (List.range cums.length).foldl (fun m g => if fge t (cums.getD g 0) then g else m) 0
  let is := (List.range (min 64 (b.degree - 64 * gi))).map (fun j => 64 * gi + j)
  let r ← weightScan s sets h node b t is (cums.getD gi 0)
  return r.getD last

/-- The draws of R149 without replacement: an index drawn before is drawn again, up to the draws left. -/
def weightDraws (s : State) (sets : Nat) (h : GraphHdr) (node : Nat) (b : Block) (last f : Nat) (word : Nat → Nat) :
    List Nat → List Nat → GM (List Nat)
  | [], sel => return sel
  | k :: ks, sel =>
    if sel.length = f then return sel
    else do
      let i ← weightDraw s sets h node b last (word k)
      weightDraws s sets h node b last f word ks (if sel.contains i then sel else sel ++ [i])

/-- The last edge whose weight is non-zero. -/
def lastWeighted (s : State) (sets : Nat) (h : GraphHdr) (node : Nat) (b : Block) : List Nat → GM (Option Nat)
  | [] => return none
  | i :: is => do
    let w ← edgeWeight s sets h node b i
    if weightNonzero w then return some i else lastWeighted s sets h node b is

/-- Weighted selection (R149). -/
def selectWeighted (s : State) (sets : Nat) (h : GraphHdr) (node : Nat) (b : Block) (f : Nat) (replace : Bool)
    (word : Nat → Nat) : GM (List Nat) := do
  if b.total.toNat % 2 ^ 31 = 0 then return []
  else if !replace && decide (b.degree ≤ f) then
    let ws ← (List.range b.degree).mapM (fun i => do
      let w ← edgeWeight s sets h node b i
      return (i, w))
    return (ws.filter (fun x => weightNonzero x.2)).map (·.1)
  else
    let last ← lastWeighted s sets h node b (List.range b.degree).reverse
    match last with
    | none => return []
    | some l =>
      if replace then (List.range f).mapM (fun k => weightDraw s sets h node b l (word k))
      else
        let sel ← weightDraws s sets h node b l f word (List.range (4 * f)) []
        modify (fun g => if sel.length < f then { g with short := g.short + 1 } else g)
        return sel

/-- Binary search for the first position of [lo, hi) whose value is at least v. -/
def searchFrom (val : Nat → GM Nat) (v : Nat) : Nat → Nat → Nat → GM Nat
  | 0, lo, _ => return lo
  | fuel + 1, lo, hi =>
    if hi ≤ lo then return lo
    else do
      let m := (lo + hi) / 2
      let x ← val m
      if x < v then searchFrom val v fuel (m + 1) hi else searchFrom val v fuel lo m

/-- The first edge whose timestamp is at least v (R150): by group first, but by the payload only in a weighted graph
(R132). -/
def timeLower (s : State) (sets : Nat) (h : GraphHdr) (node : Nat) (b : Block) (v : Nat) : GM Nat := do
  let t := edgeTime s sets h node b
  if h.weighted then searchFrom t v 40 0 b.degree
  else
    let g ← searchFrom (groupTime s sets h node b) v 40 0 (cdiv b.degree 64)
    if g = 0 then return 0 else searchFrom t v 40 (64 * (g - 1)) (min (64 * g) b.degree)

/-- The range of eligible edges of R150. -/
def timeRange (s : State) (sets : Nat) (h : GraphHdr) (node : Nat) (b : Block) (t window : Nat) : GM (Nat × Nat) := do
  let low := if window = 0 ∨ t < window then 0 else t - window
  if b.degree = 0 then return (0, 0)
  else
    let lo ← timeLower s sets h node b low
    let hi ← timeLower s sets h node b t
    return (lo, max lo hi)

end Sys2Proof.Machine
end

