-- ==== Sys2Proof/WellFormed.lean ====
section
/-! DEFINITION. WellFormed.lean: the commands whose operands name things that exist and fit their fields. -/

namespace Sys2Proof

/-- The number of instances of a boundary FIFO row (R58). -/
def fifoCount : FifoKind → Nat
  | .hbmRead => 768
  | .hbmWrite => 768
  | .linkIn => 16
  | .linkOut => 16
  | .fabRx => 16
  | .fabTx => 16
  | .hostRx => 2
  | .hostTx => 2
  | .ingestRx => 2
  | .mgmtRx => 1
  | .mgmtTx => 1

def FifoId.ok (f : FifoId) : Bool := decide (f.idx < fifoCount f.kind)

/-- SEQ and ACK_SEQ are 12-bit fields, CREDITS a 10-bit one, and the payload is 256 bytes (R444). -/
def Flit.ok (f : Flit) : Bool :=
  decide (f.seq < 2 ^ 12 ∧ f.ackSeq < 2 ^ 12 ∧ f.credits < 2 ^ 10 ∧ f.payload.length = 256)

/-- A transfer is 1 to 4 access units within one page (R225). -/
def Ask.ok (a : Ask) : Bool :=
  decide (a.addr % 64 = 0 ∧ a.addr < 0xC000000000 ∧ 1 ≤ a.units ∧ a.units ≤ 4 ∧ a.addr % 1024 + 64 * a.units ≤ 1024)

/-- What an arbiter is asked for: transfers at a pseudo-channel, packets elsewhere (R225, R231). -/
def asksOk (arb : ArbId) (asks : List Ask) : Bool :=
  match arb with
  | .channel _ _ => asks.all Ask.ok
  | _ => true

/-- A command whose operands fit: an existing FIFO, a 48-bit HBM address, a 64-byte unit, a cluster number. -/
def Instr.wellFormed : Instr → Bool
  | .fifoWrite f _ => f.ok
  | .fifoRead f => f.ok
  | .pointerCrossing f _ => f.ok
  | .wmWrite f _ => f.ok
  | .scrub _ addr _ rewritten => decide (addr % 64 = 0 ∧ addr < 0xC000000000) && rewritten.all (fun b => decide (b.length = 64))
  | .lotteryDecision arb asks => asksOk arb asks
  | .watchdogBite arb _ asks => asksOk arb asks
  | .hbmRead access _ _ => decide (access.addr % 64 = 0 ∧ access.addr < 0xC000000000)
  | .hbmWrite access bytes _ _ => decide (access.addr < 0xC000000000 ∧ 0 < bytes.length ∧ access.addr % 64 + bytes.length ≤ 64)
  | .flitReceive _ flit => flit.ok
  | .hello _ dev _ _ _ _ => decide (dev < 32768)
  | .clusterReset c => decide (c < 256)
  | _ => true

end Sys2Proof
end

