-- ==== Sys2Proof/Machine/Flags.lean ====
section
/-! DEFINITION. Flags.lean: what the parameters of R58 are, and the flags, occupancy and visibility of a boundary FIFO
(R59 to R68); the conditions that hold a sender paused (R75, R76, R468). -/

namespace Sys2Proof.Machine

/-- Data width in bits (R58). -/
def fifoWidth : FifoKind → Nat
  | .hbmRead => 256
  | .hbmWrite => 256
  | .linkIn => 2048
  | .linkOut => 2048
  | .fabRx => 1024
  | .fabTx => 1024
  | .hostRx => 512
  | .hostTx => 512
  | .ingestRx => 512
  | .mgmtRx => 32
  | .mgmtTx => 32

/-- Depth in items (R58). -/
def fifoDepth : FifoKind → Nat
  | .hbmRead => 16
  | .hbmWrite => 16
  | .linkIn => 32
  | .linkOut => 32
  | .fabRx => 64
  | .fabTx => 64
  | .hostRx => 256
  | .hostTx => 256
  | .ingestRx => 16384
  | .mgmtRx => 4096
  | .mgmtTx => 1024

/-- The most items after a HEAD (R58, R63); `none` where the instance carries DATA items only (R59). -/
def fifoMaxPacket : FifoKind → Option Nat
  | .hbmRead => none
  | .hbmWrite => none
  | .linkIn => some 31
  | .linkOut => some 31
  | .fabRx => some 63
  | .fabTx => some 63
  | .hostRx => some 145
  | .hostTx => some 145
  | .ingestRx => some 145
  | .mgmtRx => some 381
  | .mgmtTx => some 381

/-- HIGH and LOW at reset (R58). -/
def fifoMarks : FifoKind → Nat × Nat
  | .hbmRead => (12, 8)
  | .hbmWrite => (12, 8)
  | .linkIn => (24, 16)
  | .linkOut => (24, 16)
  | .fabRx => (48, 32)
  | .fabTx => (48, 32)
  | .hostRx => (192, 128)
  | .hostTx => (192, 128)
  | .ingestRx => (8192, 4096)
  | .mgmtRx => (3072, 2048)
  | .mgmtTx => (768, 512)

def fifoKindCode : FifoKind → Nat
  | .hbmRead => 0
  | .hbmWrite => 1
  | .linkIn => 2
  | .linkOut => 3
  | .fabRx => 4
  | .fabTx => 5
  | .hostRx => 6
  | .hostTx => 7
  | .ingestRx => 8
  | .mgmtRx => 9
  | .mgmtTx => 10

/-- The key of an instance in the state. -/
def fifoKey (f : FifoId) : Nat := fifoKindCode f.kind * 1024 + f.idx

/-- The idle item (R65). -/
def idleItem : FifoItem := { tag := .idle, bits := 0, len := none, abort := false }

/-- An instance at reset (R69, R72). -/
def fifoReset (k : FifoKind) : Fifo :=
  { items := [], wptr := 0, rptr := 0, wptrSeen := 0, rptrSeen := 0, empty := true, full := false, flow := false,
    high := (fifoMarks k).1, low := (fifoMarks k).2, peak := 0, resets := 0, aborted := 0, discard := false,
    lastRead := idleItem }

def State.fifo (s : State) (f : FifoId) : Fifo := tabGet s.fifos (fifoReset f.kind) (fifoKey f)

def State.setFifo (s : State) (f : FifoId) (x : Fifo) : State := { s with fifos := tabSet s.fifos (fifoKey f) x }

/-- The clocked-side unit of an instance and its index n in that unit's register pairs (R58, R69). -/
def fifoUnit (f : FifoId) : RegUnit × Nat :=
  match f.kind with
  | .hbmRead => (.die (fin4 (f.idx / 64 / 3)) ⟨5 + f.idx / 64 % 3, by omega⟩, f.idx % 64)
  | .hbmWrite => (.die (fin4 (f.idx / 64 / 3)) ⟨5 + f.idx / 64 % 3, by omega⟩, 64 + f.idx % 64)
  | .linkIn => (.link (fin2 (f.idx / 8)) 0x14, f.idx % 8)
  | .linkOut => (.link (fin2 (f.idx / 8)) 0x14, 8 + f.idx % 8)
  | .fabRx => (.link (fin2 (f.idx / 8)) (f.idx % 8), 0)
  | .fabTx => (.link (fin2 (f.idx / 8)) (f.idx % 8), 1)
  | .hostRx => (.link (fin2 f.idx) 0x10, 0)
  | .hostTx => (.link (fin2 f.idx) 0x10, 1)
  | .ingestRx => (.link (fin2 f.idx) 0x11, 0)
  | .mgmtRx => (.link 0 0x23, 0)
  | .mgmtTx => (.link 0 0x23, 1)

/-- The identifier of a register block's unit (R39). -/
def regUid : RegUnit → BitVec 16
  | .engine n e => uidEngine n.val e.val
  | .cluster g u => uidCluster g.val u.val
  | .die d u => uidDie d.val u.val
  | .link l u => uidLink l.val u

/-- The beds of the two sides of an instance. -/
def fifoBeds (f : FifoId) : List (Fin 62) :=
  match f.kind with
  | .hbmRead => [bedStack (f.idx / 64)]
  | .hbmWrite => [bedStack (f.idx / 64)]
  | .linkIn => [bedHost (f.idx / 8), bedDie (f.idx / 8 * 2 + f.idx % 8 / 4)]
  | .linkOut => [bedHost (f.idx / 8), bedDie (f.idx / 8 * 2 + f.idx % 8 / 4)]
  | .fabRx => [bedPort f.idx, bedHost (f.idx / 8)]
  | .fabTx => [bedPort f.idx, bedHost (f.idx / 8)]
  | .hostRx => [bedHost f.idx]
  | .hostTx => [bedHost f.idx]
  | .ingestRx => [bedHost f.idx, bedIngest f.idx]
  | .mgmtRx => [bedRot]
  | .mgmtTx => [bedRot]

/-- The units on the two sides of an instance that can be fenced (R71, R569). -/
def fifoFenceUnits (f : FifoId) : List (BitVec 16) :=
  match f.kind with
  | .hbmRead => [uidStack (f.idx / 64)]
  | .hbmWrite => [uidStack (f.idx / 64)]
  | .linkIn => [uidDie (f.idx / 8 * 2 + f.idx % 8 / 4) 3, uidDie (f.idx / 8 * 2 + f.idx % 8 / 4) 8]
  | .linkOut => [uidDie (f.idx / 8 * 2 + f.idx % 8 / 4) 3, uidDie (f.idx / 8 * 2 + f.idx % 8 / 4) 8]
  | .fabRx => [uidPort f.idx]
  | .fabTx => [uidPort f.idx]
  | .hostRx => [uidLink f.idx 0x10]
  | .hostTx => [uidLink f.idx 0x10]
  | .ingestRx => [uidLink f.idx 0x10, uidLink f.idx 0x11]
  | _ => []

/-- An instance that works: both sides on, neither fenced (R71, R73). -/
def State.fifoWorks (s : State) (f : FifoId) : Bool :=
  f.ok && (fifoBeds f).all s.bedOn && !(fifoFenceUnits f).any s.fenced

/-- Writer-side occupancy (R68). -/
def fifoOccupancy (x : Fifo) : Nat := x.wptr - x.rptrSeen

/-- Items up to the first HEAD whose LEN is not written: those the reader may see (R62). -/
def visibleItems : List FifoItem → Nat
  | [] => 0
  | i :: t => if i.tag = .head ∧ i.len = none then 0 else visibleItems t + 1

/-- The flow-control output (R68): asserts at HIGH, and stays until occupancy is at LOW or below. -/
def flowNext (flow : Bool) (occ high low : Nat) : Bool :=
  if high ≤ occ then true else if occ ≤ low then false else flow

/-- FULL, PEAK and FLOW after the writer's side has changed (R66, R68). -/
def fifoWriterFlags (depth : Nat) (x : Fifo) : Fifo :=
  let occ := fifoOccupancy x
  { x with full := decide (depth ≤ occ), peak := max x.peak occ, flow := flowNext x.flow occ x.high x.low }

/-- The items of the packet being written, HEAD included; none when no packet is open. -/
def openPacket (xs : List FifoItem) : Option Nat :=
  let k := visibleItems xs
  if k < xs.length then some (xs.length - k) else none

/-- The low and high words of a FIFO's register pair (R69). -/
def fifoWm (x : Fifo) : Nat := x.high % 65536 + x.low % 65536 * 65536

def fifoStatus (x : Fifo) : Nat :=
  fifoOccupancy x % 65536 + b2n x.empty * 2 ^ 16 + b2n x.full * 2 ^ 17 + b2n x.flow * 2 ^ 18 +
    satAt 255 x.resets * 2 ^ 24 + x.peak % 65536 * 2 ^ 32

/-! ### The packet buffer pool (R459, R460) -/

def poolCells : Nat := 196608

def vectorSum (v : Vector Nat 9) : Nat := v.toList.foldl (· + ·) 0

/-- Shared cells in use: every channel's use beyond its reservation. -/
def sharedUsed (p : Pool) : Nat := ((List.finRange 9).map (fun (n : Fin 9) => p.used[n] - p.reserve[n])).foldl (· + ·) 0

/-- Whether a channel can take n more cells (R460). -/
def poolCanTake (p : Pool) (ch : Fin 9) (n : Nat) : Bool :=
  let now := p.used[ch] - p.reserve[ch]
  let then_ := p.used[ch] + n - p.reserve[ch]
  decide (p.used[ch] + n ≤ p.reserve[ch] ∨
    (p.used[ch] + n ≤ p.cap[ch] ∧ sharedUsed p + (then_ - now) ≤ poolCells - vectorSum p.reserve))

def poolTake (p : Pool) (ch : Fin 9) (n : Nat) : Pool :=
  { p with used := p.used.set ch (p.used[ch] + n), peak := p.peak.set ch (max p.peak[ch] (p.used[ch] + n)) }

def poolGive (p : Pool) (ch : Fin 9) (n : Nat) : Pool := { p with used := p.used.set ch (p.used[ch] - n) }

/-! ### Pauses (R74 to R76, R468) -/

/-- XOFF_x_n is held low and the ingest priority paused (R74 to R76). -/
def State.ingestPaused (s : State) (i : Fin 2) : Bool :=
  s.bedOn (bedHost i.val) && (!s.bedOn (bedIngest i.val) || s.fenced (uidLink i.val 0x11) ||
    (s.fifo { kind := .ingestRx, idx := i.val }).flow)

/-- The pool's priorities are paused: by the host receive FIFO, at the CAP of channel 8, or while the channel can take no cell
(R460, R468). -/
def State.poolPaused (s : State) (h : Fin 2) : Bool :=
  s.bedOn (bedHost h.val) && ((s.fifo { kind := .hostRx, idx := h.val }).flow || !poolCanTake s.pools[h] 8 1)

/-- The lossless priorities other than the ingest priority (R468). -/
def State.poolPriorities (s : State) (h : Fin 2) : List Nat :=
  (List.range 8).filter (fun p => bitOf (s.objNum 0x6030 4) p && decide (p ≠ s.hosts[h].ingestPrio))

def State.send (s : State) (m : Sent) : State := { s with sent := s.sent ++ [m] }

/-- The sub-ports of a breakout (R466). -/
def subPortCount (breakout : Nat) : Nat := if breakout = 0 then 1 else if breakout = 1 then 2 else 4

/-- The sub-ports of a host port whose links are up. -/
def State.subsUp (s : State) (h : Fin 2) : List (Fin 4) :=
  (List.finRange 4).filter (fun i => decide (i.val < subPortCount s.hosts[h].breakout) && s.hosts[h].subs[i].link)

/-- Sends a PFC frame for a priority on each sub-port (R74, R466, R468). -/
def State.sendPfc (s : State) (h : Fin 2) (prio time : Nat) : State :=
  (s.subsUp h).foldl (fun s i =>
    (s.send (.pfc h.val i.val prio time)).modHost h (fun p => { p with pfcTx := wrap64 p.pfcTx 1 })) s

def State.sendPfcs (s : State) (h : Fin 2) (prios : List Nat) (time : Nat) : State :=
  prios.foldl (fun s p => s.sendPfc h p time) s

/-- Brings a host port's pauses in line with R74 and R468: a frame with time 0xFFFF when a pause begins, one with
time 0 when it ends. A port whose HOST bed is off sends nothing. -/
def State.syncPause (s : State) (h : Fin 2) : State :=
  let ing := s.ingestPaused h
  let pool := s.poolPaused h
  let on := s.bedOn (bedHost h.val)
  let s := if ing = s.hosts[h].ingestPausing then s else
    (if on then s.sendPfc h s.hosts[h].ingestPrio (if ing then 0xFFFF else 0) else s).modHost h
      (fun p => { p with ingestPausing := ing })
  if pool = s.hosts[h].pausing then s else
    (if on then s.sendPfcs h (s.poolPriorities h) (if pool then 0xFFFF else 0) else s).modHost h
      (fun p => { p with pausing := pool })

/-! ### What leaves a host port or the agent (R58, R468, R470) -/

def State.modSub (s : State) (h : Fin 2) (i : Fin 4) (f : SubPort → SubPort) : State :=
  s.modHost h (fun p => { p with subs := p.subs.set i (f p.subs[i]) })

/-- A sub-port that may send other frames than PFC: its link is up, and it has keys unless none are required (R470). -/
def State.subSends (s : State) (h : Fin 2) (i : Fin 4) : Bool :=
  s.hosts[h].subs[i].link && (s.hosts[h].subs[i].keyed || decide (s.objNum 0x6030 5 = 0))

/-- A frame waits: its priority is paused at its sub-port, or the host transmit FIFO asserts FLOW (R58, R468). -/
def State.frameWaits (s : State) (h : Fin 2) (i : Fin 4) (prio : Nat) : Bool :=
  (tabFind s.hosts[h].subs[i].paused prio).isSome || (s.fifo { kind := .hostTx, idx := h.val }).flow

/-- Frames that a sub-port sends: counted, and numbered under its association (R469). -/
def State.framesOut (s : State) (h : Fin 2) (sub n : Nat) : State :=
  (s.modHost h (fun p => { p with framesTx := wrap64 p.framesTx n })).modSub h (fin4 sub) (fun x =>
    { x with txPn := if x.keyed then tabSet x.txPn x.txAn (tabGet x.txPn 0 x.txAn + n) else x.txPn })

/-- SSCIs of the device and of its peer (R537). -/
def ssciDevice : Nat := 1
def ssciPeer : Nat := 2

/-- The IV of GCM-AES-256-XPN: SSCI and packet number, with the salt added (R518, R537; PRESUMED: IEEE 802.1AE, log entry 5). -/
def macsecIv (ssci pn : Nat) (salt : BitVec 96) : List Byte :=
  List.zipWith (· ^^^ ·) ((leBytes 4 ssci).reverse ++ (leBytes 8 pn).reverse) (leBytes 12 salt.toNat)

/-- A message as it leaves a sub-port: under the transmit association, once there is one (R469, R537). -/
def SubPort.secure (x : SubPort) (m : Sent) : Sent :=
  match tabFind x.keys x.txAn with
  | some k => if x.keyed then .secured x.txAn (macsecIv ssciDevice (tabGet x.txPn 0 x.txAn + 1) k.2) m else m
  | none => m

/-- Sends a message of a host port, or holds it back. One for a sub-port that may not send is not sent at all. -/
def State.sendFrame (s : State) (e : HeldFrame) : State :=
  let i := fin4 e.sub
  if !s.subSends e.host i then s
  else if s.frameWaits e.host i e.prio then { s with heldHost := s.heldHost ++ [e] }
  else (s.send (s.hosts[e.host].subs[i].secure e.msg)).framesOut e.host e.sub e.frames

/-- Messages held back go out, as far as they may now, in their order. -/
def State.flushHost (s : State) : State := s.heldHost.foldl State.sendFrame { s with heldHost := [] }

/-- Sends a message of the Breop agent, or holds it back while the management transmit FIFO asserts FLOW (R58). -/
def State.sendMgmt (s : State) (m : Sent) : State :=
  if (s.fifo { kind := .mgmtTx, idx := 0 }).flow then { s with heldMgmt := s.heldMgmt ++ [m] } else s.send m

def State.flushMgmt (s : State) : State := s.heldMgmt.foldl State.sendMgmt { s with heldMgmt := [] }

end Sys2Proof.Machine
end

