-- ==== Sys2Proof/Machine/FabricOps.lean ====
section
/-! DEFINITION. FabricOps.lean: coordinates, routes and trees of the fabric, and sending a transport packet (R434 to
R441, R449 to R460). -/

namespace Sys2Proof.Machine

/-- DEV_NUMBER, SHAPE, EXPRESS_EN and TREE_ROOT in force (R464). -/
def State.devNumber (s : State) : Nat := s.fabInForce.1
def State.shape (s : State) : Nat := s.fabInForce.2.1
def State.expressEn (s : State) : Bool := decide (s.fabInForce.2.2.1 = 1)
def State.treeRoot (s : State) : Nat := s.fabInForce.2.2.2

/-- Ring size of a dimension, 0 X, 1 Y, 2 Z (R435). -/
def dimSize (shape d : Nat) : Nat := 2 ^ bitsOf shape (3 * d + 2) (3 * d)

def shapeSize (shape : Nat) : Nat := dimSize shape 0 * dimSize shape 1 * dimSize shape 2

/-- A SHAPE that R436 accepts: no log2 field above 5 and no reserved bit (R7 ignores none in an object). -/
def shapeOk (shape : Nat) : Bool :=
  decide (bitsOf shape 2 0 ≤ 5 ∧ bitsOf shape 5 3 ≤ 5 ∧ bitsOf shape 8 6 ≤ 5 ∧ shape < 512)

/-- A device's coordinate in a dimension (R435). -/
def devCoord (shape n d : Nat) : Nat :=
  match d with
  | 0 => n % dimSize shape 0
  | 1 => n / dimSize shape 0 % dimSize shape 1
  | _ => n / (dimSize shape 0 * dimSize shape 1) % dimSize shape 2

def devAt (shape x y z : Nat) : Nat := x + dimSize shape 0 * (y + dimSize shape 1 * z)

/-- The device whose coordinate in dimension d is c and whose others are those of n. -/
def devWith (shape n d c : Nat) : Nat :=
  match d with
  | 0 => devAt shape c (devCoord shape n 1) (devCoord shape n 2)
  | 1 => devAt shape (devCoord shape n 0) c (devCoord shape n 2)
  | _ => devAt shape (devCoord shape n 0) (devCoord shape n 1) c

/-- Express ports in use in a dimension (R437). -/
def expressInUse (shape : Nat) (en : Bool) (d : Nat) : Bool := en && decide (d < 2 ∧ 8 ≤ dimSize shape d)

/-- A role number of R434 is in use under a shape. -/
def roleInUse (shape : Nat) (en : Bool) (role : Nat) : Bool :=
  if role < 6 then decide (1 < dimSize shape (role / 2)) else expressInUse shape en (role - 6)

/-- The dimension of a role (R434): 0 X+, 1 X-, 2 Y+, 3 Y-, 4 Z+, 5 Z-, 6 X express, 7 Y express. -/
def roleDim (role : Nat) : Nat := if role < 6 then role / 2 else role - 6

/-- The neighbour that a role reaches (R434). -/
def roleNeighbour (shape n role : Nat) : Nat :=
  let d := roleDim role
  let size := dimSize shape d
  let c := devCoord shape n d
  let c' := if 6 ≤ role then (c + size / 2) % size else if role % 2 = 0 then (c + 1) % size else (c + size - 1) % size
  devWith shape n d c'

/-- The role that faces a role across a link (R434). -/
def roleOpposite (role : Nat) : Nat := if 6 ≤ role then role else if role % 2 = 0 then role + 1 else role - 1

/-- The signed distance in a dimension, in (-D/2, D/2] (R438). -/
def dimDelta (shape here dst d : Nat) : Int :=
  let size := dimSize shape d
  let x := (devCoord shape dst d + size - devCoord shape here d) % size
  if size / 2 < x then (x : Int) - size else x

/-- The role of the ring hop toward a signed distance. -/
def ringRole (d : Nat) (delta : Int) : Nat := if 0 < delta then 2 * d else 2 * d + 1

/-- The hop of R438 in one dimension. -/
def hopIn (shape : Nat) (en : Bool) (here dst d : Nat) : Option Nat :=
  let delta := dimDelta shape here dst d
  if delta = 0 then none
  else if d ≠ 2 ∧ expressInUse shape en d ∧ dimSize shape d / 4 < delta.natAbs then some (6 + d)
  else some (ringRole d delta)

/-- The role of the first hop under R438; `none` delivers here. -/
def nextRole (shape : Nat) (en : Bool) (here dst : Nat) : Option Nat :=
  firstSome (hopIn shape en here dst) [0, 1, 2]

/-- The side of a flow (R439). -/
def flowSide (src dst fvc : Nat) : Nat := (src + dst + fvc) % 2

def State.portUp (s : State) (p : Fin 16) : Bool := decide (s.ports[p].state = .up)

/-- A role's port on a side that is UP. -/
def State.upPort (s : State) (role side : Nat) : Option (Fin 16) :=
  let p := fin16 (role + 8 * side)
  if s.portUp p then some p else none

/-- A port for a role: on the flow's side, else on the other; the Bool says that it crosses to the other side. -/
def State.portFor (s : State) (role side : Nat) : Option (Fin 16 × Bool) :=
  match s.upPort role side with
  | some p => some (p, false)
  | none => (s.upPort role (1 - side)).map (fun p => (p, true))

/-- The role that goes on round the ring instead of back through the port by which a packet came (R441 rule 3). -/
def onward (came : Option Nat) (role : Nat) : Nat := if came = some role ∧ role < 6 then roleOpposite role else role

/-- A route's next port (R438, R441): the port, whether it crosses sides, whether the route has changed. `came` is the role of the
port by which a packet in transit came: one that goes the opposite way round its ring keeps its way, and one that could only go
back has no route left. -/
def State.route (s : State) (dst side : Nat) (came : Option Nat := none) : Option (Fin 16 × Bool × Bool) :=
  match nextRole s.shape s.expressEn s.devNumber dst with
  | none => none
  | some first =>
    let role := onward came first
    match s.portFor role side with
    | some (p, x) => some (p, x, x || decide (role ≠ first))
    | none =>
      let d := roleDim first
      let ring := onward came (ringRole d (dimDelta s.shape s.devNumber dst d))
      match (if 6 ≤ role then s.portFor ring side else none) with
      | some (p, x) => some (p, x, true)
      | none =>
        if came = some (roleOpposite ring) then none
        else (s.portFor (roleOpposite ring) side).map (fun r => (r.1, r.2, true))

/-- The class bit of a hop (R440): 0 at injection and at a change of dimension, 1 after the ring's seam. -/
def hopClass (shape here role : Nat) (fromDim : Option Nat) (cls : Bool) : Bool :=
  let d := roleDim role
  let c := if fromDim = some d then cls else false
  if 6 ≤ role then c
  else
    let x := devCoord shape here d
    let seam := if role % 2 = 0 then decide (x + 1 = dimSize shape d) else decide (x = 0)
    c || seam

/-! ### Reduction trees (R454) -/

/-- The parent of a device in the tree rooted at `root`, `none` at the root: the first hop toward the root along X,
then Y, then Z. -/
def treeParent (shape : Nat) (en : Bool) (root n : Nat) : Option Nat :=
  (nextRole shape en n root).map (roleNeighbour shape n)

/-- The children of a device in one stage, in the order of R454: coordinate -1, coordinate +1, express. -/
def stageChildren (shape : Nat) (en : Bool) (root n d : Nat) : List Nat :=
  let cand := [roleNeighbour shape n (2 * d + 1), roleNeighbour shape n (2 * d)] ++
    (if expressInUse shape en d then [roleNeighbour shape n (6 + d)] else [])
  (cand.eraseDups).filter (fun m => decide (m ≠ n) && decide (treeParent shape en root m = some n) &&
    decide ((List.range d).all (fun e => devCoord shape m e = devCoord shape root e)) &&
    decide (devCoord shape m d ≠ devCoord shape root d))

/-- All children of a device, stage by stage. -/
def treeChildren (shape : Nat) (en : Bool) (root n : Nat) : List (List Nat) :=
  [0, 1, 2].map (stageChildren shape en root n)

/-! ### The packet buffer pool (R459) -/

def packetCells (p : Packet) : Nat := cdiv (32 + p.payload.length) 256

def fin9 (n : Nat) : Fin 9 := Fin.ofNat 9 n

/-- The link die of a fabric port, and its channel. -/
def portDie (p : Fin 16) : Fin 2 := fin2 (p.val / 8)
def portChannel (p : Fin 16) : Fin 9 := fin9 (p.val % 8)

/-! ### Recovery (R112) -/

def State.openRecovery (s : State) (k : RecoveryKind) : State :=
  if s.health.recovery.contains k then s
  else s.modHealth (fun h => { h with recovery := h.recovery ++ [k],
                                      recoverySince := if h.recovery = [] then s.aon.rtc else h.recoverySince })

def State.closeRecovery (s : State) (k : RecoveryKind) : State :=
  s.modHealth (fun h =>
    let r := h.recovery.filter (fun x => x ≠ k)
    { h with recovery := r, recoveryRaised := h.recoveryRaised && !r.isEmpty })

/-- While recovery is open, no DEVICE or SYSTEM arrival goes up and no DIE or DEVICE barrier is released (R112). -/
def State.recoveryOpen (s : State) : Bool := !s.health.recovery.isEmpty

/-! ### Sending (R449 to R452) -/

/-- Cells that a packet took are free again; a channel by whose port it came owes the sender credits (R447, R459). -/
def State.giveCells (s : State) (charged : Option Nat) (owes : Bool) (sel n : Nat) : State :=
  match charged with
  | none => s
  | some x =>
    let s := s.modPool (fin2 (x / 16)) (fun y => poolGive y (fin9 (x % 16)) n)
    if owes then
      s.modPort (fin16 (8 * (x / 16) + x % 16)) (fun y => { y with owed := tabSet y.owed sel (tabGet y.owed 0 sel + n) })
    else s

/-- The number of a pair of virtual channel and class (R444 CREDIT_SEL). -/
def creditSel (vc : Nat) (cls : Bool) : Nat := 2 * vc + b2n cls

/-- The cells of a packet; VC2 needs none (R447). -/
def cellsOf (p : Packet) : Nat := if p.fvc = 2 then 0 else packetCells p

/-- Frees the cells of an entry. -/
def State.giveEntry (s : State) (e : TxEntry) : State :=
  s.giveCells e.charged (!e.crossed) (creditSel e.packet.fvc e.inCls) (cellsOf e.packet)

/-- A packet of this device, to be queued. -/
def ownEntry (p : Packet) : TxEntry :=
  { packet := p, inRole := none, inCls := false, cls := false, charged := none, crossed := false, rerouted := false }

/-- Queues an entry at the port of its route; `none` where no route is left (R441). One that crosses the compute dies on its way
through leaves the pool by which it came (R459). `moved` marks one that is re-routed. -/
def State.queueEntry (s : State) (e : TxEntry) (side : Nat) (moved : Bool) : Option State :=
  match s.route e.packet.dst side e.inRole with
  | none => none
  | some (port, crossed, changed) =>
    let through := e.inRole.isSome && (crossed || e.crossed)
    let e' : TxEntry :=
      { e with cls := hopClass s.shape s.devNumber (port.val % 8) (e.inRole.map roleDim) e.inCls
               charged := if through then none else e.charged
               crossed := through, rerouted := moved || changed }
    let s := if through then s.giveEntry e else s
    let s := s.modPort port (fun x => { x with txQueue := x.txQueue ++ [e'] })
    let s := if crossed then s.modPool (portDie port) (fun x => { x with crossings := wrap64 x.crossings 1 }) else s
    some (if moved || changed then s.openRecovery .route else s)

def State.txFlow (s : State) (dst fvc : Nat) : TxFlow :=
  ((s.txFlows.find? (fun f => decide (f.dst = dst ∧ f.fvc = fvc))).getD
    { dst := dst, fvc := fvc, nextPsn := 0, unacked := [] })

def State.setTxFlow (s : State) (f : TxFlow) : State :=
  if s.txFlows.any (fun x => decide (x.dst = f.dst ∧ x.fvc = f.fvc)) then
    { s with txFlows := modFirst (fun x => decide (x.dst = f.dst ∧ x.fvc = f.fvc)) (fun _ => f) s.txFlows }
  else { s with txFlows := s.txFlows ++ [f] }

/-- The class:code, device and type of an unreachable device (R441). -/
def failUnreachable (dev ptype : Nat) : Fail := { code := 0x0204, arg0 := dev, arg1 := ptype }

def ptypeCode : PType → Nat
  | .write => 1
  | .rowReq => 2
  | .rowResp => 3
  | .scatterAdd => 4
  | .reduce => 5
  | .barrierArrive => 6
  | .barrierRelease => 7
  | .e2eAck => 8
  | .e2eNak => 9
  | .unreachable => 10

def ptypeOfCode (c : Nat) : Option PType :=
  match c with
  | 1 => some .write
  | 2 => some .rowReq
  | 3 => some .rowResp
  | 4 => some .scatterAdd
  | 5 => some .reduce
  | 6 => some .barrierArrive
  | 7 => some .barrierRelease
  | 8 => some .e2eAck
  | 9 => some .e2eNak
  | 10 => some .unreachable
  | _ => none

/-- The virtual channel of a packet type (R450). -/
def ptypeVc : PType → Nat
  | .write => 0
  | .rowReq => 0
  | .rowResp => 1
  | .scatterAdd => 3
  | .reduce => 3
  | .barrierArrive => 2
  | .barrierRelease => 2
  | .e2eAck => 2
  | .e2eNak => 2
  | .unreachable => 1

/-- The most payload bytes of a packet (R449 LEN). -/
def maxPayload : Nat := 4096

/-- A payload as the payloads of packets, each of at most 4,096 bytes. -/
def payloadParts : Nat → List Byte → List (List Byte)
  | 0, bs => [bs]
  | n + 1, bs => if bs.length ≤ maxPayload then [bs] else bs.take maxPayload :: payloadParts n (bs.drop maxPayload)

/-- Sends one packet on its flow: numbered, kept until acknowledged (R451, R452). Fails where no route is left. -/
def State.sendOne (s : State) (dst : Nat) (t : PType) (step : Nat) (key0 key1 : Nat) (payload : List Byte) : Except Fail State :=
  let fvc := ptypeVc t
  let f := s.txFlow dst fvc
  let p : Packet :=
    { dst := dst, src := s.devNumber, ptype := t, fvc := fvc, psn := f.nextPsn, step := step,
      key0 := BitVec.ofNat 64 key0, key1 := BitVec.ofNat 64 key1, payload := payload }
  match s.queueEntry (ownEntry p) (flowSide s.devNumber dst fvc) false with
  | none => .error (failUnreachable dst (ptypeCode t))
  | some s => .ok (s.setTxFlow { f with nextPsn := (f.nextPsn + 1) % 2 ^ 32, unacked := f.unacked ++ [p] })

/-- Sends payloads one after the other, a WRITE's at rising addresses. -/
def State.sendParts (s : State) (dst : Nat) (t : PType) (step : Nat) (key0 key1 : Nat) : List (List Byte) → Except Fail State
  | [] => .ok s
  | b :: rest =>
    match s.sendOne dst t step key0 key1 b with
    | .error f => .error f
    | .ok s => s.sendParts dst t step (if t = .write then key0 + b.length else key0) key1 rest

/-- Sends a packet, or, where its payload is longer than LEN can say, several in a row (R449; log entry 12). -/
def State.sendPacket (s : State) (dst : Nat) (t : PType) (step : Nat) (key0 key1 : Nat) (payload : List Byte) :
    Except Fail State := s.sendParts dst t step key0 key1 (payloadParts (payload.length / maxPayload) payload)

/-- The PSN of the packet sent last on a flow. -/
def State.lastPsn (s : State) (dst fvc : Nat) : Nat := ((s.txFlow dst fvc).nextPsn + 2 ^ 32 - 1) % 2 ^ 32

/-- A packet that has no route at its source counts as UNREACHABLE, and its device as gone (R441, R455). -/
def State.countNoRoute (s : State) (dst : Nat) (t : PType) : State :=
  let s := s.modPool (fin2 (flowSide s.devNumber dst (ptypeVc t))) (fun x => { x with unreachable := wrap64 x.unreachable 1 })
  { s with gone := dst :: s.gone.filter (fun n => n ≠ dst) }

/-- The same for the failure of a descriptor that could not send. -/
def State.noRoute (s : State) (f : Fail) : State :=
  if f.code = 0x0204 then s.countNoRoute f.arg0 ((ptypeOfCode f.arg1).getD .write) else s

/-- As `sendPacket`, dropping a packet that has no route, which counts. -/
def State.trySend (s : State) (dst : Nat) (t : PType) (step key0 key1 : Nat) (payload : List Byte) : State :=
  match s.sendPacket dst t step key0 key1 payload with
  | .ok s' => s'
  | .error _ => s.countNoRoute dst t

end Sys2Proof.Machine
end

