-- ==== Sys2Proof/Machine/Queues.lean ====
section
/-! DEFINITION. Queues.lean: tokens, engine queues, starting and ending descriptors (R84 to R99, R555). -/

namespace Sys2Proof.Machine

/-! ### Tokens (R84 to R88) -/

def Cluster.token (c : Cluster) (n : Nat) : Token := tabGet c.tokens .reset (n % 4096)

/-- Token n is present for Season S (R85). -/
def Cluster.present (c : Cluster) (n season : Nat) : Bool :=
  let t := c.token n
  decide (t.expect.toNat ≤ (if season % 2 = 0 then t.even else t.odd).toNat)

def Cluster.allPresent (c : Cluster) (ns : List Nat) (season : Nat) : Bool := ns.all (fun n => c.present n season)

/-- Counts a post of Season S (R84). -/
def tokenCount (t : Token) (season : Nat) : Token :=
  if season % 2 = 0 then { t with even := BitVec.ofNat 8 (satAt 255 (t.even.toNat + 1)) }
  else { t with odd := BitVec.ofNat 8 (satAt 255 (t.odd.toNat + 1)) }

def Cluster.setToken (c : Cluster) (n : Nat) (t : Token) : Cluster := { c with tokens := tabSet c.tokens (n % 4096) t }

/-- Clears both counts of the bank of a Season (R104). -/
def clearBank (season : Nat) (ts : Tab Token) : Tab Token :=
  ts.map (fun p => (p.1, if season % 2 = 0 then { p.2 with even := 0 } else { p.2 with odd := 0 }))

/-- Puts a token post on its way (R89, R92). -/
def State.postToken (s : State) (p : Post) : State := { s with posts := s.posts ++ [p] }

/-! ### Barrier entries and arrivals (R103, R108, R109) -/

def Cluster.entriesOf (c : Cluster) (sc : Scope) : List LaunchEntry :=
  (c.launch.map (·.2)).filter (fun e => e.isBarrier && decide (e.season = c.season) && decide (e.scope = sc))

/-- The payload of an arrival (R109, R110): FP32 sums from +0.0 and bitwise OR, in ascending entry index. `addF32` is
the addition of R110. -/
def arrivalPayload (addF32 : U32 → U32 → U32) (regs : Vector Word 32) (es : List LaunchEntry) : U32 × U32 :=
  es.foldl (fun a e =>
    if e.payloadEn then
      let v := if e.payloadReg = 0 then 0 else regs[fin32 e.payloadReg]
      (addF32 a.1 (v.setWidth 32), a.2 ||| (v >>> 32).setWidth 32)
    else a) (0, 0)

/-- Every LAUNCH entry of the current Season has fired. -/
def Cluster.launchesFired (c : Cluster) : Bool :=
  (c.launch.map (·.2)).all (fun e => !(e.isLaunch && decide (e.season = c.season)))

/-- The local waits of every BARRIER entry of the current Season are present, or were when its arrival was sent or it was
released. -/
def Cluster.barrierWaits (c : Cluster) : Bool :=
  (c.launch.map (·.2)).all (fun e =>
    !(e.isBarrier && decide (e.season = c.season)) || e.released || c.sent.contains e.scope || c.allPresent e.waits c.season)

/-! ### Queues (R95 to R98) -/

def Cluster.queue (c : Cluster) (code : Nat) : Queue := tabGet c.queues .empty code

def Cluster.modQueue (c : Cluster) (code : Nat) (f : Queue → Queue) : Cluster :=
  { c with queues := tabSet c.queues code (f (c.queue code)) }

def State.queue (s : State) (g : Fin 32) (q : QueueId) : Queue := s.clusters[g].queue (queueCode q)

def State.modQueue (s : State) (g : Fin 32) (q : QueueId) (f : Queue → Queue) : State :=
  s.modCluster g (fun c => c.modQueue (queueCode q) f)

/-- Free places (R97). -/
def State.credits (s : State) (g : Fin 32) (q : QueueId) : Nat := queueDepth q - (s.queue g q).waiting.length

def State.enqueue (s : State) (g : Fin 32) (q : QueueId) (d : QDesc) : State :=
  s.modQueue g q (fun x => { x with waiting := x.waiting ++ [d] })

/-- Removes a started descriptor. -/
def State.endRunning (s : State) (g : Fin 32) (q : QueueId) (r : Running) : State :=
  s.modQueue g q (fun x => { x with running := delFirst (fun y => y = r) x.running })

/-- Replaces a started descriptor. -/
def State.setRunning (s : State) (g : Fin 32) (q : QueueId) (r r' : Running) : State :=
  s.modQueue g q (fun x => { x with running := modFirst (fun y => y = r) (fun _ => r') x.running })

/-- An uncorrectable read counts in UE_COUNT, and the unit is poisoned; the granule of a unit not poisoned before is retired in the
next crystal cycle (R237, R239, R240). -/
def State.countUe (s : State) (f : Fail) : State :=
  if f.code = 0x0203 then
    let unit := f.arg0 / 64 * 64
    s.modStack (fin12 f.arg1) (fun k => { k with
      ueCount := wrap64 k.ueCount 1, poisoned := if k.poisoned.contains unit then k.poisoned else k.poisoned ++ [unit],
      toRetire := if k.poisoned.contains unit then k.toRetire else k.toRetire ++ [(unit / 4096 * 4096, 1)] })
  else s

/-- The Season that an event of a queue's unit names: an update unit is its die's (R553). -/
def State.eventSeason (s : State) (q : QueueId) (season : Nat) : Nat := if q = .update then s.seasonMin else season

/-- The event of a descriptor that ends by a fault (R90, R553, R555). -/
def State.raiseDesc (s : State) (g : Fin 32) (q : QueueId) (d : QDesc) (season : Nat) (f : Fail) : State :=
  (s.countUe f).raise (queueUnit g q) f.code (s.eventSeason q season) f.arg0 f.arg1 (dctx (queueCode q) d)

/-- A started descriptor ends by a fault: no token (R90). -/
def State.failDesc (s : State) (g : Fin 32) (q : QueueId) (r : Running) (f : Fail) : State :=
  (s.endRunning g q r).raiseDesc g q r.q r.season f

/-- A started descriptor has done its work and may complete; `summary` is what it owes (R389). -/
def State.finishDesc (s : State) (g : Fin 32) (q : QueueId) (r : Running) (summary : Option Summary) : State :=
  s.setRunning g q r { r with phase := .finished, summary := summary }

/-- The first started descriptor of a queue in a phase with an opcode. -/
def State.findRunning (s : State) (g : Fin 32) (q : QueueId) (ph : Phase) (opcode : Nat) : Option Running :=
  (s.queue g q).running.find? (fun r => decide (r.phase = ph) && decide (r.q.desc.opcode = opcode))

/-- A descriptor that is done owes a summary for which there is no room: it holds its engine (R121). -/
def Cluster.waitsSummary (c : Cluster) (q : QueueId) : Bool :=
  decide (64 ≤ c.summaries.length) &&
    (c.queue (queueCode q)).running.any (fun r => decide (r.phase = .finished) && r.summary.isSome)

/-- The started descriptor that an engine works on: the first that has not done its work and is not staged. An engine that is held
works on none (R121). -/
def State.activeDesc (s : State) (g : Fin 32) (q : QueueId) : Option Running :=
  if s.clusters[g].waitsSummary q then none
  else (s.queue g q).running.find? (fun r => decide (r.phase ≠ .finished ∧ r.phase ≠ .staged))

/-- The active descriptor if its opcode is the one given. -/
def State.activeOp (s : State) (g : Fin 32) (q : QueueId) (opcode : Nat) : Option Running :=
  (s.activeDesc g q).filter (fun r => decide (r.q.desc.opcode = opcode))

/-- The first descriptor waiting at the head. -/
def State.headDesc (s : State) (g : Fin 32) (q : QueueId) : Option QDesc := (s.queue g q).waiting.head?

/-- What keeps the head of a queue from starting, or lets it start (R93, R94, R8). -/
inductive HeadState where
  | bad (offset : Nat)
  | passed
  | waits
  | ready
  deriving DecidableEq, Repr

/-- A Harrow SAMPLE with SPEC waits while an earlier command's gathers are undecided (R165). -/
def specWaits (c : Cluster) (q : QueueId) (d : Desc) : Bool :=
  match q, c.harrow.spec with
  | .harrow, some sp => decide (d.opcode = 1) && d.bit 2 54 && decide (sp.decision = .undecided)
  | _, _ => false

/-- The thread unit and Harrow start their next descriptor only once the one before it has completed (R263, R142). -/
def soloWaits (c : Cluster) (q : QueueId) : Bool :=
  match q with
  | .thread _ => !(c.queue (queueCode q)).running.isEmpty
  | .harrow => !(c.queue (queueCode q)).running.isEmpty
  | _ => false

/-- The bank cap in force is the object's value when the descriptor starts (R266, R277). -/
def State.latchCap (s : State) (g : Fin 32) (q : QueueId) : State :=
  match q with
  | .thread k => s.modThr (coreOf g k) (fun t => { t with cap := s.objNum 0x5030 1 })
  | _ => s

/-- A SAMPLE that starts becomes Harrow's current command, with the default budgets then in force, and its gathers wait for a decision
from then on (R163, R167, R168). -/
def harrowStarted (d : Desc) (season : Nat) (budgets : Nat × Nat) (h : Harrow) : Harrow :=
  { h with
    budgets := budgets
    curMb := BitVec.ofNat 16 (d.bits 6 15 0), curPiece := 0
    spec := if d.bit 2 54 then
        some { season := season, confirmToken := d.bits 7 43 32, decision := .undecided, gathers := 0 }
      else h.spec }

/-- What the start of a descriptor sets in its engine. -/
def State.latchStart (s : State) (g : Fin 32) (q : QueueId) (d : Desc) : State :=
  match q with
  | .harrow => if d.opcode = 1 then s.modHarrow g (harrowStarted d s.clusters[g].season (s.objNum 0x4030 1, s.objNum 0x4030 2)) else s
  | _ => s.latchCap g q

/-- What keeps the head of a queue from starting. A descriptor that waits at the head for its tokens while its WAIT_SEASON passes
is faulted like one that comes to the head too late (DESIGN CHOICE: R94 names only the latter; log entry 47). -/
def headState (c : Cluster) (q : QueueId) (d : QDesc) : HeadState :=
  match headerBad q d.desc with
  | some o => .bad o
  | none =>
    let ws := d.desc.waitSeason
    if ws ≠ 0 ∧ ws < c.season then .passed
    else if (ws = 0 ∨ ws = c.season) ∧ c.allPresent d.desc.waits c.season ∧
        (d.desc.ordered → (c.queue (queueCode q)).running = []) ∧ !specWaits c q d.desc ∧ !soloWaits c q then .ready
    else .waits

/-- Takes the head descriptor out of a queue: its credit returns (R97). -/
def State.popHead (s : State) (g : Fin 32) (q : QueueId) : State :=
  s.modQueue g q (fun x => { x with waiting := x.waiting.drop 1 })

/-- The ordinal of the next descriptor started in a Season (R291 SEQ). -/
def nextOrdinal (x : Queue) (season : Nat) : Nat := if x.ordSeason = season then x.ordNext else 0

/-- Starts the head: the Season of starting and its ordinal are kept (R92, R291). -/
def State.startHead (s : State) (g : Fin 32) (q : QueueId) (d : QDesc) : State :=
  let season := s.clusters[g].season
  let ord := nextOrdinal (s.queue g q) season
  let r : Running := { q := d, season := season, ordinal := ord, phase := .started, summary := none }
  s.modQueue g q (fun x => { x with waiting := x.waiting.drop 1, running := x.running ++ [r], ordSeason := season,
                                    ordNext := ord + 1 })

/-- A queue whose engine takes work: that of the update unit only while the unit does (R421), and none whose engine waits for room
for a summary (R121). -/
def State.queueLive (s : State) (g : Fin 32) (q : QueueId) : Bool :=
  !s.clusters[g].waitsSummary q && match q with
  | .update => s.updLive (dieOfCluster g)
  | _ => true

/-- DESCRIPTOR_START (R93 to R96, R8, R51, R570, R583). -/
def execDescriptorStart (cluster : Fin 32) (queue : QueueId) (s : State) : Out :=
  if s.clusterAccepts cluster ∧ s.queueLive cluster queue then
    match s.headDesc cluster queue with
    | none => .next s
    | some d =>
      match headState s.clusters[cluster] queue d with
      | .bad o =>
        .next ((s.popHead cluster queue).raiseDesc cluster queue d s.clusters[cluster].season (failFormat d.addr o))
      | .passed =>
        .next ((s.popHead cluster queue).raiseDesc cluster queue d s.clusters[cluster].season
          { code := 0x0303, arg0 := d.desc.waitSeason, arg1 := 0xFFFF })
      | .waits => .next s
      | .ready => .next ((s.startHead cluster queue d).latchStart cluster queue d.desc)
  else .next s

/-- QUEUE_NOP (R91): a started NOP has nothing to do and may complete. -/
def execQueueNop (cluster : Fin 32) (queue : QueueId) (s : State) : Out :=
  match s.findRunning cluster queue .started 0 with
  | some r => .next (s.finishDesc cluster queue r none)
  | none => .next s

end Sys2Proof.Machine
end

