-- ==== Sys2Proof/Machine/Seasons.lean ====
section
/-! DEFINITION. Seasons.lean: token posts, launch tables, barriers and the recovery timeout (R84 to R112). -/

namespace Sys2Proof.Machine

/-! ### What follows by itself in a cluster -/

/-- BARRIER entries of scope CLUSTER whose waits are present are released (R108). -/
def releaseLocal (c : Cluster) : Cluster :=
  { c with launch := c.launch.map (fun p =>
      let e := p.2
      (p.1, if e.isBarrier && decide (e.season = c.season) && decide (e.scope = .cluster) &&
          c.allPresent e.waits c.season then { e with released := true } else e)) }

/-- Notes ARRIVE_TICK once the last LAUNCH entry has fired and every BARRIER's waits are present; an entry or an EXPECT that
changes this takes it back (R113). -/
def noteArrive (c : Cluster) : Cluster :=
  if c.launchesFired ∧ c.barrierWaits then { c with arriveTick := some (c.arriveTick.getD c.osc.tick) }
  else { c with arriveTick := none }

/-- Whether a scope's one arrival of this Season is due (R109). -/
def arrivalDue (c : Cluster) (sc : Scope) : Bool :=
  let es := c.entriesOf sc
  !es.isEmpty && !c.sent.contains sc && es.all (fun e => c.allPresent e.waits c.season)

/-- A copy of a moved shard that its new owner has not recorded holds back the arrivals of scopes DEVICE and SYSTEM for
that Season (R212 step 4). -/
def State.copiesOut (s : State) (season : Nat) (sc : Scope) : Bool :=
  decide (sc = .device ∨ sc = .system) && s.moves.any (fun m => decide (m.season = season) &&
    (decide (m.nextRow < m.rows) || m.lost || (s.txFlow m.newDevice 0).unacked.any (fun p => decide (p.ptype = .write))))

/-- Sends a scope's arrival (R109, R110). -/
def sendArrival (g : Fin 32) (s : State) (sc : Scope) : State :=
  let c := s.clusters[g]
  if arrivalDue c sc && !s.copiesOut c.season sc then
    let pl := arrivalPayload (fadd arithRne) c.seq.regs (c.entriesOf sc)
    let a : Arrival := { scope := sc, season := c.season, sender := .cluster g.val, sum := pl.1, orBits := pl.2 }
    { s.modCluster g (fun c => { c with sent := c.sent ++ [sc] }) with arrivals := s.arrivals ++ [a] }
  else s

/-- What a cluster's table does at once when a token, a Season, an entry or an EXPECT changes (R86, R103, R109). -/
def State.settle (s : State) (g : Fin 32) : State :=
  if s.clusters[g].active && s.clusterLive g then
    let s := s.modCluster g (fun c => noteArrive (releaseLocal c))
    [Scope.die, .device, .system].foldl (sendArrival g) s
  else s

/-! ### Token posts (R87, R88) -/

/-- A post arrives at a live cluster (R87). -/
def State.receivePost (s : State) (p : Post) : State :=
  let g := p.cluster
  let c := s.clusters[g]
  let tag := if p.any then c.season else p.tag
  if tag = c.season ∨ tag = c.season + 1 then
    (s.modCluster g (fun c => c.setToken p.token (tokenCount (c.token p.token) tag))).settle g
  else if tag < c.season then
    (s.modCluster g (fun c => { c with latePosts := inc16 c.latePosts })).raiseC g (uidCluster g 0) 0x0301
      tag p.token c.season
  else
    (s.modCluster g (fun c => { c with aheadPosts := inc16 c.aheadPosts })).raiseC g (uidCluster g 0) 0x0302
      tag p.token c.season

/-- A post to a cluster that takes none: DROPPED_POSTS of the posting cluster (R88). -/
def State.dropPost (s : State) (p : Post) : State :=
  match p.source with
  | some g => s.modCluster (fin32 g) (fun c => { c with droppedPosts := inc16 c.droppedPosts })
  | none => s

/-- Posts that keep their order: of one source, one stream and one destination (R122). -/
def samePath (p q : Post) : Bool := decide (p.stream ≠ 0 ∧ p.stream = q.stream ∧ p.source = q.source ∧ p.cluster = q.cluster)

/-- TOKEN_POST (R87, R88, R122): the i-th post on its way arrives, unless an earlier one of its path is still on its way. -/
def execTokenPost (i : Nat) (s : State) : Out :=
  match s.posts[i]? with
  | none => .next s
  | some p =>
    if (s.posts.take i).any (samePath p) then .next s
    else
      let s := { s with posts := listDel s.posts i }
      .next (if s.clusterLive p.cluster then s.receivePost p else s.dropPost p)

/-! ### The launch table (R99 to R102, R107) -/

/-- A LAUNCH entry that may fire but for a credit (R101). -/
def launchReady (c : Cluster) (e : LaunchEntry) : Bool :=
  e.isLaunch && decide (e.season = c.season) && c.allPresent e.waits c.season

/-- A LAUNCH entry's queue has a credit. -/
def State.launchCredit (s : State) (g : Fin 32) (e : LaunchEntry) : Bool :=
  (queueOfCode e.queue).any (fun q => decide (0 < s.credits g q))

/-- The lowest-indexed entry that fires (R101). -/
def State.launchNext (s : State) (g : Fin 32) : Option (Nat × LaunchEntry) :=
  s.clusters[g].launch.find? (fun p => launchReady s.clusters[g] p.2 && s.launchCredit g p.2)

/-- Reads the 64 bytes of a descriptor and puts it into a queue (R95). -/
def State.postDesc (s : State) (g : Fin 32) (q : QueueId) (addr : Nat) (launch : Bool) : Except Fail State :=
  match s.readChecked (.ofCluster g .any) addr 64 with
  | .error f => .error f
  | .ok bs => .ok ((s.noteRead addr 64).enqueue g q { desc := descOfBytes bs, addr := addr, launch := launch, harrow := false })

/-- LAUNCH_FIRE (R101, R102, R107). -/
def execLaunchFire (cluster : Fin 32) (s : State) : Out :=
  if s.clusterAccepts cluster ∧ s.clusters[cluster].active then
    match s.launchNext cluster with
    | none => .next s
    | some (i, e) =>
      match queueOfCode e.queue with
      | none => .next s
      | some q =>
        let season := s.clusters[cluster].season
        let s := s.modCluster cluster (fun c => { c with launch := tabSet c.launch i (launchRearm e) })
        match s.postDesc cluster q e.descAddr true with
        | .ok s => .next (s.settle cluster)
        | .error f =>
          .next (((s.countUe f).raise (uidCluster cluster 0) f.code season f.arg0 f.arg1 (dctxLaunch e.queue)).settle cluster)
  else .next s

/-! ### Aggregation (R108 to R112, R454 to R456) -/

/-- The devices that the manifest names for SYSTEM barriers (R108). -/
def State.namedDevices (s : State) : List Nat := (s.job.inForce.map (·.deviceParticipants)).getD []

/-- The clusters that the manifest names for a scope, of one die or of the device; a device that is not named has none at
SYSTEM scope (R108). -/
def State.participants (s : State) (sc : Scope) (die : Option Nat) : List (Fin 32) :=
  let ps := (s.job.inForce.map (·.participants)).getD []
  (List.finRange 32).filter (fun g => ps.contains (sc, g) && (decide (sc ≠ .system) || s.namedDevices.contains s.devNumber) &&
    (match die with
    | some d => decide (g.val / 8 = d)
    | none => true))

/-- The die control that aggregates: the die's own, or the device's, die 0 or the lowest-numbered live die. -/
def State.aggregator (s : State) (die : Option Nat) : BitVec 16 :=
  match die with
  | some d => uidDie d 8
  | none =>
    match (List.finRange 4).find? (fun d => !s.dieFenced d) with
    | some d => uidDie d.val 8
    | none => uidDie 0 8

def arrivalDie (a : Arrival) : Option Nat :=
  match a.scope, a.sender with
  | .die, .cluster g => some (g / 8)
  | _, _ => none

/-- Arrivals held for one aggregator and scope. -/
def State.heldFor (s : State) (sc : Scope) (die : Option Nat) : List Arrival :=
  s.held.filter (fun a => decide (a.scope = sc) && decide (arrivalDie a = die ∨ sc ≠ .die))

/-- A device that can be reached: it has a route, and no packet for it has come back (R441, R455). -/
def State.reaches (s : State) (m : Nat) : Bool := (s.route m 0).isSome && !s.gone.contains m

/-- More than any tree is deep: 8 hops in X, 8 in Y, 16 in Z (R438). -/
def treeDepth : Nat := 33

/-- A child, or, where it cannot be reached, its own children in its place (R455). -/
def State.effChildren (s : State) (root : Nat) : Nat → Nat → List Nat
  | 0, m => [m]
  | fuel + 1, m =>
    if s.reaches m then [m]
    else ((treeChildren s.shape s.expressEn root m).flatten).flatMap (s.effChildren root fuel)

/-- The tree children of this device, stage by stage. -/
def State.systemChildren (s : State) (root : Nat) : List (List Nat) :=
  (treeChildren s.shape s.expressEn root s.devNumber).map (fun st => st.flatMap (s.effChildren root treeDepth))

/-- The nearest ancestor that can be reached. -/
def State.effParent (s : State) (root : Nat) : Nat → Nat → Option Nat
  | 0, _ => none
  | fuel + 1, n =>
    match treeParent s.shape s.expressEn root n with
    | none => none
    | some p => if s.reaches p then some p else s.effParent root fuel p

/-- The device's own DEVICE-level aggregate (R110): within a die in cluster order, then in die order. -/
def deviceFold (as : List (Nat × U32 × U32)) : U32 × U32 :=
  let add := fadd arithRne
  let dies := (List.range 4).map (fun d =>
    (as.filter (fun x => decide (x.1 / 8 = d))).foldl (fun acc x => add acc x.2.1) 0)
  (dies.foldl add 0, as.foldl (fun o x => o ||| x.2.2) 0)

/-- Arrivals of clusters in ascending cluster order. -/
def clusterArrivals (as : List Arrival) (season : Nat) : List (Nat × U32 × U32) :=
  (List.range 32).filterMap (fun g =>
    (as.find? (fun a => decide (a.season = season) && decide (a.sender = .cluster g))).map
      (fun a => (g, a.sum, a.orBits)))

/-- Whether every participant of a scope has arrived or is fenced (R108). -/
def State.clustersIn (s : State) (sc : Scope) (die : Option Nat) (season : Nat) : Bool :=
  (s.participants sc die).all (fun g => s.clusterFenced g ||
    (s.heldFor sc die).any (fun a => decide (a.season = season) && decide (a.sender = .cluster g.val)))

/-- One stage of the tree: the value so far, then the children's values in order, from +0.0 (R454, R455). -/
def stageFold (as : List Arrival) (season : Nat) (v : U32 × U32) (children : List Nat) : U32 × U32 :=
  let add := fadd arithRne
  let vals := v :: children.filterMap (fun m =>
    (as.find? (fun a => decide (a.season = season) && decide (a.sender = .device m))).map (fun a => (a.sum, a.orBits)))
  vals.foldl (fun acc x => (add acc.1 x.1, acc.2 ||| x.2)) (0, 0)

def payloadWord (v : U32 × U32) : Word := v.2.zeroExtend 64 <<< 32 ||| v.1.zeroExtend 64

/-- Whether a device's way up to the root leads through m. -/
def treePasses (shape : Nat) (en : Bool) (root m : Nat) : Nat → Nat → Bool
  | 0, n => decide (n = m)
  | fuel + 1, n => decide (n = m) || (treeParent shape en root n).any (treePasses shape en root m fuel)

/-- A child that sends values up: it, or a device below it in the tree, takes part (R108, R455). -/
def State.childForwards (s : State) (root m : Nat) : Bool := s.namedDevices.any (treePasses s.shape s.expressEn root m 64)

/-- The devices on the way from a device up to this one, both left out. -/
def State.between (s : State) (root : Nat) : Nat → Nat → List Nat
  | 0, _ => []
  | fuel + 1, n =>
    match treeParent s.shape s.expressEn root n with
    | none => []
    | some p => if p = s.devNumber then [] else p :: s.between root fuel p

/-- A value that comes from a device below a child shows that those between cannot be reached (R455). -/
def State.learnGone (s : State) (root n : Nat) : State :=
  if treePasses s.shape s.expressEn root s.devNumber 64 n then
    let ms := s.between root treeDepth n
    { s with gone := ms ++ s.gone.filter (fun m => !ms.contains m) }
  else s

/-- Whether the arrivals of a Season of every tree child that sends them are here. -/
def State.childrenIn (s : State) (season : Nat) : Bool :=
  (s.systemChildren s.treeRoot).flatten.all (fun m => !s.childForwards s.treeRoot m ||
    (s.heldFor .system none).any (fun a => decide (a.season = season) && decide (a.sender = .device m)))

/-- The release of one scope and Season of an aggregator, once complete; withheld while recovery is open (R112). An upward
arrival withheld sets HELD as a release does (DESIGN CHOICE: R113 names only a release; log entry 47). -/
def State.tryRelease (s : State) (sc : Scope) (die : Option Nat) (season : Nat) : State :=
  let as := s.heldFor sc die
  let mine := as.filter (fun a => decide (a.season = season))
  if mine.isEmpty ∨ !s.clustersIn sc die season ∨ (sc = .system ∧ !s.childrenIn season) then s
  else if s.recoveryOpen then
    (s.participants sc die).foldl (fun s g =>
      s.modCluster g (fun c => if c.season = season then { c with heldFlag := true } else c)) s
  else
    let back := s
    let s := { s with held := s.held.filter (fun a => !mine.contains a) }
    let own := deviceFold (clusterArrivals as season)
    let own := if sc = .system ∧ !s.namedDevices.contains s.devNumber then (0, 0) else own
    match sc with
    | .system =>
      let v := (s.systemChildren s.treeRoot).foldl (stageFold as season) own
      match s.effParent s.treeRoot treeDepth s.devNumber with
      | none => if s.devNumber ≠ s.treeRoot then back else { s with releases := s.releases ++ [{ scope := sc, season := season, die := none, payload := payloadWord v }] }
      | some p => s.trySend p .barrierArrive 0 season (payloadWord v).toNat []
    | _ => { s with releases := s.releases ++ [{ scope := sc, season := season, die := die, payload := payloadWord own }] }

/-- Tries every scope and Season held: after an arrival, a fence (R108) or the end of a recovery (R112). -/
def State.settleBarriers (s : State) : State :=
  (s.held.map (fun a => (a.scope, arrivalDie a, a.season))).eraseDups.foldl
    (fun s k => s.tryRelease k.1 k.2.1 k.2.2) s

/-- Whether the manifest names an arrival's sender for its scope, or the tree makes it a child (R108, R454). -/
def State.arrivalNamed (s : State) (a : Arrival) : Bool :=
  match a.sender with
  | .cluster g => (s.participants a.scope (arrivalDie a)).any (fun h => decide (h.val = g))
  | .die _ => false
  | .device n => (s.systemChildren s.treeRoot).flatten.contains n && s.childForwards s.treeRoot n

def senderNumber : ArrivalFrom → Nat
  | .cluster g => g
  | .die d => d
  | .device n => n

/-- An aggregator holds arrivals for at most two Seasons of one scope (R109). -/
def State.skewed (s : State) (a : Arrival) : Bool :=
  let ss := ((s.heldFor a.scope (arrivalDie a)).map (·.season)).eraseDups
  !ss.contains a.season && decide (2 ≤ ss.length)

/-- What an arrival shows of the tree (R455). -/
def State.learnFrom (s : State) (a : Arrival) : State :=
  match a.sender with
  | .device n => s.learnGone s.treeRoot n
  | _ => s

/-- BARRIER_ARRIVE (R108, R109): the i-th arrival on its way reaches its aggregator. -/
def execBarrierArrive (i : Nat) (s : State) : Out :=
  match s.arrivals[i]? with
  | none => .next s
  | some a =>
    let s := { s with arrivals := listDel s.arrivals i }.learnFrom a
    let unit := s.aggregator (arrivalDie a)
    if !s.arrivalNamed a then .next (s.raiseD unit 0x0309 a.season (scopeCode a.scope) (senderNumber a.sender))
    else if s.skewed a then .next (s.raiseD unit 0x0305 a.season (scopeCode a.scope) (senderNumber a.sender))
    else if s.held.any (fun b => decide (b.scope = a.scope ∧ b.season = a.season ∧ b.sender = a.sender)) then .next s
    else .next ({ s with held := s.held ++ [a] }.tryRelease a.scope (arrivalDie a) a.season)

/-- A release reaches a participant: its entries of that scope and Season are released, and the result kept. An entry written for the
Season after its scope's arrival was sent is released with the others, whatever its waits (log entry 52). -/
def releaseIn (r : Release) (c : Cluster) : Cluster :=
  if c.season = r.season ∧ c.sent.contains r.scope then
    { c with
      launch := c.launch.map (fun p => (p.1,
        if p.2.isBarrier && decide (p.2.season = r.season) && decide (p.2.scope = r.scope)
        then { p.2 with released := true } else p.2))
      seq := { c.seq with barrierResult := r.payload } }
  else c

/-- BARRIER_RELEASE (R110): the i-th release on its way reaches its participants, and at SYSTEM scope the devices below
in the tree (R455, R456). -/
def execBarrierRelease (i : Nat) (s : State) : Out :=
  match s.releases[i]? with
  | none => .next s
  | some r =>
    let s := { s with releases := listDel s.releases i }
    let s := if r.scope = .system then
        (s.systemChildren s.treeRoot).flatten.foldl (fun s m => s.trySend m .barrierRelease 0 r.season r.payload.toNat []) s
      else s
    .next ((s.participants r.scope r.die).foldl (fun s g =>
      if s.clusterFenced g then s else s.modCluster g (releaseIn r)) s)

def recoveryBit : RecoveryKind → Nat
  | .retry => 1
  | .route => 2
  | .fence => 4

/-- RECOVERY_TIMEOUT (R112): the event of a recovery open for more than 10 ms, once; barriers stay withheld. -/
def execRecoveryTimeout (kind : RecoveryKind) (s : State) : Out :=
  if s.health.recovery.contains kind ∧ !s.health.recoveryRaised ∧ 250000 < (s.aon.rtc - s.health.recoverySince).toNat then
    let ms := (s.aon.rtc - s.health.recoverySince).toNat / 25000
    let bits := s.health.recovery.foldl (fun b k => b ||| recoveryBit k) 0
    .next ((s.modHealth (fun h => { h with recoveryRaised := true })).raiseD (s.aggregator none) 0x0306 ms bits 0)
  else .next s

/-! ### The advance itself (R103, R104, R113) -/

/-- The conditions of R103. -/
def Cluster.mayAdvance (c : Cluster) : Bool :=
  decide (c.season < c.seasonLimit ∧ c.season < 2 ^ 48 - 1) &&
    (c.launch.map (·.2)).all (fun e => !(decide (e.season = c.season)) ||
      (!e.isLaunch && (!e.isBarrier || e.released)))

/-- The indivisible action of R104 in the cluster. -/
def Cluster.advance (rtc : Word) (c : Cluster) : Cluster :=
  let stamp : Stamp :=
    { season := c.season, arriveTick := c.arriveTick.getD c.osc.tick, advanceTick := c.osc.tick, held := c.heldFlag }
  { c with
    season := c.season + 1
    tokens := clearBank c.season c.tokens
    launch := c.launch.map (fun p => (p.1,
      if p.2.isBarrier && decide (p.2.season = c.season) then launchRearm p.2 else p.2))
    stamps := tabSet c.stamps c.stampHead stamp
    stampHead := (c.stampHead + 1) % 256
    sent := []
    arriveTick := none
    heldFlag := false
    stalledRaised := false
    advanceRtc := rtc }

end Sys2Proof.Machine
end

