-- ==== Sys2Proof/Machine/Mx.lean ====
section
/-! DEFINITION. Mx.lean: the formats of R278 as operands, packing (R284), ARITH (R285), conversion to MX blocks (R292 to
R294) and the matrix dot product (R295 to R300). -/

namespace Sys2Proof.Machine

/-- The formats a matrix or vector operand can have (R322). -/
inductive NumFmt where
  | fp32 | bf16 | fp16 | e4m3 | e5m2 | e3m2 | e2m3 | e2m1 | int8
  deriving DecidableEq, Repr

/-- The codes of R322. -/
def numFmtOf (c : Nat) : Option NumFmt :=
  match c with
  | 1 => some .fp32
  | 2 => some .bf16
  | 3 => some .fp16
  | 4 => some .e4m3
  | 5 => some .e5m2
  | 6 => some .e3m2
  | 7 => some .e2m3
  | 8 => some .e2m1
  | 9 => some .int8
  | _ => none

/-- The floating-point format of a code; MXINT8 has none. -/
def fpOf : NumFmt → Fmt
  | .fp32 => Sys2Proof.Machine.fp32
  | .bf16 => Sys2Proof.Machine.bf16
  | .fp16 => Sys2Proof.Machine.fp16
  | .e4m3 => Sys2Proof.Machine.e4m3
  | .e5m2 => Sys2Proof.Machine.e5m2
  | .e3m2 => Sys2Proof.Machine.e3m2
  | .e2m3 => Sys2Proof.Machine.e2m3
  | .e2m1 => Sys2Proof.Machine.e2m1
  | .int8 => Sys2Proof.Machine.fp32

/-- Width in bits (R278). -/
def fmtBits : NumFmt → Nat
  | .fp32 => 32
  | .bf16 => 16
  | .fp16 => 16
  | .e4m3 => 8
  | .e5m2 => 8
  | .e3m2 => 6
  | .e2m3 => 6
  | .e2m1 => 4
  | .int8 => 8

def isMx : NumFmt → Bool
  | .fp32 => false
  | .bf16 => false
  | .fp16 => false
  | _ => true

/-- The value of an element without its scale (R279, R280). -/
def elemVal (f : NumFmt) (c : Nat) : Val :=
  match f with
  | .int8 => if c % 256 < 128 then .fin false (c % 256) (-6) else .fin true (256 - c % 256) (-6)
  | f => decodeFp (fpOf f) c

/-- A value times 2^e. -/
def scaleVal (v : Val) (e : Int) : Val :=
  match v with
  | .fin n m x => .fin n m (x + e)
  | v => v

/-- The value of an MX element under its scale (R281, R294): scale 0xFF is NaN. -/
def mxVal (f : NumFmt) (scale c : Nat) : Val :=
  if scale = 0xFF then .nan else scaleVal (elemVal f c) ((scale : Int) - 127)

/-- Packs codes of w bits from bit 0 of the lowest-addressed byte upward (R284). -/
def packCodes (w : Nat) (cs : List Nat) : List Byte :=
  leBytes (cdiv (w * cs.length) 8) (cs.foldr (fun c acc => c % 2 ^ w + 2 ^ w * acc) 0)

/-- Code `i` of a packed byte string. -/
def codeAt (w : Nat) (bs : List Byte) (i : Nat) : Nat :=
  let n := leNat ((bs.drop (w * i / 8)).take 5)
  n / 2 ^ (w * i % 8) % 2 ^ w

def unpackCodes (w : Nat) (bs : List Byte) (n : Nat) : List Nat := (List.range n).map (codeAt w bs)

/-- ARITH (R285): ROUND 0 RNE, 1 RTZ, 2 SR; SAT. -/
structure ArithCtl where
  round : Nat
  sat : Bool
  deriving DecidableEq, Repr

def arithCtlOf (c : Nat) : ArithCtl := { round := c % 4, sat := bitOf c 2 }

/-- ARITH's reserved values: ROUND 0b11, and bit 3. -/
def arithBad (c : Nat) : Bool := decide (c % 4 = 3) || bitOf c 3

/-- ROUND for a conversion, with the draw for SR (R286, R290). -/
def rndOf (a : ArithCtl) (draw : Nat) : Rnd :=
  match a.round with
  | 1 => .rtz
  | 2 => .sr draw
  | _ => .rne

/-- The control of the vector and row stages, where SR acts as RNE (R286). -/
def stageArith (a : ArithCtl) : Arith := { rtz := decide (a.round = 1), sat := a.sat }

/-! ### Conversion to MX blocks -/

/-- EMAX (R292). -/
def mxEmax : NumFmt → Int
  | .e4m3 => 8
  | .e5m2 => 15
  | .e3m2 => 4
  | .e2m3 => 2
  | .e2m1 => 2
  | _ => 0

/-- ⌊log2⌋ of the largest finite magnitude, none when every finite value is zero or there is none. -/
def amaxLog (vs : List Val) : Option Int :=
  vs.foldl (fun m v => match v with
    | .fin _ n e => if n = 0 then m else
        let k := (Nat.log2 n : Int) + e
        match m with
        | none => some k
        | some x => some (max x k)
    | _ => m) none

/-- The shared scale X of a block (R292). -/
def mxScale (f : NumFmt) (vs : List Val) : Nat :=
  match amaxLog vs with
  | none => 0x7F
  | some k => (max (-127) (min 127 (k - mxEmax f)) + 127).toNat

/-- A converted element: its code, and whether R293 limited it. -/
def mxElem (f : NumFmt) (rnd : Rnd) (scale : Nat) (v : Val) : Rounded :=
  match f, v with
  | .int8, .fin neg n e =>
    if n = 0 then { code := 0, limited := false } else
    let k := roundQuanta rnd neg n 1 (e + 6 - ((scale : Int) - 127)) 0
    let m := min k 127
    { code := if neg then (256 - m) % 256 else m, limited := decide (127 < k) }
  | .int8, _ => { code := 0, limited := false }
  | f, .inf neg => { code := fmtInf (fpOf f) neg, limited := false }
  | f, v => roundVal (fpOf f) rnd true (scaleVal v (127 - (scale : Int)))

/-- A converted block: scale, codes, which elements R293 limited or replace an infinity (R340), whether R294 made it a
NaN block. -/
structure MxBlock where
  scale : Nat
  codes : List Nat
  limits : List Bool
  nanBlock : Bool
  deriving DecidableEq, Repr

/-- How many flags are set. -/
def countTrue (l : List Bool) : Nat := (l.filter (fun b => b)).length

def isInfVal (v : Val) : Bool :=
  match v with
  | .inf _ => true
  | _ => false

/-- Converts a block of values of a source format (R292 to R294). `draw` gives the draw of each element for SR. -/
def mxConvert (src dst : NumFmt) (a : ArithCtl) (draw : Nat → Nat) (vs : List Val) : MxBlock :=
  let isNan := vs.any (fun v => decide (v = .nan))
  let isInf := vs.any isInfVal
  if isNan || (isInf && !a.sat && decide (dst ≠ .e5m2)) then
    { scale := 0xFF, codes := List.replicate vs.length 0, limits := List.replicate vs.length false, nanBlock := true }
  else
    let ws := vs.map (satIn (fpOf src) a.sat)
    let x := mxScale dst ws
    let rs := ws.mapIdx (fun i v => mxElem dst (rndOf a (draw i)) x v)
    let rep := vs.map (fun v => a.sat && isInfVal v)
    { scale := x, codes := rs.map (·.code), limits := List.zipWith (fun r p => r.limited || p) rs rep, nanBlock := false }

/-! ### The dot product -/

/-- to_fp32 of R298: RNE with an unbounded exponent; overflow by mode; below 2^-126 a signed zero. -/
def dotRound (sat : Bool) (v : Val) : U32 :=
  match v with
  | .nan => nan32
  | .inf neg => BitVec.ofNat 32 (if sat then b2n neg * 2 ^ 31 + 0x7F7FFFFF else fmtInf Sys2Proof.Machine.fp32 neg)
  | .fin neg n e =>
    let s := b2n neg * 2 ^ 31
    if n = 0 then BitVec.ofNat 32 s
    else
      let q := (Nat.log2 n : Int) + e - 23
      let k := roundQuanta .rne neg n 1 e q
      let (k, q) := if 2 ^ 24 ≤ k then (k / 2, q + 1) else (k, q)
      let ex := q + 23
      if 128 ≤ ex then BitVec.ofNat 32 (s + if sat then 0x7F7FFFFF else 0x7F800000)
      else if ex < -126 then BitVec.ofNat 32 s
      else BitVec.ofNat 32 (s + (ex + 127).toNat * 2 ^ 23 + (k - 2 ^ 23))

/-- Discards the bits of a product whose weight is below 2^w (R297). -/
def truncAt (w : Int) (v : Val) : Val :=
  match v with
  | .fin neg n e => if w ≤ e then v else .fin neg (n / 2 ^ (w - e).toNat) w
  | v => v

/-- ⌊log2⌋ of the largest non-zero product. -/
def prodEmax (ps : List Val) : Option Int := amaxLog ps

/-- The exact sum of finite values, -0.0 only when every one is -0.0. -/
def sumFin (vs : List Val) : Val :=
  match vs with
  | [] => .fin false 0 0
  | v :: t => t.foldl addVal v

/-- Products of a group, operand by operand (R297); an infinity becomes the largest finite value in saturate mode. -/
def products (fa fb : NumFmt) (sat : Bool) (as bs : List Val) : List Val :=
  List.zipWith (fun x y => mulVal (satIn (fpOf fa) sat x) (satIn (fpOf fb) sat y)) as bs

/-- Adds one group of products into an FP32 accumulator (R297, R298, R300). `ex` is the group's block exponent. -/
def dotGroup (fa fb : NumFmt) (sat : Bool) (ex : Int) (as bs : List Val) (acc : U32) : U32 :=
  let accV := satIn Sys2Proof.Machine.fp32 sat (decodeFp Sys2Proof.Machine.fp32 acc.toNat)
  if as.any (fun v => decide (v = .nan)) || bs.any (fun v => decide (v = .nan)) || decide (accV = .nan) then nan32
  else
    let ps := products fa fb sat as bs
    let pos := ps.any (fun v => decide (v = .inf false))
    let neg := ps.any (fun v => decide (v = .inf true))
    if ps.any (fun v => decide (v = .nan)) || (pos && neg) then nan32
    else
      let g : Val :=
        if pos then .inf false
        else if neg then .inf true
        else
          let s := match prodEmax ps with
            | none => sumFin ps
            | some m => sumFin (ps.map (truncAt (m - 48)))
          decodeFp Sys2Proof.Machine.fp32 (dotRound sat (scaleVal s ex)).toNat
      match addVal accV g with
      | .nan => nan32
      | v => dotRound sat v

/-- One operand group: element values without scale, and the scale (none for BF16 and FP16). -/
structure OpGroup where
  vals : List Val
  scale : Option Nat
  deriving DecidableEq, Repr

/-- The block exponent of a pair of groups (R296); none when a scale is NaN. -/
def groupExp (a b : OpGroup) : Option Int :=
  match a.scale, b.scale with
  | some x, some y => if x = 0xFF ∨ y = 0xFF then none else some ((x : Int) + y - 254)
  | _, _ => some 0

/-- A dot product over groups of 32 into an accumulator (R296, R297). -/
def dotGroups (fa fb : NumFmt) (sat : Bool) : List (OpGroup × OpGroup) → U32 → U32
  | [], acc => acc
  | (a, b) :: t, acc =>
    match groupExp a b with
    | none => dotGroups fa fb sat t nan32
    | some ex => dotGroups fa fb sat t (dotGroup fa fb sat ex a.vals b.vals acc)

/-- The pairs of operand formats a matrix command may name (R295). -/
def pairOk (a b : NumFmt) : Bool :=
  match a, b with
  | .bf16, .bf16 => true
  | .fp16, .fp16 => true
  | .int8, .int8 => true
  | a, b => isMx a && isMx b && decide (a ≠ .int8) && decide (b ≠ .int8)

/-- Cuts a list into runs of n, by fuel. -/
def chunksOf {α : Type} (n : Nat) : Nat → List α → List (List α)
  | 0, _ => []
  | fuel + 1, xs => if xs.isEmpty then [] else xs.take n :: chunksOf n fuel (xs.drop n)

end Sys2Proof.Machine
end

