-- ==== Sys2Proof/Machine/Tables.lean ====
section
/-! DEFINITION. Tables.lean: embedding tables, owners, row records, the row requantizer and load counts (R169 to R176,
R184, R209). -/

namespace Sys2Proof.Machine

/-- A table descriptor in use (R169). -/
def State.table (s : State) (t : Nat) : Option TableDesc := (tabFind s.job.tables t).filter (·.valid)

def State.setTable (s : State) (t : Nat) (td : TableDesc) : State :=
  s.modJob (fun j => { j with tables := tabSet j.tables t td })

def shardCount (td : TableDesc) : Nat := cdiv td.rowCount (2 ^ td.shardLog2)

/-- The address of a shard's entry in a half of the owner table (R170). -/
def ownerEntryAddr (td : TableDesc) (half : Bool) (shard : Nat) : Nat :=
  td.ownerAddr + b2n half * (8 + 8 * shardCount td) + 8 + 8 * shard

/-- Device and slot of an owner entry. -/
def entryDevice (e : Nat) : Nat := bitsOf e 14 0
def entrySlot (e : Nat) : Nat := bitsOf e 39 16

/-- An entry that names a device of the job (R190). -/
def State.entryOk (s : State) (e : Nat) : Bool := decide (entryDevice e ≠ 0x7FFF ∧ entryDevice e < shapeSize s.shape)

/-- The record address of a row in a shard slot (R170). -/
def recordAddr (td : TableDesc) (slot row : Nat) : Nat :=
  td.base + (slot * 2 ^ td.shardLog2 + row % 2 ^ td.shardLog2) * td.stride

def failRowIndex (pos row : Nat) : Fail := { code := 0x0403, arg0 := pos, arg1 := row }

/-- The owner of a row: its device, slot and record address (R170, R190). -/
def State.locate (s : State) (who : Who) (t : Nat) (td : TableDesc) (pos row : Nat) : Except Fail (Nat × Nat × Nat) :=
  if td.rowCount ≤ row then .error (failRowIndex pos row)
  else match s.readChecked who (ownerEntryAddr td td.ownerHalf (row / 2 ^ td.shardLog2)) 8 with
    | .error f => .error f
    | .ok bs =>
      let e := leNat bs
      if s.entryOk e ∧ t < 16 then .ok (entryDevice e, entrySlot e, recordAddr td (entrySlot e) row)
      else .error (failRowIndex pos row)

/-- A row of a shard that moves here and whose copy has not arrived (R212 step 3). -/
def State.rowComing (s : State) (t : Nat) (td : TableDesc) (row : Nat) : Bool :=
  s.incoming.any (fun x => decide (x.table = t ∧ x.shard = row / 2 ^ td.shardLog2 ∧ x.arrived ≤ row % 2 ^ td.shardLog2))

/-- Counts a row read served, or a partial applied, for a slot (R209). -/
def loadKey (t slot : Nat) : Nat := t * 2 ^ 24 + slot

def satInc32 (x : U32) : U32 := BitVec.ofNat 32 (satAt 0xFFFFFFFF (x.toNat + 1))

def State.countRead (s : State) (t slot addr : Nat) : State :=
  s.modStack (stackOf addr) (fun k =>
    let p := tabGet k.loads (0, 0) (loadKey t slot)
    { k with loads := tabSet k.loads (loadKey t slot) (satInc32 p.1, p.2) })

/-- Several row reads, by table, slot and address. -/
def State.countReads (s : State) (xs : List (Nat × Nat × Nat)) : State := xs.foldl (fun s x => s.countRead x.1 x.2.1 x.2.2) s

def State.countApplied (s : State) (t slot addr : Nat) : State :=
  s.modStack (stackOf addr) (fun k =>
    let p := tabGet k.loads (0, 0) (loadKey t slot)
    { k with loads := tabSet k.loads (loadKey t slot) (p.1, satInc32 p.2) })

/-- Counts row slots of a stack (R246). -/
def State.addSlots (s : State) (k : Fin 12) (n : Nat) : State :=
  s.modStack k (fun x => { x with rowSlots := wrap64 x.rowSlots n })

/-- The row slots of one pass over the bytes from an address on: each stack counts its own part (R194, R223). -/
def State.countSlots (s : State) (addr n : Nat) : State :=
  let total := cdiv n 128
  let first := min total (cdiv (4096 - addr % 4096) 128)
  (s.addSlots (stackOf addr) first).addSlots (stackOf (addr + n - 1)) (total - first)

/-! ### Records (R171 to R174) -/

/-- The size of a record (R171). -/
def strideOf (dim : Nat) (code4 : Bool) : Nat := roundUp (16 + cdiv (dim * (if code4 then 4 else 8)) 8) 32

def recVersion (rec : List Byte) : Nat := leNat ((rec.drop 12).take 2)
def recFlags (rec : List Byte) : Nat := leNat ((rec.drop 14).take 2)

/-- The codes of a record (R173). -/
def recCodes (td : TableDesc) (rec : List Byte) : List Nat := unpackCodes (if td.code4 then 4 else 8) (rec.drop 16) td.dim

/-- The elements of a record as FP32 (R174). -/
def decodeRecord (td : TableDesc) (rec : List Byte) : List U32 :=
  if recFlags rec % 2 = 0 then List.replicate td.dim 0
  else
    let scale := widen fp16 (leNat (rec.take 2))
    let ofs := widen fp16 (leNat ((rec.drop 2).take 2))
    (recCodes td rec).map (fun c => ffma arithRne scale (natTo32 c) ofs)

/-- A row record from its fields (R171, R172). -/
def makeRecord (td : TableDesc) (scale offset : Nat) (stat step : U32) (version flags : Nat) (codes : List Nat) : List Byte :=
  let bs := leBytes 2 scale ++ leBytes 2 offset ++ leBytes 4 stat.toNat ++ leBytes 4 step.toNat ++ leBytes 2 version ++
    leBytes 2 flags ++ packCodes (if td.code4 then 4 else 8) codes
  bs ++ List.replicate (td.stride - bs.length) 0

/-! ### Requantization (R175, R176) -/

/-- 65504.0 as FP32. -/
def clamp16 : U32 := 0x477FE000

structure Requant where
  scale : Nat
  offset : Nat
  codes : List Nat
  clamped : Nat
  deriving DecidableEq, Repr

/-- A magnitude as numerator and power of two; 0 for the special values, which do not occur here. -/
def magOf : Val → Nat × Int
  | .fin _ m e => (m, e)
  | _ => (0, 0)

/-- floor of m × 2^e × 2^k. -/
def floorScaled (m : Nat) (e : Int) (k : Nat) : Nat := (scaledDiv m 1 (e + k)).1

/-- Round half to even of m × 2^e. -/
def roundEvenNat (m : Nat) (e : Int) : Nat := roundQuanta .rne false m 1 e 0

/-- The code of one element: to nearest, or stochastically with a 16-bit draw (R175). -/
def requantCode (qmax : Nat) (ofs32 rcp : U32) (draw : Option Nat) (v : U32) : Nat :=
  let x := magOf (decodeFp fp32 (fmul arithRne (fsub arithRne v ofs32) rcp).toNat)
  min qmax (match draw with
    | some r => (floorScaled x.1 x.2 16 + r) / 65536
    | none => roundEvenNat x.1 x.2)

/-- The row requantizer (R175); `draw e` is element e's draw when rounding is stochastic. -/
def requantize (code4 : Bool) (draw : Option (Nat → Nat)) (vals : List U32) : Requant :=
  let qmax := if code4 then 15 else 255
  let over_ (v : U32) : Bool := fgt v clamp16
  let under (v : U32) : Bool := fgt (clamp16 ||| 0x80000000) v
  let v := vals.map (fun x => if over_ x then clamp16 else if under x then clamp16 ||| 0x80000000 else x)
  let lo := v.foldl (fun m x => fmin arithRne m x) (v.headD 0)
  let hi := v.foldl (fun m x => fmax arithRne m x) (v.headD 0)
  let offset := (roundVal fp16 .down false (decodeFp fp32 lo.toNat)).code
  let ofs32 := widen fp16 offset
  let diff := (roundVal fp32 .up false (addVal (decodeFp fp32 hi.toNat) (negVal (decodeFp fp32 ofs32.toNat)))).code
  let d := magOf (decodeFp fp32 diff)
  let q := (roundTo fp32 .up false false d.1 qmax d.2).code
  let scale := (roundVal fp16 .up false (decodeFp fp32 q)).code
  let codes :=
    if scale = 0 then List.replicate v.length 0
    else
      let rcp := fdiv arithRne one32 (widen fp16 scale)
      v.zipIdx.map (fun x => requantCode qmax ofs32 rcp (draw.map (fun f => f x.2)) x.1)
  { scale := scale, offset := offset, codes := codes,
    clamped := (vals.filter (fun x => over_ x || under x)).length }

/-- The draw of element e of a row (R176). -/
def requantDraw (key : BitVec 128) (season table row e : Nat) : Nat :=
  pepperDraw key (ctrRequant season table row (e / 8)) (e % 8)

/-- A taken commit's epochs (R184). -/
def bumpEpochs (ts : Tab TableDesc) : Tab TableDesc :=
  ts.map (fun p => (p.1, if p.2.frozen then p.2 else { p.2 with commitEpoch := (p.2.commitEpoch + 1) % 2 ^ 32 }))

end Sys2Proof.Machine
end

