-- ==== Sys2Proof/Machine/Harrow.lean ====
section
/-! DEFINITION. Harrow.lean: SAMPLE, its pieces and its speculative gathers (R138 to R168). -/

namespace Sys2Proof.Machine

/-! ### The SAMPLE descriptor (R139 to R141) -/

structure SampleCtl where
  graph : Nat
  hops : Nat
  mode : Nat
  replace : Bool
  sort : Bool
  spec : Bool
  seedAddr : Nat
  unit : Nat
  seeds : Nat
  fan : List Nat
  outAddr : Nat
  outLog2 : Nat
  mb : Nat
  rowBudget : Nat
  edgeBudget : Nat
  window : Nat
  confirmToken : Nat
  pieceToken : Option Nat
  deriving DecidableEq, Repr

/-- A piece budget: the descriptor's field, or the default that was in force as it started (R168). -/
def pieceBudget (field dflt : Nat) : Nat := 64 * (if field = 0 then dflt else field)

def State.sampleCtl (s : State) (g : Fin 32) (d : Desc) : SampleCtl :=
  { graph := d.bits 2 47 0, hops := d.bits 2 49 48, mode := d.bits 2 51 50, replace := d.bit 2 52, sort := d.bit 2 53,
    spec := d.bit 2 54, seedAddr := d.bits 3 47 0,
    unit := if d.bits 3 63 48 = 0 then (uidCluster g.val 1).toNat else d.bits 3 63 48,
    seeds := d.bits 4 15 0, fan := [d.bits 4 23 16, d.bits 4 31 24, d.bits 4 39 32],
    outAddr := d.bits 5 47 0, outLog2 := d.bits 5 52 48, mb := d.bits 6 15 0,
    rowBudget := pieceBudget (d.bits 6 31 16) s.clusters[g].harrow.budgets.1,
    edgeBudget := pieceBudget (d.bits 6 47 32) s.clusters[g].harrow.budgets.2, window := d.bits 7 31 0,
    confirmToken := d.bits 7 43 32, pieceToken := if d.bit 7 56 then some (d.bits 7 55 44) else none }

/-- Fh, counted as 0 beyond HOPS. -/
def SampleCtl.f (c : SampleCtl) (h : Nat) : Nat := if h < c.hops then c.fan.getD h 0 else 0

def sampleSpans (c : SampleCtl) : List Span :=
  [(2, 63, 55), (4, 63, 40), (5, 63, 53), (6, 63, 48), (7, 63, 57)] ++
  (if c.hops < 3 then [(4, 39, 32)] else []) ++ (if c.hops < 2 then [(4, 31, 24)] else []) ++
  (if c.mode ≠ 2 then [(7, 31, 0)] else []) ++ (if c.spec then [] else [(7, 43, 32)])

/-- The format checks of R141 on a SAMPLE: the first offending byte. That a SEED_COUNT of 0 and an OUT_ADDR that is not a multiple of
256 are such faults is the model's choice (log entry 53). -/
def sampleBad (d : Desc) (c : SampleCtl) : Option Nat :=
  minBad (spansBad (descWords d) (sampleSpans c) ++
    [(decide (c.hops = 0), 22), (decide (c.mode = 3), 22), (decide (c.seeds = 0), 32)] ++
    (List.range 3).map (fun h => (decide (h < c.hops ∧ c.fan.getD h 0 = 0), 34 + h)) ++
    [(decide (¬ (16 ≤ c.outLog2 ∧ c.outLog2 ≤ 30)), 46), (decide (c.outAddr % 256 ≠ 0), 40)])

def budgetFail (need limit : Nat) : Fail := { code := 0x0402, arg0 := need, arg1 := limit }

/-- The largest frontier position (R141). -/
def SampleCtl.frontier (c : SampleCtl) : Nat :=
  if c.hops = 2 then c.seeds * c.f 0 else if c.hops = 3 then c.seeds * c.f 0 * c.f 1 else 0

def SampleCtl.needRows (c : SampleCtl) : Nat := 2 + c.f 1 + c.f 1 * c.f 2
def SampleCtl.needEdges (c : SampleCtl) : Nat := 1 + c.f 1 + c.f 1 * c.f 2
def SampleCtl.largest (c : SampleCtl) : Nat := 256 + 8 * c.rowBudget + 12 * c.edgeBudget

/-- The start checks of R141, in the order of its table. -/
def State.sampleCheck (s : State) (g : Fin 32) (q : QDesc) (c : SampleCtl) : Except Fail GraphHdr :=
  match sampleBad q.desc c with
  | some o => .error (failFormat q.addr o)
  | none =>
    match s.graphHdr (g.val / 8) c.graph with
    | .error f => .error f
    | .ok h =>
      if (c.mode = 1 ∧ !h.weighted) ∨ (c.mode = 2 ∧ !h.temporal) then .error (graphFail c.graph 0)
      else if 2 ^ 28 ≤ c.frontier then .error (budgetFail c.frontier (2 ^ 28))
      else if c.rowBudget < c.needRows then .error (budgetFail c.needRows c.rowBudget)
      else if c.edgeBudget < c.needEdges then .error (budgetFail c.needEdges c.edgeBudget)
      else if 2 ^ c.outLog2 < c.largest then .error (budgetFail c.largest (2 ^ c.outLog2))
      else if c.spec ∧ s.clusters[g].harrow.specTemplate = 0 then .error (failFormat q.addr 22)
      else .ok h

/-! ### Expanding seeds (R143 to R150) -/

/-- A frontier slot: position, node, time, and the hop-1 subtree it lies in. -/
structure Slot where
  pos : Nat
  node : Nat
  time : Nat
  sub : Nat
  deriving DecidableEq, Repr

/-- The edges that a node selects, as indices (R147 to R150). -/
def selectEdges (s : State) (sets : Nat) (h : GraphHdr) (c : SampleCtl) (season hop : Nat) (sl : Slot) (b : Block) :
    GM (List Nat) := do
  let word := harrowWord s.job.pepper season c.unit c.mb hop sl.pos
  if c.mode = 1 then selectWeighted s sets h sl.node b (c.f hop) c.replace word
  else if c.mode = 2 then
    let (lo, hi) ← timeRange s sets h sl.node b sl.time c.window
    return (selectUniform word (hi - lo) (c.f hop) c.replace).map (fun i => lo + i)
  else return selectUniform word b.degree (c.f hop) c.replace

/-- Expands one slot (R135, R145): a halo node is not expanded. -/
def expandSlot (s : State) (sets : Nat) (h : GraphHdr) (c : SampleCtl) (season hop : Nat) (sl : Slot) : GM (List GEdge) := do
  if !h.isLocal sl.node then return []
  else
    modify (fun g => { g with expansions := g.expansions + 1 })
    let b ← openBlock s sets h sl.node
    match b with
    | none => return []
    | some b =>
      let sel ← selectEdges s sets h c season hop sl b
      sel.zipIdx.mapM (fun x => do
        let nb ← edgeNode s sets h sl.node b x.1
        let ts ← if c.mode = 2 then edgeTime s sets h sl.node b x.1 else pure 0
        let pos := sl.pos * c.f hop + x.2
        return { hop := hop, dst := sl.node, pos := pos, src := nb, ts := ts, sub := if hop = 0 then pos else sl.sub })

/-- The hops of a seed tree, one after another. -/
def expandHops (s : State) (sets : Nat) (h : GraphHdr) (c : SampleCtl) (season : Nat) :
    Nat → Nat → List Slot → GM (List GEdge)
  | 0, _, _ => return []
  | n + 1, hop, slots => do
    let es ← slots.mapM (expandSlot s sets h c season hop)
    let es := es.flatten
    let rest ← expandHops s sets h c season n (hop + 1)
      (es.map (fun e => { pos := e.pos, node := e.src, time := e.ts, sub := e.sub }))
    return es ++ rest

/-! ### Pieces (R151 to R156, R161) -/

/-- The nodes of a unit with the hop and position at which each appears. -/
def unitNodes (u : SeedUnit) : List (Nat × Nat × Nat) := (0, u.seed, u.node) :: u.edges.map (fun e => (e.hop + 1, e.pos, e.src))

/-- The distinct nodes and the edges of a piece stay within the budgets (R154). -/
def pieceFits (c : SampleCtl) (us : List SeedUnit) : Bool :=
  decide (((us.flatMap unitNodes).map (fun x => x.2.2)).eraseDups.length ≤ c.rowBudget) &&
  decide ((us.flatMap (·.edges)).length ≤ c.edgeBudget)

/-- Closes the open piece. -/
def closePiece (g : GSt) : GSt := if g.cur = [] then g else { g with closed := g.closed ++ [g.cur], cur := [] }

/-- The hop-1 subtrees of a seed, in order of position (R154). -/
def subtrees (u : SeedUnit) : List SeedUnit :=
  ((u.edges.map (·.sub)).eraseDups.insertionSort (fun a b => a ≤ b)).map
    (fun k => { u with edges := u.edges.filter (fun e => decide (e.sub = k)) })

/-- Adds a unit to the open piece, closing it first if it does not fit. -/
def addUnit (c : SampleCtl) (g : GSt) (u : SeedUnit) : GSt :=
  if pieceFits c (g.cur ++ [u]) then { g with cur := g.cur ++ [u] } else { closePiece g with cur := [u] }

/-- Places a seed tree: whole where it fits a piece, else split between its hop-1 subtrees. -/
def placeTree (c : SampleCtl) (u : SeedUnit) (g : GSt) : GSt :=
  if pieceFits c [u] then addUnit c g u
  else closePiece ((subtrees u).foldl (addUnit c) (closePiece g))

/-- Expands every seed in order. -/
def expandSeeds (s : State) (sets : Nat) (h : GraphHdr) (c : SampleCtl) (season : Nat) : List (Nat × Nat × Nat) → GM Unit
  | [] => return ()
  | (i, node, time) :: rest => do
    let es ← expandHops s sets h c season c.hops 0 [{ pos := i, node := node, time := time, sub := 0 }]
    modify (placeTree c { seed := i, node := node, edges := es })
    expandSeeds s sets h c season rest

/-- The row order of a piece: by hop and position of first appearance, and with GROUP_SORT by count descending. -/
def pieceRows (sort : Bool) (us : List SeedUnit) : List (Nat × Nat × Nat) :=
  let apps := (us.flatMap unitNodes).insertionSort (fun a b => a.1 < b.1 ∨ (a.1 = b.1 ∧ a.2.1 ≤ b.2.1))
  let firsts := apps.foldl (fun (rs : List (Nat × Nat)) x => if rs.any (fun r => decide (r.1 = x.2.2)) then rs
    else rs ++ [(x.2.2, x.1)]) []
  let es := us.flatMap (·.edges)
  let rows := firsts.map (fun r => (r.1, r.2, (es.filter (fun e => decide (e.dst = r.1))).length))
  if sort then rows.insertionSort (fun a b => b.2.2 ≤ a.2.2) else rows

/-- Edges by hop, row and child position, with their rows (R153). -/
def pieceEdges (rows : List (Nat × Nat × Nat)) (us : List SeedUnit) : List (Nat × Nat × Nat × Nat × Nat) :=
  let ix (n : Nat) : Nat := rows.findIdx (fun r => decide (r.1 = n))
  ((us.flatMap (·.edges)).map (fun e => (e.hop, ix e.dst, e.pos, ix e.src, e.ts))).insertionSort
    (fun a b => a.1 < b.1 ∨ (a.1 = b.1 ∧ (a.2.1 < b.2.1 ∨ (a.2.1 = b.2.1 ∧ a.2.2.1 ≤ b.2.2.1))))

/-- ROW_SPLIT (R161). -/
def rowSplit (nnz : List Nat) (edges : Nat) : List Nat :=
  let reach (k : Nat) : Nat :=
    ((List.range (nnz.length + 1)).find? (fun i => decide (cdiv (k * edges) 8 ≤ (nnz.take i).foldl (· + ·) 0))).getD nnz.length
  0 :: ((List.range 7).map (fun k => reach (k + 1)) ++ [nnz.length])

/-- EDGE_SPLIT of one hop (R153). -/
def edgeSplit (hops : Nat) (split : List Nat) (es : List (Nat × Nat × Nat × Nat × Nat)) (h : Nat) : List Nat :=
  if h < hops then
    let start := (es.filter (fun e => decide (e.1 < h))).length
    split.map (fun r => start + (es.filter (fun e => decide (e.1 = h ∧ e.2.1 < r))).length)
  else List.replicate 9 es.length

/-- Words 0 to 3 of a piece header (R151). A piece beyond the 65,536th is numbered modulo 2^16, with CONT set (log entry 55). -/
def pieceHead (mb idx hops unit season seeds first last flags rows edges : Nat) : List Byte :=
  leBytes 8 (mb + idx % 65536 * 2 ^ 16 + b2n (decide (0 < idx)) * 2 ^ 33 + flags + hops * 2 ^ 40) ++
  leBytes 8 (rows + edges * 2 ^ 32) ++ leBytes 8 (seeds + first * 2 ^ 16 + last * 2 ^ 32) ++
  leBytes 8 (season % 2 ^ 48 + unit * 2 ^ 48)

def padTo (n : Nat) (bs : List Byte) : List Byte := bs ++ List.replicate (roundUp bs.length n - bs.length) 0

/-- A row entry (R152): node, hop, halo, count. -/
def rowEntry (h : GraphHdr) (r : Nat × Nat × Nat) : List Byte :=
  leBytes 8 (r.1 + r.2.1 * 2 ^ 40 + b2n (!h.isLocal r.1) * 2 ^ 42 + min r.2.2 65535 * 2 ^ 48)

/-- Lays out a piece (R151 to R153, R161). -/
def buildPiece (h : GraphHdr) (c : SampleCtl) (season idx : Nat) (last : Bool) (us : List SeedUnit) : Piece :=
  let rows := pieceRows c.sort us
  let es := pieceEdges rows us
  let split := rowSplit (rows.map (fun r => r.2.2)) es.length
  let seeds := us.map (·.seed)
  let flags := b2n last * 2 ^ 32 + b2n c.sort * 2 ^ 35
  let head := pieceHead c.mb idx c.hops c.unit season c.seeds (seeds.foldl min 65535) (seeds.foldl max 0) flags rows.length
    es.length
  let bytes := padTo 64 head ++ padTo 64 (split.flatMap (leBytes 4)) ++
    padTo 128 ((List.range 3).flatMap (fun k => (edgeSplit c.hops split es k).flatMap (leBytes 4))) ++
    rows.flatMap (rowEntry h) ++ es.flatMap (fun e => leBytes 8 (e.2.1 + e.2.2.2.1 * 2 ^ 32)) ++
    (if c.mode = 2 then es.flatMap (fun e => leBytes 4 e.2.2.2.2) else [])
  { bytes := padTo 256 bytes, rows := rows.length, edges := es.length,
    halos := (rows.filter (fun r => !h.isLocal r.1)).length }

/-- The ABORT piece of a command that faulted (R160, R156). -/
def abortPiece (j : SampleJob) : Piece :=
  { bytes := padTo 256 (pieceHead j.mb j.written j.hops j.unit j.season j.seeds 0 0 (2 ^ 34) 0 0),
    rows := 0, edges := 0, halos := 0 }

/-! ### SAMPLE -/

/-- The seeds of a list (R140). -/
def seedList (bs : List Byte) : Nat → Nat → List (Nat × Nat × Nat)
  | 0, _ => []
  | n + 1, i => (i, leNat (bs.take 5), leNat ((bs.drop 8).take 4)) :: seedList (bs.drop 16) n (i + 1)

/-- Reads the seeds and expands them; what was sampled before a fault stays. -/
def State.sampleRun (s : State) (g : Fin 32) (h : GraphHdr) (c : SampleCtl) (season : Nat) : EStateM.Result Fail GSt Unit :=
  let x := s.clusters[g].harrow
  let st : GSt :=
    { topo := x.topo, fills := x.fills, hits := 0, misses := 0, expansions := 0, short := 0, seen := [], closed := [],
      cur := [], die := g.val / 8 }
  match s.readChecked (.ofCluster g .any) c.seedAddr (16 * c.seeds) with
  | .error f => .error f st
  | .ok bs => expandSeeds s s.clusters[g].topoKib h c season (seedList bs c.seeds 0) st

/-- The job of a command: its pieces, and after a fault the closed ones followed by an ABORT piece (R160). -/
def sampleJob (h : GraphHdr) (c : SampleCtl) (season : Nat) (fault : Option Fail) (st : GSt) : SampleJob :=
  let st := if fault.isNone then closePiece st else st
  let n := st.closed.length
  let ps := st.closed.zipIdx.map (fun x => buildPiece h c season x.2 (fault.isNone && decide (x.2 + 1 = n)) x.1)
  let j : SampleJob :=
    { mb := c.mb, season := season, unit := c.unit, hops := c.hops, seeds := c.seeds, outAddr := c.outAddr,
      outLog2 := c.outLog2, pieceToken := c.pieceToken, spec := c.spec, pieces := ps, written := 0,
      fault := fault.map (fun f => (f.code, f.arg0, f.arg1)) }
  if fault.isSome then { j with pieces := ps ++ [abortPiece { j with written := n }] } else j

/-- A command that ends without a gather leaves none to be decided (R165). -/
def specForget (h : Harrow) : Harrow :=
  if h.spec.any (fun sp => decide (sp.decision = .undecided ∧ sp.gathers = 0)) && !h.toPost.any (·.spec) then { h with spec := none }
  else h

/-- What a SAMPLE that passed its checks leaves in Harrow. -/
def harrowSampled (st : GSt) (j : SampleJob) (x : Harrow) : Harrow :=
  { x with
    topo := st.topo, fills := st.fills, topoHits := wrap64 x.topoHits st.hits, topoMisses := wrap64 x.topoMisses st.misses,
    expansions := wrap64 x.expansions st.expansions, shortDraws := wrap64 x.shortDraws st.short,
    job := some j }

/-- SAMPLE (R141 to R156): the start checks, then the expansion of every seed into pieces that wait for the ring. -/
def execSample (cluster : Fin 32) (s : State) : Out :=
  match s.activeOp cluster .harrow 1 with
  | none => .next s
  | some r =>
    if r.phase ≠ .started then .next s
    else
      let c := s.sampleCtl cluster r.q.desc
      match s.sampleCheck cluster r.q c with
      | .error f => .next ((s.modHarrow cluster specForget).failDesc cluster .harrow r f)
      | .ok h =>
        let res := s.sampleRun cluster h c r.season
        let (fault, st) := match res with
          | .ok _ st => ((none : Option Fail), st)
          | .error f st => (some f, st)
        let s := s.modHarrow cluster (harrowSampled st (sampleJob h c r.season fault st))
        .next (s.setRunning cluster .harrow r { r with phase := .working })

/-- TOPO_INVALIDATE (R138). -/
def execTopoInvalidate (cluster : Fin 32) (s : State) : Out :=
  match s.activeOp cluster .harrow 2 with
  | none => .next s
  | some r =>
    match firstNonzero (descWords r.q.desc) bodySpans with
    | some o => .next (s.failDesc cluster .harrow r (failFormat r.q.addr o))
    | none =>
      .next ((s.modHarrow cluster (fun h => { h with topo := [], fills := [] })).finishDesc cluster .harrow r none)

/-- TOPO_FILL (R137): the first line on its way is placed in its set. -/
def execTopoFill (cluster : Fin 32) (s : State) : Out :=
  match s.clusters[cluster].harrow.fills with
  | [] => .next s
  | l :: rest =>
    let sets := s.clusters[cluster].topoKib
    .next (s.modHarrow cluster (fun h => { h with topo := topoInstall sets l h.topo, fills := rest }))

/-! ### The output ring (R157 to R160) -/

/-- Free bytes of the ring (R157). -/
def ringFree (h : Harrow) (log2 : Nat) : Nat := 2 ^ log2 - (h.produced - h.consumed).toNat

/-- The ranges that n bytes take from RING_PRODUCED on, wrapping at the ring's end. -/
def ringParts (h : Harrow) (j : SampleJob) (n : Nat) : List (Nat × Nat) :=
  let size := 2 ^ j.outLog2
  let o := h.produced.toNat % size
  let a := min n (size - o)
  if a < n then [(j.outAddr + o, a), (j.outAddr, n - a)] else [(j.outAddr + o, n)]

/-- Writes bytes into ranges, one after another. -/
def State.writeParts (s : State) : List (Nat × Nat) → List Byte → State
  | [], _ => s
  | (a, n) :: rest, bs => (s.writeMem a (bs.take n)).writeParts rest (bs.drop n)

/-- The gather that a written piece calls for (R162, R164). -/
def harrowSpecPost (rowAddr rows : Nat) (h : Harrow) : Harrow :=
  match h.spec with
  | none => h
  | some sp =>
    match sp.decision with
    | .undecided => { h with toPost := h.toPost ++ [{ rowAddr := rowAddr, rows := rows, spec := true }] }
    | .confirmed => { h with toPost := h.toPost ++ [{ rowAddr := rowAddr, rows := rows, spec := false }] }
    | .discarded => { h with specDiscarded := wrap64 h.specDiscarded 1 }

/-- Counters and registers after a piece is written (R167). CUR_MB and CUR_PIECE stand after the command as they were at its end
(log entry 56). -/
def harrowWrote (p : Piece) (j : SampleJob) (rest : List Piece) (h : Harrow) : Harrow :=
  { h with
    produced := h.produced + BitVec.ofNat 32 p.bytes.length
    pieces := wrap64 h.pieces 1
    contPieces := wrap64 h.contPieces (b2n (decide (0 < j.written)))
    edgesEmitted := wrap64 h.edgesEmitted p.edges
    haloNodes := wrap64 h.haloNodes p.halos
    curPiece := BitVec.ofNat 16 (j.written + 1)
    job := some { j with pieces := rest, written := j.written + 1 } }

/-- A command whose pieces are all written completes, or ends by its fault. -/
def State.sampleEnd (s : State) (g : Fin 32) (r : Running) (j : SampleJob) : State :=
  let s := s.modHarrow g (fun h => specForget { h with job := none })
  match j.fault with
  | none => s.finishDesc g .harrow r none
  | some (c, a, b) => s.failDesc g .harrow r { code := c, arg0 := a, arg1 := b }

/-- The current piece is in the ring: counters, PIECE_TOKEN (R159) and the gather it calls for. The ABORT piece, which has no rows,
calls for none (log entry 54). -/
def State.pieceDone (s : State) (g : Fin 32) (j : SampleJob) (p : Piece) (rest : List Piece) : State :=
  let size := 2 ^ j.outLog2
  let rowAddr := j.outAddr + (s.clusters[g].harrow.produced.toNat + 256) % size
  let s := (s.writeParts (ringParts s.clusters[g].harrow j p.bytes.length) p.bytes).modHarrow g (harrowWrote p j rest)
  let s := match j.pieceToken with
    | some t => s.postToken { source := some g.val, cluster := g, token := t, tag := j.season, any := false, stream := 2 + j.mb }
    | none => s
  if j.spec ∧ 0 < p.rows then s.modHarrow g (harrowSpecPost rowAddr p.rows) else s

/-- What stands in the way of a piece's places in the ring (R31, R625). -/
def State.piecePlace (s : State) (g : Fin 32) (rs : List (Nat × Nat)) : Option Fail :=
  match firstSome (fun (x : Nat × Nat) => s.accessFail (.ofCluster g .any) x.1 x.2) rs with
  | some f => some f
  | none => firstSome (fun (x : Nat × Nat) => s.mergeFail x.1 x.2) rs

/-- PIECE_WRITE (R157): the next piece goes into the ring once the free space holds it. A ring address that cannot be
written ends the command as R160 says. -/
def execPieceWrite (cluster : Fin 32) (s : State) : Out :=
  match s.clusters[cluster].harrow.job, s.activeOp cluster .harrow 1 with
  | some j, some r =>
    match j.pieces with
    | [] => .next (s.sampleEnd cluster r j)
    | p :: rest =>
      let h := s.clusters[cluster].harrow
      if ringFree h j.outLog2 < p.bytes.length then .next s
      else match s.piecePlace cluster (ringParts h j p.bytes.length) with
        | none =>
          let s := s.pieceDone cluster j p rest
          .next (if rest = [] then s.sampleEnd cluster r j else s)
        | some f =>
          if p.rows = 0 then .next (s.sampleEnd cluster r j)
          else .next (s.modHarrow cluster (fun x =>
            { x with job := some { j with pieces := [abortPiece j], fault := some (f.code, f.arg0, f.arg1) } }))
  | _, _ => .next s

/-- A value that would make RING_CONSUMED pass RING_PRODUCED (R158). -/
def ringPasses (h : Harrow) (v : U32) : Bool := decide ((h.produced - h.consumed).toNat < (v - h.consumed).toNat)

def State.ringWrite (s : State) (g : Fin 32) (v : U32) : State :=
  if ringPasses s.clusters[g].harrow v then
    s.raiseC g (uidCluster g.val 1) 0x0102 (clusterUnitBase g.val 1 + 8) v.toNat 0
  else s.modHarrow g (fun h => { h with consumed := v })

/-- RING_CONSUMED (R158): a write by the program, where the unit is reachable. -/
def execRingConsumed (cluster : Fin 32) (value : U32) (s : State) : Out :=
  if s.clusterLive cluster then .next (s.ringWrite cluster value) else .next s

/-! ### Speculative gathers (R162 to R165) -/

/-- The gather of a piece: the template with the row list, the count and the speculative flag replaced (R162). -/
def specDesc (bs : List Byte) (x : SpecPost) : Desc :=
  let d := descOfBytes bs
  let put (w : Word) (hi lo v : Nat) : Word :=
    BitVec.ofNat 64 (w.toNat - bitsOf w.toNat hi lo * 2 ^ lo + v % 2 ^ (hi + 1 - lo) * 2 ^ lo)
  { d with w2 := put (put d.w2 47 0 x.rowAddr) 56 56 (b2n x.spec), w4 := put d.w4 31 0 x.rows }

/-- The counters of a posted gather (R162, R164). -/
def harrowPosted (x : SpecPost) (h : Harrow) : Harrow :=
  { h with
    toPost := h.toPost.drop 1
    specIssued := wrap64 h.specIssued 1
    specConfirmed := if x.spec then h.specConfirmed else wrap64 h.specConfirmed 1
    spec := h.spec.map (fun sp => if x.spec then { sp with gathers := sp.gathers + 1 } else sp) }

/-- SPEC_GATHER_POST (R162): the next gather enters the Rake queue once it has a credit. A template that cannot be
read ends it with an event of the Rake. -/
def execSpecGatherPost (cluster : Fin 32) (s : State) : Out :=
  let h := s.clusters[cluster].harrow
  match h.toPost with
  | [] => .next s
  | x :: rest =>
    if s.credits cluster .rake = 0 ∨ !s.clusterLive cluster then .next s
    else match s.readChecked (.ofCluster cluster .any) h.specTemplate.toNat 64 with
      | .error f =>
        .next (((s.countUe f).modHarrow cluster (fun h => { h with toPost := rest })).raiseC cluster (uidCluster cluster.val 2)
          f.code f.arg0 f.arg1 0x41)
      | .ok bs =>
        .next (((s.noteRead h.specTemplate.toNat 64).modHarrow cluster (harrowPosted x)).enqueue cluster .rake
          { desc := specDesc bs x, addr := h.specTemplate.toNat, launch := false, harrow := true })

/-- A descriptor's speculative flag taken away (R164). -/
def plainDesc (q : QDesc) : QDesc :=
  if q.harrow then { q with desc := { q.desc with w2 := q.desc.w2 &&& ~~~(1#64 <<< 56) } } else q

/-- A gather of Harrow's that is still speculative. -/
def isSpecGather (q : QDesc) : Bool := q.harrow && q.desc.bit 2 56

/-- Confirmation of what the Rake holds (R163, R193): gathers still queued or just started become ordinary; one that is
being staged or is staged is confirmed; one without staging is executed as an ordinary gather. Their requests that were
forwarded and their coalesced rows count from now on (R214). -/
def Cluster.confirmRake (c : Cluster) : Cluster :=
  let nofit (r : Running) : Bool := c.rake.staged.any (fun x => decide (x.run = r) && !x.fits)
  let c := c.modQueue 0x41 (fun q =>
    { q with waiting := q.waiting.map plainDesc
             running := q.running.map (fun r =>
               if r.phase = .started then { r with q := plainDesc r.q }
               else if nofit r then { r with q := plainDesc r.q, phase := .started } else r) })
  let mine := c.rake.jobs.filter (fun j => isSpecGather j.run.q)
  let held := c.rake.staged.filter (fun x => x.run.q.harrow)
  { c with rake := { c.rake with
      forwarded := wrap64 c.rake.forwarded ((mine.map (·.forwarded)).sum + (held.map (·.forwarded)).sum)
      rowsCoalesced := wrap64 c.rake.rowsCoalesced ((mine.map (·.coalesced)).sum + (held.map (·.coalesced)).sum)
      jobs := c.rake.jobs.map (fun j =>
        if isSpecGather j.run.q then { j with confirmed := true, forwarded := 0, coalesced := 0, reads := [] } else j)
      staged := (c.rake.staged.filter (fun x => x.fits || !x.run.q.harrow)).map
        (fun x => if x.run.q.harrow then { x with confirmed := true, forwarded := 0, coalesced := 0, reads := [] } else x) } }

/-- The rows that this device's back ends have read for gathers not yet confirmed: table, slot and address (R210). -/
def Cluster.specReads (c : Cluster) : List (Nat × Nat × Nat) :=
  let of (r : Running) (xs : List (Nat × Nat)) : List (Nat × Nat × Nat) := xs.map (fun x => (r.q.desc.bits 2 53 50, x))
  (c.rake.jobs.filter (fun j => isSpecGather j.run.q)).flatMap (fun j => of j.run j.reads) ++
    (c.rake.staged.filter (fun x => x.run.q.harrow)).flatMap (fun x => of x.run x.reads)

/-- Discard of what the Rake holds: nothing is written, and no slot stays held (R164, R193). -/
def Cluster.discardRake (c : Cluster) : Cluster :=
  let sure (r : Running) : Bool := c.rake.staged.any (fun x => decide (x.run = r) && x.confirmed) ||
    c.rake.jobs.any (fun j => decide (j.run = r) && j.confirmed)
  let keep (r : Running) : Bool := !isSpecGather r.q || sure r
  let c := c.modQueue 0x41 (fun q =>
    { q with waiting := q.waiting.filter (fun x => !isSpecGather x), running := q.running.filter keep })
  { c with rake := { c.rake with
      jobs := c.rake.jobs.filter (fun j => !isSpecGather j.run.q || j.confirmed)
      staged := c.rake.staged.filter (fun x => !x.run.q.harrow || x.confirmed) } }

/-- The command's gathers are confirmed (R163). -/
def harrowConfirm (sp : SpecCommand) (h : Harrow) : Harrow :=
  { h with
    specConfirmed := wrap64 h.specConfirmed sp.gathers
    spec := some { sp with decision := .confirmed }
    toPost := h.toPost.map (fun x => { x with spec := false }) }

/-- The command's gathers are discarded (R163, R164). -/
def harrowDiscard (sp : SpecCommand) (h : Harrow) : Harrow :=
  { h with
    specDiscarded := wrap64 h.specDiscarded (sp.gathers + (h.toPost.filter (·.spec)).length)
    spec := some { sp with decision := .discarded }
    toPost := h.toPost.filter (fun x => !x.spec) }

/-- The undecided command of a cluster. -/
def Cluster.undecided (c : Cluster) : Option SpecCommand :=
  c.harrow.spec.filter (fun sp => decide (sp.decision = .undecided))

/-- The CONFIRM_TOKEN is present for S + 1 (R163). -/
def Cluster.confirmDue (c : Cluster) (sp : SpecCommand) : Bool :=
  decide (c.season = sp.season ∨ c.season = sp.season + 1) && c.present sp.confirmToken (sp.season + 1)

/-- A cluster's gathers are confirmed: what was read for them here is counted now (R163, R210). -/
def State.confirmSpec (s : State) (g : Fin 32) (sp : SpecCommand) : State :=
  (s.countReads s.clusters[g].specReads).modCluster g (fun c => { c with harrow := harrowConfirm sp c.harrow }.confirmRake)

/-- SPEC_CONFIRM (R163). -/
def execSpecConfirm (cluster : Fin 32) (s : State) : Out :=
  match s.clusters[cluster].undecided with
  | none => .next s
  | some sp =>
    if s.clusters[cluster].confirmDue sp then
      .next (s.confirmSpec cluster sp)
    else .next s

/-- The advance from S + 1 without the token discards (R163). -/
def Cluster.specAdvance (c : Cluster) : Cluster :=
  match c.undecided with
  | none => c
  | some sp =>
    if sp.season + 1 ≤ c.season then { c with harrow := harrowDiscard sp c.harrow }.discardRake else c

end Sys2Proof.Machine
end

