-- ==== Sys2Proof/Machine/OptRule.lean ====
section
/-! DEFINITION. OptRule.lean: the arithmetic of the update rule (R401, R402, R406 to R411, R414, R415). Every operation is
FP32 under RNE in IEEE mode. -/

namespace Sys2Proof.Machine

/-- The exact power of an FP32 value, rounded once (R406). -/
def fpow (b : U32) (t : Nat) : U32 :=
  match decodeFp fp32 b.toNat with
  | .fin neg n e =>
    if n ^ t = 0 then 0
    else BitVec.ofNat 32 (roundTo fp32 .rne false (neg && decide (t % 2 = 1)) (n ^ t) 1 (e * t)).code
  | _ => nan32

/-- What a step's rule takes from its group and its command. -/
structure Hyper where
  beta1 : U32
  beta2 : U32
  gamma : U32
  eps : U32
  lambda : U32
  lr : U32
  bc1 : U32
  bc2 : U32
  deriving DecidableEq, Repr

def hyperOf (g : GroupDesc) (lr : U32) (t : Nat) : Hyper :=
  { beta1 := g.beta1, beta2 := g.beta2, gamma := g.gamma, eps := g.eps, lambda := g.lambda,
    lr := fmul arithRne lr g.lrMult, bc1 := fsub arithRne one32 (fpow g.beta1 t),
    bc2 := fsub arithRne one32 (fpow g.beta2 t) }

/-- INV of R414. -/
def invScale (lossScale : U32) (mbCount : Nat) : U32 := fdiv arithRne one32 (fmul arithRne lossScale (natTo32 mbCount))

/-- s of R406: the squares in element order. -/
def sumSquares (xs : List U32) : U32 := xs.foldl (fun s x => ffma arithRne x x s) 0

/-- c * (G * INV). -/
def clipped (c inv g : U32) : U32 := fmul arithRne c (fmul arithRne g inv)

/-- v after a row (R406, R410). -/
def rowStat (h : Hyper) (decay old s : U32) (n : Nat) : U32 :=
  ffma arithRne decay old (fmul arithRne (fsub arithRne one32 h.beta2) (fdiv arithRne s (natTo32 n)))

/-- sqrt(v / BC2) + EPS. -/
def denom (h : Hyper) (v : U32) : U32 := fadd arithRne (fsqrt arithRne (fdiv arithRne v h.bc2)) h.eps

def isZero32 (x : U32) : Bool := decide (x &&& 0x7FFFFFFF = 0)

/-- u: +0.0 where num is zero. -/
def stepOf (h : Hyper) (num den : U32) : U32 :=
  if isZero32 num then 0 else fdiv arithRne (fdiv arithRne num h.bc1) den

/-- wn = fma(-lr, fma(LAMBDA, w, u), w). -/
def newWeight (h : Hyper) (w u : U32) : U32 := ffma arithRne (h.lr ^^^ 0x80000000) (ffma arithRne h.lambda w u) w

/-- A dense element: its new master, its new moment, and whether R409 keeps the old ones. -/
structure DenseElem where
  w : U32
  m : U32
  kept : Bool
  deriving DecidableEq, Repr

/-- An element of R406; `den` is sqrt(vr * f / BC2) + EPS. -/
def denseElem (h : Hyper) (den w m cg : U32) : DenseElem :=
  let mn := ffma arithRne h.beta1 m (fmul arithRne (fsub arithRne one32 h.beta1) cg)
  let num := ffma arithRne h.gamma m (fmul arithRne (fsub arithRne one32 h.gamma) mn)
  let wn := newWeight h w (stepOf h num den)
  if isFinite32 wn && isFinite32 mn then { w := wn, m := mn, kept := false } else { w := w, m := m, kept := true }

/-- A dense row: its statistic, its elements, its cg; `whole` where vr is not finite and the row is kept (R409). -/
structure DenseRow where
  vr : U32
  elems : List DenseElem
  cg : List U32
  whole : Bool
  deriving DecidableEq, Repr

/-- R406 on a row of FACTORED elements, or R407 on a record: `f` gives VC[j] / MV, or 1.0. -/
def denseRow (h : Hyper) (c inv vrow : U32) (f : Nat → U32) (ws ms gs : List U32) : DenseRow :=
  let cg := gs.map (clipped c inv)
  let vr := rowStat h h.beta2 vrow (sumSquares cg) gs.length
  if !isFinite32 vr then
    { vr := vrow, elems := List.zipWith (fun w m => { w := w, m := m, kept := false }) ws ms, cg := cg, whole := true }
  else
    { vr := vr, cg := cg, whole := false,
      elems := ((ws.zip ms).zip cg).mapIdx (fun j x => denseElem h (denom h (fmul arithRne vr (f j))) x.1.1 x.1.2 x.2) }

/-- An embedding row (R410): its new elements and statistic; `none` where R411 leaves the row. -/
def embedRow (h : Hyper) (c inv : U32) (k : Nat) (stat : U32) (ws gs : List U32) : Option (List U32 × U32) :=
  let cg := gs.map (clipped c inv)
  let v := rowStat h (fpow h.beta2 k) stat (sumSquares cg) gs.length
  let a := fsub arithRne one32 (fpow h.beta1 k)
  let den := denom h v
  let wn := List.zipWith (fun w x =>
    newWeight h w (stepOf h (fmul arithRne (fsub arithRne one32 h.gamma) (fmul arithRne a x)) den)) ws cg
  if isFinite32 v && wn.all isFinite32 then some (wn, v) else none

/-! ### Moments (R402) -/

/-- Moment elements of a block. -/
def momentDecode (scale : Nat) (codes : List Nat) : List U32 := codes.map (fun c => wr32 arithRne (mxVal .int8 scale c))

/-- A new moment block: its scale and codes. -/
def momentEncode (ms : List U32) : Nat × List Nat :=
  let b := mxConvert .fp32 .int8 { round := 0, sat := false } (fun _ => 0) (ms.map (fun m => decodeFp fp32 m.toNat))
  (b.scale, b.codes)

/-! ### The vote (R415) -/

/-- The square of a finite FP32 value in units of 2^-298. -/
def squareUnits (x : U32) : Nat :=
  match decodeFp fp32 x.toNat with
  | .fin _ n e => n * n * 2 ^ (2 * (e + 149)).toNat
  | _ => 0

/-- An exact sum in those units, rounded once. -/
def voteRound (n : Nat) : U32 := if n = 0 then 0 else BitVec.ofNat 32 (roundTo fp32 .rne false false n 1 (-298)).code

end Sys2Proof.Machine
end

