-- ==== Sys2Proof/Machine/Rake.lean ====
section
/-! DEFINITION. Rake.lean: the Rake front end, its staging slots and the Cloche (R179 to R194, R222). -/

namespace Sys2Proof.Machine

/-! ### The Rake descriptor (R186, R187) -/

structure RakeCtl where
  opcode : Nat
  list : Nat
  listFmt : Nat
  table : Nat
  outFmt : Nat
  spec : Bool
  noAlloc : Bool
  dst : Nat
  count : Nat
  poolOp : Nat
  saturate : Bool
  bagAddr : Nat
  weights : Nat
  deriving DecidableEq, Repr

def rakeCtl (d : Desc) : RakeCtl :=
  { opcode := d.opcode, list := d.bits 2 47 0, listFmt := d.bits 2 49 48, table := d.bits 2 53 50,
    outFmt := d.bits 2 55 54, spec := d.bit 2 56, noAlloc := d.bit 2 57, dst := d.bits 3 47 0, count := d.bits 4 31 0,
    poolOp := d.bits 4 33 32, saturate := d.bit 4 34, bagAddr := d.bits 5 47 0, weights := d.bits 6 47 0 }

def rakeSpans (c : RakeCtl) : List Span :=
  [(2, 63, 58), (3, 63, 48), (4, 63, 35), (5, 63, 48), (6, 63, 48), (7, 63, 0)] ++
  (if c.opcode ≠ 2 then [(4, 34, 32), (5, 47, 0), (6, 47, 0)]
   else (2, 56, 56) :: (if c.poolOp ≠ 2 then [(4, 34, 34)] else []) ++ (if c.poolOp ≠ 0 then [(6, 47, 0)] else [])) ++
  (if c.opcode = 3 then [(2, 56, 54), (3, 47, 0)] else [])

/-- The first offending byte of a Rake descriptor (R8, R187). -/
def State.rakeBad (s : State) (d : Desc) (c : RakeCtl) : Option Nat :=
  minBad (spansBad (descWords d) (rakeSpans c) ++
    [(decide (c.listFmt = 3), 22), (decide (c.opcode ≠ 3 ∧ c.outFmt = 3), 22), (decide (c.opcode = 2 ∧ c.poolOp = 3), 36),
     (decide (c.opcode = 2 ∧ c.outFmt = 2), 22), (c.spec && decide (c.listFmt ≠ 2), 23),
     ((s.table c.table).isNone, 22)])

/-- OUT_BYTES (R187). -/
def outBytes (td : TableDesc) (fmt : Nat) : Nat :=
  match fmt with
  | 2 => td.stride
  | 1 => roundUp (2 * td.dim) 64
  | _ => roundUp (4 * td.dim) 64

/-- FP32 elements in the output format, padded with zero (R174, R187). -/
def outElems (fmt bytes : Nat) (vs : List U32) : List Byte :=
  let bs := vs.flatMap (fun v => if fmt = 1 then leBytes 2 (convFp fp32 bf16 .rne false v.toNat).code else leBytes 4 v.toNat)
  bs ++ List.replicate (bytes - bs.length) 0

/-- A row as it is written. -/
def outRow (td : TableDesc) (fmt : Nat) (rec : List Byte) : List Byte :=
  if fmt = 2 then rec else outElems fmt (outBytes td fmt) (decodeRecord td rec)

/-- The row that a list entry names (R186). -/
def listRow (fmt n : Nat) : Nat := if fmt = 0 then n % 2 ^ 32 else n % 2 ^ 40

def State.readEntry (s : State) (g : Fin 32) (c : RakeCtl) (pos : Nat) : Except Fail Nat :=
  let k := if c.listFmt = 0 then 4 else 8
  match s.readChecked (.ofCluster g .any) (c.list + pos * k) k with
  | .error f => .error f
  | .ok bs => .ok (listRow c.listFmt (leNat bs))

/-! ### The Cloche (R179 to R184) -/

/-- CLOCHE_SLOT of the manifest. -/
def State.clocheSlot (s : State) : Nat := (s.job.inForce.map (·.clocheSlot)).getD 0

/-- Sets of a cluster's Cloche; 0 where a table makes no lookup (R179). -/
def State.clocheSets (s : State) (g : Fin 32) (td : TableDesc) : Nat :=
  let slot := s.clocheSlot
  if slot = 0 ∨ slot < td.stride then 0 else s.clusters[g].clocheKib * 1024 / (16 * slot)

def clocheSet (sets t row : Nat) : Nat := ((row * 2654435761 % 2 ^ 32) ^^^ t) % sets

/-- An entry whose record must be fetched again (R180, R181). -/
def wayStale (td : TableDesc) (w : ClocheWay) : Bool := !td.frozen && decide (w.epoch ≠ td.commitEpoch)

def findWay (ws : List ClocheWay) (t row : Nat) : Option ClocheWay := ws.find? (fun w => decide (w.table = t ∧ w.row = row))

def setWay (ws : List ClocheWay) (w : ClocheWay) : List ClocheWay :=
  w :: ws.filter (fun x => x.way ≠ w.way)

def protectedIn (ws : List ClocheWay) : Nat := (ws.filter (·.prot)).length

/-- A use of a found way (R182). -/
def useWay (hot cap : Nat) (ws : List ClocheWay) (w : ClocheWay) : ClocheWay :=
  let n := satAt 255 (w.count + 1)
  { w with count := n, prot := w.prot || (decide (hot ≤ n) && decide (protectedIn ws < cap)) }

def wayCount (ws : List ClocheWay) (k : Nat) : Nat := ((ws.find? (fun w => decide (w.way = k))).map (·.count)).getD 0
def wayProt (ws : List ClocheWay) (k : Nat) : Bool := (ws.find? (fun w => decide (w.way = k))).any (·.prot)

/-- The unprotected way with the smallest count, the lowest of equals (R182). -/
def victimWay (ws : List ClocheWay) : Nat :=
  let free := (List.range 16).filter (fun k => !wayProt ws k)
  free.foldl (fun m k => if wayCount ws k < wayCount ws m then k else m) (free.headD 0)

/-- What an access finds: the record itself, or a row to be read, to be filled into the Cloche or not. -/
inductive ClocheResult where
  | record (bs : List Byte)
  | fetch (fill : Bool)
  deriving DecidableEq, Repr

/-- An access by a non-speculative GATHER or PREFETCH (R182). -/
def clocheAccess (hot cap policy sets : Nat) (noAlloc : Bool) (td : TableDesc) (t row : Nat) (x : Rake) :
    ClocheResult × Rake :=
  let x := { x with accesses := x.accesses + 1 }
  let k := clocheSet sets t row
  let ws := tabGet x.cloche [] k
  match findWay ws t row with
  | some w =>
    let x := { x with cloche := tabSet x.cloche k (setWay ws (useWay hot cap ws w)) }
    if wayStale td w then (.fetch true, { x with staleRefills := wrap64 x.staleRefills 1 })
    else
      let x := { x with clocheHits := wrap64 x.clocheHits 1 }
      if w.record = [] then (.fetch false, x) else (.record w.record, x)
  | none =>
    let x := { x with clocheMisses := wrap64 x.clocheMisses 1 }
    if noAlloc ∨ policy = 0 then (.fetch false, x)
    else
      let w : ClocheWay :=
        { way := victimWay ws, table := t, row := row, epoch := td.commitEpoch, count := 1, prot := false, record := [] }
      (.fetch true, { x with cloche := tabSet x.cloche k (setWay ws w) })

/-- A speculative gather's lookup: a hit that is not stale, and no change (R184). -/
def clochePeek (sets : Nat) (td : TableDesc) (t row : Nat) (x : Rake) : ClocheResult :=
  match findWay (tabGet x.cloche [] (clocheSet sets t row)) t row with
  | some w => if wayStale td w ∨ w.record = [] then .fetch false else .record w.record
  | none => .fetch false

/-- The lookup of a row for a command of cluster g. -/
def State.rowLookup (s : State) (g : Fin 32) (c : RakeCtl) (td : TableDesc) (row : Nat) : ClocheResult × State :=
  let sets := s.clocheSets g td
  if sets = 0 ∨ c.opcode = 2 then (.fetch false, s)
  else if c.spec then (clochePeek sets td c.table row s.clusters[g].rake, s)
  else
    let r := clocheAccess (s.objNum 0x4210 1) (s.objNum 0x4210 2) (s.objNum 0x4210 3) sets c.noAlloc td c.table row
      s.clusters[g].rake
    (r.1, s.modRake g (fun _ => r.2))

/-- CLOCHE_FILL (R181): the first record on its way fills its way, stamped with the epoch of its issue. -/
def execClocheFill (cluster : Fin 32) (s : State) : Out :=
  match s.clusters[cluster].rake.fills with
  | [] => .next s
  | f :: rest =>
    let sets := match s.table f.table with
      | some td => s.clocheSets cluster td
      | none => 0
    .next (s.modRake cluster (fun x =>
      let k := clocheSet sets f.table f.row
      { x with
        fills := rest
        cloche := if sets = 0 then x.cloche else match findWay (tabGet x.cloche [] k) f.table f.row with
          | some w => tabSet x.cloche k (setWay (tabGet x.cloche [] k) { w with record := f.record, epoch := f.epoch })
          | none => x.cloche }))

/-- Halving every use count (R182). -/
def decayWay (hot : Nat) (w : ClocheWay) : ClocheWay :=
  { w with count := w.count / 2, prot := w.prot && !decide (w.count / 2 < hot / 2) }

/-- Whether DECAY accesses have been made since the last halving. -/
def State.decayDue (s : State) (g : Fin 32) : Bool := decide (s.objNum 0x4210 4 ≤ s.clusters[g].rake.accesses)

/-- CLOCHE_DECAY (R182). -/
def execClocheDecay (cluster : Fin 32) (s : State) : Out :=
  if s.decayDue cluster then
    let hot := s.objNum 0x4210 1
    .next (s.modRake cluster (fun x =>
      { x with accesses := 0, cloche := x.cloche.map (fun p => (p.1, p.2.map (decayWay hot))) }))
  else .next s

/-! ### Jobs -/

def State.rakeJob (s : State) (g : Fin 32) (r : Running) : Option RakeJob :=
  s.clusters[g].rake.jobs.find? (fun j => decide (j.run = r))

def State.setRakeJob (s : State) (g : Fin 32) (r : Running) (j : RakeJob) : State :=
  s.modRake g (fun x => { x with jobs := modFirst (fun y => decide (y.run = r)) (fun _ => j) x.jobs })

def State.dropRakeJob (s : State) (g : Fin 32) (r : Running) : State :=
  s.modRake g (fun x => { x with jobs := delFirst (fun y => decide (y.run = r)) x.jobs })

def newRakeJob (r : Running) : RakeJob :=
  { run := r, next := 0, bag := none, items := [], recent := [], staged := [], blocks := [], confirmed := false, forwarded := 0,
    coalesced := 0, reads := [], fault := none }

/-- Makes a started descriptor a job, with the blocks of the staging area that it takes. -/
def State.openRakeJob (s : State) (g : Fin 32) (r : Running) (blocks : List Nat) : RakeJob × State :=
  let r' := { r with phase := .working }
  let j := { newRakeJob r' with blocks := blocks }
  (j, (s.setRunning g .rake r r').modRake g (fun x => { x with jobs := x.jobs ++ [j] }))

def faultOf (f : Fail) : Nat × Nat × Nat := (f.code, f.arg0, f.arg1)
def failOf (f : Nat × Nat × Nat) : Fail := { code := f.1, arg0 := f.2.1, arg1 := f.2.2 }

/-- Keeps the first fault of a job. -/
def faultJob (f : Fail) (j : RakeJob) : RakeJob := { j with fault := some (j.fault.getD (faultOf f)) }

/-- Writes one output item of a job. -/
def State.writeOut (s : State) (who : Who) (a : Nat) (bs : List Byte) : Except Fail State := s.writeChecked who a bs

/-- Writes a record to a list position of a GATHER, counting it (R187, R214). -/
def State.writeRow (s : State) (g : Fin 32) (c : RakeCtl) (td : TableDesc) (who : Who) (rec : List Byte) (pos : Nat) :
    Except Fail State :=
  match s.writeOut who (c.dst + pos * outBytes td c.outFmt) (outRow td c.outFmt rec) with
  | .error f => .error f
  | .ok s => .ok (s.modRake g (fun x => { x with rowsGathered := wrap64 x.rowsGathered 1 }))

/-! ### The staging area (R178, R192) -/

/-- The 4 KiB blocks of a cluster's staging area. -/
def State.stagingBlocks (s : State) (g : Fin 32) : List Nat :=
  (s.closedRegions.filter (fun r => decide (r.owner = .rakeStaging g.val))).flatMap (fun r =>
    (List.range (r.length / 4096)).map (fun i => r.start + 4096 * i))

/-- The lowest n blocks that no gather holds: where the rows of a gather lie is a DESIGN CHOICE (log entry 37). -/
def State.freeBlocks (s : State) (g : Fin 32) (n : Nat) : List Nat :=
  let x := s.clusters[g].rake
  let taken := x.jobs.flatMap (·.blocks) ++ x.staged.flatMap (·.blocks)
  ((s.stagingBlocks g).filter (fun b => !taken.contains b)).take n

/-- The ranges that n bytes from an offset on take in a list of blocks. -/
def blockParts (blocks : List Nat) (ofs n : Nat) : List (Nat × Nat) :=
  (List.range (cdiv (ofs % 4096 + n) 4096)).map (fun i =>
    let k := ofs / 4096 + i
    let lo := max ofs (k * 4096)
    (blocks.getD k 0 + lo % 4096, min (ofs + n) (k * 4096 + 4096) - lo))

/-- Staging copies are requester 4 (R224), in an area that is open to the Rake alone. -/
def stager (g : Fin 32) : Who := .ofCluster g (.ownReq (.rakeStaging g.val) 4)

/-- Writes bytes into ranges, one after another. -/
def State.writeRanges (s : State) (who : Who) : List (Nat × Nat) → List Byte → Except Fail State
  | [], _ => .ok s
  | (a, n) :: rest, bs =>
    match s.writeChecked who a (bs.take n) with
    | .error f => .error f
    | .ok s => s.writeRanges who rest (bs.drop n)

def State.readRanges (s : State) (who : Who) : List (Nat × Nat) → Except Fail (List Byte)
  | [] => .ok []
  | (a, n) :: rest =>
    match s.readChecked who a n with
    | .error f => .error f
    | .ok bs => match s.readRanges who rest with
      | .error f => .error f
      | .ok more => .ok (bs ++ more)

/-- What a command does with the record of some list positions: PREFETCH nothing, a staging gather keeps it, a GATHER
writes it. `counts`: the record was read elsewhere for a gather not yet confirmed, once for all its positions (R210). -/
def State.giveRow (s : State) (g : Fin 32) (c : RakeCtl) (td : TableDesc) (j : RakeJob) (row : Nat) (rec : List Byte) (counts : Bool) :
    List Nat → RakeJob × State
  | [] => (j, s)
  | p :: ps =>
    if c.opcode = 3 then (j, s)
    else if c.spec then
      match s.writeRanges (stager g) (blockParts j.blocks (p * td.stride) td.stride) rec with
      | .ok s =>
        s.giveRow g c td
          { j with staged := j.staged ++ [{ pos := p, row := row, version := recVersion rec, status := .unchecked, counts := counts }] } row rec false ps
      | .error f => (faultJob f j, s)
    else match s.writeRow g c td (.ofCluster g .any) rec p with
      | .ok s => s.giveRow g c td j row rec counts ps
      | .error f => (faultJob f j, s)

/-- Remembers a distinct row read by the command, the last 256 of them by their first reads, with the partial of a POOL that it
belongs to (R189). A coalesced occurrence does not renew its place (log entry 59). -/
def pushRecent (row key : Nat) (rec : Option (List Byte)) (j : RakeJob) : RakeJob :=
  { j with recent := ((row, key, rec) :: j.recent).take 256 }

/-- Fills in the record of a remembered row. -/
def fillRecent (row : Nat) (rec : List Byte) (j : RakeJob) : RakeJob :=
  { j with recent := j.recent.map (fun x => if x.1 = row then (row, x.2.1, some rec) else x) }

/-- Where a row comes from, after the checks of R190; a row owned elsewhere must have a route (R441). -/
def State.rowSource (s : State) (g : Fin 32) (t : Nat) (td : TableDesc) (pos row : Nat) : Except Fail (RowSource × Nat) :=
  match s.locate (.ofCluster g .any) t td pos row with
  | .error f => .error f
  | .ok (dev, slot, addr) =>
    if dev = s.devNumber then .ok (.localRow addr, slot)
    else if (s.route dev (flowSide s.devNumber dev 0)).isNone then .error (failUnreachable dev 2)
    else .ok (.remote dev, slot)

/-- Takes one list position of a GATHER or PREFETCH (R187, R189, R190). -/
def State.takeRow (s : State) (g : Fin 32) (c : RakeCtl) (td : TableDesc) (j : RakeJob) : RakeJob × State :=
  let pos := j.next
  let j := { j with next := pos + 1 }
  match s.readEntry g c pos with
  | .error f => (faultJob f j, s)
  | .ok row =>
    match j.recent.find? (fun x => decide (x.1 = row)) with
    | some (_, _, rec) =>
      let unsure := c.spec && !j.confirmed
      let j := if unsure then { j with coalesced := j.coalesced + 1 } else j
      let s := if unsure then s else s.modRake g (fun x => { x with rowsCoalesced := wrap64 x.rowsCoalesced 1 })
      match rec with
      | some bs => s.giveRow g c td j row bs false [pos]
      | none =>
        let more (i : RowItem) : RowItem := { i with positions := i.positions ++ [pos] }
        ({ j with items := modFirst (fun i => decide (i.row = row)) more j.items }, s)
    | none =>
      match s.rowSource g c.table td pos row with
      | .error f => (faultJob f j, s.noRoute f)
      | .ok _ =>
        match s.rowLookup g c td row with
        | (.record bs, s) => s.giveRow g c td (pushRecent row 0 (some bs) j) row bs false [pos]
        | (.fetch fill, s) =>
          let i : RowItem :=
            { row := row, positions := [pos], fill := fill, epoch := td.commitEpoch, tag := none }
          (pushRecent row 0 none { j with items := j.items ++ [i] }, s)

/-- Takes positions until the list ends, a fault, or a decay that is due. -/
def State.takeRows (s : State) (g : Fin 32) (c : RakeCtl) (td : TableDesc) : Nat → RakeJob → RakeJob × State
  | 0, j => (j, s)
  | fuel + 1, j =>
    if j.fault.isSome ∨ c.count ≤ j.next ∨ s.decayDue g then (j, s)
    else
      let r := s.takeRow g c td j
      r.2.takeRows g c td fuel r.1

/-- The staging area of a cluster (R178), 0 where the manifest places none. -/
def State.stagingBytes (s : State) (g : Fin 32) : Nat :=
  (s.closedRegions.filter (fun r => decide (r.owner = .rakeStaging g.val))).foldl (fun n r => n + r.length) 0

/-- Staging slots in use, and the bytes they hold (R192). -/
def State.stagingUsed (s : State) (g : Fin 32) : Nat × Nat :=
  let k := s.clusters[g].rake
  let jobs := k.jobs.filter (fun j => (rakeCtl j.run.q.desc).spec && decide (j.run.q.desc.opcode = 1))
  let held := k.staged.filter (·.fits)
  let bytes (r : Running) : Nat :=
    let c := rakeCtl r.q.desc
    ((s.table c.table).map (fun td => roundUp (c.count * td.stride) 4096)).getD 0
  (jobs.length + held.length, (jobs.map (fun j => bytes j.run)).foldl (· + ·) 0 + held.foldl (fun n x => n + x.bytes) 0)

/-- A finished job: a fault ends the descriptor once its issued rows are done; a staging gather holds its slot, confirmed if
its command has been meanwhile; any other completes. -/
def State.settleJob (s : State) (g : Fin 32) (c : RakeCtl) (td : TableDesc) (j : RakeJob) : State :=
  if !j.items.isEmpty then s.setRakeJob g j.run j
  else match j.fault with
    | some f => (s.dropRakeJob g j.run).failDesc g .rake j.run (failOf f)
    | none =>
      if j.next < c.count ∨ j.bag.isSome then s.setRakeJob g j.run j
      else if c.spec then
        let r' := { j.run with phase := .staged }
        let x : StagedGather :=
          { run := r', bytes := roundUp (c.count * td.stride) 4096, blocks := j.blocks, fits := true, confirmed := j.confirmed,
            forwarded := j.forwarded, coalesced := j.coalesced, reads := j.reads, rows := j.staged }
        ((s.dropRakeJob g j.run).setRunning g .rake j.run r').modRake g (fun k =>
          { k with staged := k.staged ++ [x], specStaged := wrap64 k.specStaged 1 })
      else (s.dropRakeJob g j.run).finishDesc g .rake j.run none

/-- A speculative gather that finds no slot or no space stages nothing (R192). -/
def State.noFit (s : State) (g : Fin 32) (r : Running) : State :=
  let r' := { r with phase := .staged }
  (s.setRunning g .rake r r').modRake g (fun k =>
    { k with staged := k.staged ++
               [{ run := r', bytes := 0, blocks := [], fits := false, confirmed := false, forwarded := 0, coalesced := 0, reads := [],
                  rows := [] }],
             specNofit := wrap64 k.specNofit 1 })

/-- The ranges that a descriptor itself names: its list, and where an ordinary GATHER writes. -/
def rakeRanges (c : RakeCtl) (td : TableDesc) : List (Nat × Nat) :=
  if c.opcode = 2 then [(c.bagAddr, 4 * (c.count + 1)), (c.dst, c.count * outBytes td c.outFmt)]
  else (c.list, c.count * (if c.listFmt = 0 then 4 else 8)) ::
    (if c.opcode = 1 ∧ !c.spec then [(c.dst, c.count * outBytes td c.outFmt)] else [])

/-- The list positions that a command takes: those of its list, or those between its first and its last bag offset. -/
def State.rakeSpan (s : State) (c : RakeCtl) : Nat × Nat :=
  if c.opcode = 2 then (s.readNat c.bagAddr 4, s.readNat (c.bagAddr + 4 * c.count) 4 - s.readNat c.bagAddr 4) else (0, c.count)

/-- The list entries and weights of a POOL's members. -/
def memberRanges (c : RakeCtl) (span : Nat × Nat) : List (Nat × Nat) :=
  let k := if c.listFmt = 0 then 4 else 8
  if c.opcode = 2 then (c.list + k * span.1, k * span.2) ::
    (if c.poolOp = 0 ∧ c.weights ≠ 0 then [(c.weights + 4 * span.1, 4 * span.2)] else [])
  else []

/-- A row that the Cloche serves: no read of it is made. -/
def State.clocheServes (s : State) (g : Fin 32) (c : RakeCtl) (td : TableDesc) (row : Nat) : Bool :=
  let sets := s.clocheSets g td
  decide (sets ≠ 0 ∧ c.opcode ≠ 2) && match clochePeek sets td c.table row s.clusters[g].rake with
    | .record _ => true
    | .fetch _ => false

/-- The records of this device that a command will read, by the owner table as it stands. -/
def State.rakeRows (s : State) (g : Fin 32) (c : RakeCtl) (td : TableDesc) : List (Nat × Nat) :=
  let span := s.rakeSpan c
  (List.range span.2).filterMap (fun i =>
    match s.readEntry g c (span.1 + i) with
    | .error _ => none
    | .ok row =>
      if s.clocheServes g c td row then none
      else match s.rowSource g c.table td (span.1 + i) row with
        | .ok (.localRow addr, _) => some (addr, td.stride)
        | _ => none)

/-- Everything that a command reads or writes here, checked before any byte moves (R33, R34): what its descriptor names, then the
records of its rows. A row whose index or owner does not hold faults as it comes (R190). -/
def State.rakeCheck (s : State) (g : Fin 32) (c : RakeCtl) (td : TableDesc) : Except Fail Unit :=
  match s.checkAll (.ofCluster g .any) (rakeRanges c td) with
  | .error f => .error f
  | .ok _ =>
    match s.checkAll (.ofCluster g .any) (memberRanges c (s.rakeSpan c)) with
    | .error f => .error f
    | .ok _ => s.checkAll (.ofCluster g (.req 2)) (s.rakeRows g c td)

/-- GATHER and PREFETCH: the checks of a new descriptor, then the list as far as it can be taken. -/
def State.gatherRun (s : State) (g : Fin 32) (r : Running) : State :=
  let c := rakeCtl r.q.desc
  match s.table c.table with
  | none => s.failDesc g .rake r (failFormat r.q.addr 22)
  | some td =>
    match s.rakeJob g r with
    | some j =>
      let x := s.takeRows g c td c.count j
      x.2.settleJob g c td x.1
    | none =>
      match s.rakeBad r.q.desc c with
      | some o => s.failDesc g .rake r (failFormat r.q.addr o)
      | none =>
        let used := s.stagingUsed g
        match s.rakeCheck g c td with
        | .error f => s.failDesc g .rake r f
        | .ok _ =>
          if c.spec ∧ (64 ≤ used.1 ∨ s.stagingBytes g < used.2 + roundUp (c.count * td.stride) 4096) then s.noFit g r
          else
            let o := s.openRakeJob g r (if c.spec then s.freeBlocks g (cdiv (c.count * td.stride) 4096) else [])
            let x := o.2.takeRows g c td c.count o.1
            x.2.settleJob g c td x.1

/-- A Rake command by opcode. -/
def rakeOp (cluster : Fin 32) (opcode : Nat) (s : State) : State :=
  match s.activeOp cluster .rake opcode with
  | none => s
  | some r =>
    match s.rakeBad r.q.desc (rakeCtl r.q.desc) with
    | some o => s.failDesc cluster .rake r (failFormat r.q.addr o)
    | none => s.gatherRun cluster r

/-- GATHER (R187 to R192). -/
def execGather (cluster : Fin 32) (s : State) : Out := .next (rakeOp cluster 1 s)

/-- PREFETCH (R185). -/
def execPrefetch (cluster : Fin 32) (s : State) : Out := .next (rakeOp cluster 3 s)

/-! ### Requests to other devices (R450) -/

/-- KEY0 and KEY1 of a row request. -/
def rowReqKeys (g : Fin 32) (t row tag : Nat) (versionOnly : Bool) : Nat × Nat :=
  (t + row * 2 ^ 8 + b2n versionOnly * 2 ^ 48, (uidCluster g.val 2).toNat + tag % 2 ^ 32 * 2 ^ 16)

/-- The bit of a TAG that says that the owner counts nothing for the request: a read not yet confirmed, or the VERSION of a row that
its owner has not read for the gather. The owner counts a speculative read when its VERSION is asked, at confirmation (R210). What a
TAG holds is the requester's, so this is a DESIGN CHOICE (log entry 37). -/
def tagSpec : Nat := 2 ^ 31

/-- Sends a row request and answers its tag. -/
def State.askRow (s : State) (g : Fin 32) (dev t row : Nat) (versionOnly spec : Bool) : Except Fail (Nat × State) :=
  let tag := s.clusters[g].rake.nextTag + (if spec then tagSpec else 0)
  let k := rowReqKeys g t row tag versionOnly
  match s.sendPacket dev .rowReq 0 k.1 k.2 [] with
  | .error f => .error f
  | .ok s => .ok (tag, s.modRake g (fun x => { x with nextTag := (x.nextTag + 1) % tagSpec }))

/-- A record for an item of a job has come: its positions take it, and the Cloche may (R181, R187). -/
def State.itemArrived (s : State) (g : Fin 32) (j : RakeJob) (i : RowItem) (rec : List Byte) : State :=
  let c := rakeCtl j.run.q.desc
  match s.table c.table with
  | none => s
  | some td =>
    let s := if i.fill then s.modRake g (fun x =>
      { x with fills := x.fills ++ [{ table := c.table, row := i.row, epoch := i.epoch, record := rec }] }) else s
    let j := fillRecent i.row rec { j with items := delFirst (fun y => decide (y = i)) j.items }
    let x := s.giveRow g c td j i.row rec (i.tag.any (fun t => decide (tagSpec ≤ t))) i.positions
    x.2.settleJob g c td x.1

/-- A row of a job that cannot be read ends the job by a fault. -/
def State.itemFailed (s : State) (g : Fin 32) (j : RakeJob) (i : RowItem) (f : Fail) : State :=
  let c := rakeCtl j.run.q.desc
  match s.table c.table with
  | none => s
  | some td => s.settleJob g c td (faultJob f { j with items := delFirst (fun y => decide (y = i)) j.items })

/-- Issues the read of a row: at the base die of this device, or as a request to its owner. Where the row lies is asked again, since
its shard may have moved meanwhile (R212); the COMMIT_EPOCH of this moment, in which the read counts as issued, is the one that a
fill is stamped with (R181, log entry 57). A read of a gather not yet confirmed counts once it is (R210). -/
def State.issueItem (s : State) (g : Fin 32) (j : RakeJob) (i : RowItem) : State :=
  let c := rakeCtl j.run.q.desc
  match s.table c.table, i.tag with
  | some td, none =>
    match s.rowSource g c.table td (i.positions.headD 0) i.row with
    | .error f => (s.noRoute f).itemFailed g j i f
    | .ok (.localRow addr, slot) =>
      if s.rowComing c.table td i.row then s
      else match s.readChecked (.ofCluster g (.req 2)) addr td.stride with
        | .error f => s.itemFailed g j i f
        | .ok rec =>
          let s := (s.noteRead addr td.stride).countSlots addr td.stride
          let i' := { i with epoch := td.commitEpoch }
          let j := { j with items := modFirst (fun y => decide (y = i)) (fun _ => i') j.items }
          if c.spec && !j.confirmed then s.itemArrived g { j with reads := j.reads ++ [(slot, addr)] } i' rec
          else (s.countRead c.table slot addr).itemArrived g j i' rec
    | .ok (.remote dev, _) =>
      match s.askRow g dev c.table i.row false (c.spec && !j.confirmed) with
      | .error f => (s.noRoute f).itemFailed g j i f
      | .ok (tag, s) =>
        let asked (y : RowItem) : RowItem := { y with tag := some tag, epoch := td.commitEpoch }
        s.setRakeJob g j.run { j with items := modFirst (fun y => decide (y = i)) asked j.items }
  | _, _ => s

/-- The rows on their way in a cluster, job by job. -/
def State.rakeItems (s : State) (g : Fin 32) : List (RakeJob × RowItem) :=
  s.clusters[g].rake.jobs.flatMap (fun j => j.items.map (fun i => (j, i)))

/-! ### Confirmed gathers (R193) -/

def State.setStaged (s : State) (g : Fin 32) (x x' : StagedGather) : State :=
  s.modRake g (fun k => { k with staged := modFirst (fun y => decide (y.run = x.run)) (fun _ => x') k.staged })

def State.dropStaged (s : State) (g : Fin 32) (x : StagedGather) : State :=
  s.modRake g (fun k => { k with staged := delFirst (fun y => decide (y.run = x.run)) k.staged })

/-- Rows of confirmed gathers that a test accepts, in order. -/
def State.stagedRows (s : State) (g : Fin 32) (p : StagedStatus → Bool) : List (StagedGather × StagedRow) :=
  (s.clusters[g].rake.staged.filter (·.confirmed)).flatMap (fun x => (x.rows.filter (fun r => p r.status)).map (fun r => (x, r)))

/-- After the last row is written the gather completes (R193). -/
def State.settleStaged (s : State) (g : Fin 32) (x : StagedGather) : State :=
  if x.rows.isEmpty then (s.dropStaged g x).finishDesc g .rake x.run none else s.setStaged g x x

/-- A staged gather that faults at confirmation. -/
def State.failStaged (s : State) (g : Fin 32) (x : StagedGather) (f : Fail) : State :=
  (s.dropStaged g x).failDesc g .rake x.run f

/-- Replaces or removes a row of a staged gather. -/
def setStagedRow (x : StagedGather) (r : StagedRow) (r' : Option StagedRow) : StagedGather :=
  { x with rows := match r' with
    | some y => modFirst (fun z => decide (z = r)) (fun _ => y) x.rows
    | none => delFirst (fun z => decide (z = r)) x.rows }

/-- The VERSION check's answer (R193): unchanged, or to be fetched again. -/
def State.versionAnswer (s : State) (g : Fin 32) (x : StagedGather) (r : StagedRow) (version : Nat) : State :=
  if version = r.version then s.setStaged g x (setStagedRow x r (some { r with status := .current }))
  else
    (s.setStaged g x (setStagedRow x r (some { r with status := .stale }))).modRake g (fun k =>
      { k with specRefetched := wrap64 k.specRefetched 1 })

/-- VERSION_CHECK (R193, R222): the i-th row not checked yet. -/
def execVersionCheck (cluster : Fin 32) (i : Nat) (s : State) : Out :=
  match (s.stagedRows cluster (fun st => decide (st = .unchecked)))[i]? with
  | none => .next s
  | some (x, r) =>
    let c := rakeCtl x.run.q.desc
    match s.table c.table with
    | none => .next s
    | some td =>
      match s.rowSource cluster c.table td r.pos r.row with
      | .error f => .next ((s.noRoute f).failStaged cluster x f)
      | .ok (.remote dev, _) =>
        match s.askRow cluster dev c.table r.row true (!r.counts) with
        | .error f => .next ((s.noRoute f).failStaged cluster x f)
        | .ok (tag, s) => .next (s.setStaged cluster x (setStagedRow x r (some { r with status := .asked tag })))
      | .ok (.localRow addr, _) =>
        if s.rowComing c.table td r.row then .next s
        else match s.readChecked (.ofCluster cluster (.req 2)) addr 16 with
          | .error f => .next (s.failStaged cluster x f)
          | .ok bs => .next (((s.noteRead addr 16).addSlots (stackOf addr) 1).versionAnswer cluster x r (recVersion bs))

/-- A staged row's current record goes to its destination. -/
def State.stagedWrite (s : State) (g : Fin 32) (x : StagedGather) (r : StagedRow) (who : Who) (rec : List Byte) : State :=
  let c := rakeCtl x.run.q.desc
  match s.table c.table with
  | none => s
  | some td =>
    match s.writeRow g c td who rec r.pos with
    | .error f => s.failStaged g x f
    | .ok s => s.settleStaged g (setStagedRow x r none)

/-- The row slots of a record whose parts lie in several granules: those of the whole record, each stack counting what its part
adds (R194). -/
def State.countParts (s : State) (ps : List (Nat × Nat)) : State :=
  (ps.foldl (fun (x : State × Nat) p =>
    (x.1.addSlots (stackOf p.1) (cdiv (x.2 + p.2) 128 - cdiv x.2 128), x.2 + p.2)) (s, 0)).1

/-- STAGED_ROW_COPY (R193, R222): the i-th row found unchanged goes from the staging area to its destination, as requester 4. -/
def execStagedRowCopy (cluster : Fin 32) (i : Nat) (s : State) : Out :=
  match (s.stagedRows cluster (fun st => decide (st = .current)))[i]? with
  | none => .next s
  | some (x, r) =>
    match s.table (rakeCtl x.run.q.desc).table with
    | none => .next s
    | some td =>
      let ps := blockParts x.blocks (r.pos * td.stride) td.stride
      match s.readRanges (stager cluster) ps with
      | .error f => .next (s.failStaged cluster x f)
      | .ok rec => .next (((ps.foldl (fun s p => s.noteRead p.1 p.2) s).countParts ps).stagedWrite cluster x r (.ofCluster cluster (.req 4)) rec)

/-- Reads a staged row again (R193). -/
def State.refetchRow (s : State) (g : Fin 32) (x : StagedGather) (r : StagedRow) : State :=
  let c := rakeCtl x.run.q.desc
  match s.table c.table with
  | none => s
  | some td =>
    match s.rowSource g c.table td r.pos r.row with
    | .error f => (s.noRoute f).failStaged g x f
    | .ok (.remote dev, _) =>
      match s.askRow g dev c.table r.row false false with
      | .error f => (s.noRoute f).failStaged g x f
      | .ok (tag, s) => s.setStaged g x (setStagedRow x r (some { r with status := .reading tag }))
    | .ok (.localRow addr, slot) =>
      if s.rowComing c.table td r.row then s
      else match s.readChecked (.ofCluster g (.req 2)) addr td.stride with
        | .error f => s.failStaged g x f
        | .ok rec => (((s.noteRead addr td.stride).countSlots addr td.stride).countRead c.table slot addr).stagedWrite g x r (.ofCluster g .any) rec

/-- RECORD_READ (R222): the i-th row on its way, the rows of commands first, then the staged rows to be fetched again. -/
def execRecordRead (cluster : Fin 32) (i : Nat) (s : State) : Out :=
  let items := s.rakeItems cluster
  match items[i]? with
  | some (j, it) => .next (s.issueItem cluster j it)
  | none =>
    match (s.stagedRows cluster (fun st => decide (st = .stale)))[i - items.length]? with
    | some (x, r) => .next (s.refetchRow cluster x r)
    | none => .next s

/-! ### POOL (R188) -/

/-- The identity of a bag's reduction (R188, R304). -/
def poolIdent (op : Nat) : U32 := if op = 2 then ninf32 else 0

/-- The larger of two, where +0.0 counts as larger than -0.0 and a NaN wins (R188, R303). -/
def poolComb (op : Nat) (x y : U32) : U32 := if op = 2 then fmax arithRne x y else fadd arithRne x y

/-- A member's values go into the partial of its owner and stack. -/
def poolAdd (op : Nat) (weight : Option U32) (part vs : List U32) : List U32 :=
  List.zipWith (fun p v => match weight with
    | some w => ffma arithRne w v p
    | none => poolComb op p v) part vs

/-- The result of a bag: its partials in ascending order of owner device and stack, then the mean (R188). The combining starts from
the identity, as each partial does (log entry 58). -/
def bagResult (c : RakeCtl) (dim n : Nat) (parts : Tab (List U32)) : List U32 :=
  if n = 0 then List.replicate dim (if c.poolOp = 2 ∧ c.saturate then 0xFF7FFFFF else poolIdent c.poolOp)
  else
    let r := parts.foldl (fun acc p => List.zipWith (poolComb c.poolOp) acc p.2) (List.replicate dim (poolIdent c.poolOp))
    if c.poolOp = 1 then
      let rcp := (roundTo fp32 .rne false false 1 n 0).code
      r.map (fun v => fmul arithRne v (BitVec.ofNat 32 rcp))
    else r

/-- The bounds of bag k, checked as they are read (R190). -/
def State.bagBounds (s : State) (g : Fin 32) (c : RakeCtl) (k : Nat) : Except Fail (Nat × Nat) :=
  match s.readChecked (.ofCluster g .any) (c.bagAddr + 4 * k) 8 with
  | .error f => .error f
  | .ok bs =>
    let a := leNat (bs.take 4)
    let b := leNat (bs.drop 4)
    if b < a then .error { code := 0x0101, arg0 := c.bagAddr + 4 * (k + 1), arg1 := 0 } else .ok (a, b)

/-- Opens the bag at j.next, or ends the job. -/
def State.openBag (s : State) (g : Fin 32) (c : RakeCtl) (td : TableDesc) (j : RakeJob) : State :=
  if c.count ≤ j.next then s.settleJob g c td { j with bag := none }
  else match s.bagBounds g c j.next with
    | .error f => s.settleJob g c td (faultJob f { j with bag := none })
    | .ok (a, b) => s.setRakeJob g j.run { j with bag := some { pos := a, start := a, stop := b, parts := [], tag := none, reply := none } }

/-- Writes the bag that has taken its members, and opens the next (R187, R188). Each stack with members has returned its partial
(R194). -/
def State.closeBag (s : State) (g : Fin 32) (c : RakeCtl) (td : TableDesc) (j : RakeJob) (n : Nat) (b : Bag) : State :=
  let res := bagResult c td.dim n b.parts
  let s := b.parts.foldl (fun s p => if p.1 / 16 = s.devNumber then s.addSlots (fin12 (p.1 % 16)) 1 else s) s
  match s.writeOut (.ofCluster g .any) (c.dst + j.next * outBytes td c.outFmt) (outElems c.outFmt (outBytes td c.outFmt) res) with
  | .error f => s.settleJob g c td (faultJob f { j with bag := none })
  | .ok s =>
    (s.modRake g (fun x => { x with bagsPooled := wrap64 x.bagsPooled 1 })).openBag g c td { j with next := j.next + 1 }

/-- POOL (R188): starts a pooled gather, or writes the bag whose members are all taken. -/
def execPool (cluster : Fin 32) (s : State) : Out :=
  match s.activeOp cluster .rake 2 with
  | none => .next s
  | some r =>
    let c := rakeCtl r.q.desc
    match s.rakeBad r.q.desc c, s.table c.table with
    | some o, _ => .next (s.failDesc cluster .rake r (failFormat r.q.addr o))
    | none, none => .next s
    | none, some td =>
      match s.rakeJob cluster r with
      | none =>
        match s.rakeCheck cluster c td with
        | .error f => .next (s.failDesc cluster .rake r f)
        | .ok _ =>
          let o := s.openRakeJob cluster r []
          .next (o.2.openBag cluster c td o.1)
      | some j =>
        match j.bag with
        | none => .next s
        | some b =>
          if b.pos < b.stop then .next s
          else .next (s.closeBag cluster c td j (b.stop - b.start) b)

/-- The weight of a member (R186). -/
def State.poolWeight (s : State) (g : Fin 32) (c : RakeCtl) (pos : Nat) : Except Fail (Option U32) :=
  if c.poolOp ≠ 0 ∨ c.weights = 0 then .ok none
  else match s.readChecked (.ofCluster g .any) (c.weights + 4 * pos) 4 with
    | .error f => .error f
    | .ok bs => .ok (some (BitVec.ofNat 32 (leNat bs)))

/-- Accumulates a member whose record is there. -/
def State.addMember (s : State) (g : Fin 32) (c : RakeCtl) (td : TableDesc) (j : RakeJob) (b : Bag) (key row : Nat)
    (rec : List Byte) : State :=
  match s.poolWeight g c b.pos with
  | .error f => s.settleJob g c td (faultJob f { j with bag := none })
  | .ok w =>
    let part := tabGet b.parts (List.replicate td.dim (poolIdent c.poolOp)) key
    let b := { b with pos := b.pos + 1, tag := none, reply := none,
                      parts := tabSet b.parts key (poolAdd c.poolOp w part (decodeRecord td rec)) }
    s.setRakeJob g j.run (pushRecent row key (some rec)
      { j with bag := some b, recent := j.recent.filter (fun x => x.1 ≠ row) })

/-- A coalesced member: counted in its bag, with the record read first (R189). -/
def State.addCoalesced (s : State) (g : Fin 32) (c : RakeCtl) (td : TableDesc) (j : RakeJob) (b : Bag) (key : Nat)
    (rec : List Byte) : State :=
  let s := s.modRake g (fun x => { x with rowsCoalesced := wrap64 x.rowsCoalesced 1 })
  match s.poolWeight g c b.pos with
  | .error f => s.settleJob g c td (faultJob f { j with bag := none })
  | .ok w =>
    let part := tabGet b.parts (List.replicate td.dim (poolIdent c.poolOp)) key
    s.setRakeJob g j.run { j with bag := some { b with
      pos := b.pos + 1, parts := tabSet b.parts key (poolAdd c.poolOp w part (decodeRecord td rec)) } }

/-- Takes the next member of the open bag (R188 to R190). -/
def State.poolMember (s : State) (g : Fin 32) (c : RakeCtl) (td : TableDesc) (j : RakeJob) (b : Bag) : State :=
  match s.readEntry g c b.pos with
  | .error f => s.settleJob g c td (faultJob f { j with bag := none })
  | .ok row =>
    match j.recent.find? (fun x => decide (x.1 = row)), b.tag with
    | some (_, key, some rec), none => s.addCoalesced g c td j b key rec
    | _, _ =>
    match s.locate (.ofCluster g .any) c.table td b.pos row with
    | .error f => s.settleJob g c td (faultJob f { j with bag := none })
    | .ok (dev, slot, addr) =>
      let key := 16 * dev + (stackOf addr).val
      match b.tag, b.reply with
      | some _, some rec => s.addMember g c td j b key row rec
      | some _, none => s
      | none, _ =>
        if dev = s.devNumber then
          if s.rowComing c.table td row then s
          else match s.readChecked (.ofCluster g (.req 2)) addr td.stride with
            | .error f => s.settleJob g c td (faultJob f { j with bag := none })
            | .ok rec => (((s.noteRead addr td.stride).countSlots addr td.stride).countRead c.table slot addr).addMember g c td j b key row rec
        else match s.askRow g dev c.table row false false with
          | .error f => (s.noRoute f).settleJob g c td (faultJob f { j with bag := none })
          | .ok (tag, s) => s.setRakeJob g j.run { j with bag := some { b with tag := some tag } }

/-- POOLED_MEMBER (R222): the next member of the bag that a POOL accumulates. -/
def execPooledMember (cluster : Fin 32) (s : State) : Out :=
  match s.activeOp cluster .rake 2 with
  | none => .next s
  | some r =>
    match s.rakeJob cluster r, s.table (rakeCtl r.q.desc).table with
    | some j, some td =>
      match j.bag with
      | some b => if b.pos < b.stop then .next (s.poolMember cluster (rakeCtl r.q.desc) td j b) else .next s
      | none => .next s
    | _, _ => .next s

end Sys2Proof.Machine
end

