-- ==== Sys2Proof/Machine/Sprinkler.lean ====
section
/-! DEFINITION. Sprinkler.lean: the Sprinkler front end, the back end's log, load counts and Transplant (R195 to R213,
R222). -/

namespace Sys2Proof.Machine

/-! ### SCATTER (R196 to R204, R207) -/

structure ScatterCtl where
  list : Nat
  listFmt : Nat
  table : Nat
  gradFmt : Nat
  expand : Nat
  gradAddr : Nat
  count : Nat
  mb : Nat
  bagAddr : Nat
  firstPos : Nat
  deriving DecidableEq, Repr

def scatterCtl (d : Desc) : ScatterCtl :=
  { list := d.bits 2 47 0, listFmt := d.bits 2 49 48, table := d.bits 2 53 50, gradFmt := d.bits 2 55 54,
    expand := d.bits 2 57 56, gradAddr := d.bits 3 47 0, count := d.bits 4 31 0, mb := d.bits 4 47 32,
    bagAddr := d.bits 5 47 0, firstPos := d.bits 6 31 0 }

def scatterSpans (c : ScatterCtl) : List Span :=
  [(2, 63, 58), (3, 63, 48), (4, 63, 48), (5, 63, if c.expand = 0 then 0 else 48), (6, 63, 32), (7, 63, 0)]

/-- The first offending byte of a SCATTER (R187, R196). -/
def State.scatterBad (s : State) (d : Desc) (c : ScatterCtl) : Option Nat :=
  minBad (spansBad (descWords d) (scatterSpans c) ++
    [(decide (c.listFmt = 3), 22), (decide (1 < c.gradFmt), 22), (decide (c.expand = 3), 23), ((s.table c.table).isNone, 22)])

def failFrozen (t : Nat) : Fail := { code := 0x0404, arg0 := t, arg1 := 0 }

/-- R199: the row, and micro-batch, device and table. -/
def failOrder (row mb dev t : Nat) : Fail := { code := 0x0405, arg0 := row, arg1 := mb + dev * 2 ^ 16 + t * 2 ^ 32 }

/-- Sets the log-fault bit of a die's update unit (R204, R205). -/
def State.logFault (s : State) (d : Fin 4) : State := s.modUpd d (fun u => { u with logFault := true })

/-- Some stack still holds the shadow log of the previous step (R206, R272). -/
def State.shadowPending (s : State) : Bool := (List.finRange 12).any (fun k => !(s.hbm[k]).shadow.isEmpty)

/-- The bytes of a partial in the spill area or a log (R204). -/
def partialBytes (dim : Nat) : Nat := roundUp (16 + 4 * dim) 64

def inBuffer (ps : List FrontPartial) : Nat := (ps.filter (fun p => decide (p.place = .buffer))).length
def inHot (ps : List FrontPartial) : Nat := (ps.filter (fun p => decide (p.place = .hot))).length
def spillUsed (ps : List FrontPartial) : Nat :=
  ((ps.filter (fun p => decide (p.place = .spilled))).map (fun p => partialBytes p.elems.length)).foldl (· + ·) 0

/-- A spill area, or the least that R178 allows where the manifest places none. -/
def State.spillBytes (s : State) (g : Fin 32) : Nat :=
  let rs := s.closedRegions.filter (fun r => decide (r.owner = .spill g.val))
  if rs.isEmpty then 2 ^ 20 else rs.foldl (fun n r => n + r.length) 0

/-- Sends a partial to its row's owner (R195): to this device's back ends, or as SCATTER_ADD (R450). -/
def State.sendPartial (s : State) (g : Fin 32) (p : FrontPartial) : Except Fail State :=
  match s.table p.table with
  | none => .ok s
  | some td =>
    match s.locate .any p.table td 0 p.row with
    | .error f => .error f
    | .ok (dev, _, _) =>
      let step := (s.dies[dieOfCluster g]).upd.stepNumber.toNat
      let s := s.modSprinkler g (fun x => { x with partialsSent := wrap64 x.partialsSent 1 })
      if dev = s.devNumber then
        .ok { s with partials := s.partials ++ [{ cluster := some g.val, source := s.devNumber, table := p.table, row := p.row,
                                                  mb := p.mb, step := step, elems := p.elems,
                                                  free := s.clusters[g].sprinkler.free }] }
      else
        match s.sendPacket dev .scatterAdd step (p.row + p.table * 2 ^ 40 + p.mb * 2 ^ 48) 0
            (p.elems.flatMap (fun e => leBytes 4 e.toNat)) with
        | .error f => .error f
        | .ok s => .ok (s.modSprinkler g (fun x => { x with sending := x.sending ++ [(dev, s.lastPsn dev 3)] }))

/-- Sends partials in order; the first failure is kept. -/
def State.sendPartials (s : State) (g : Fin 32) : List FrontPartial → Option Fail × State
  | [] => (none, s)
  | p :: ps =>
    match s.sendPartial g p with
    | .ok s => s.sendPartials g ps
    | .error f =>
      let r := (s.noRoute f).sendPartials g ps
      (some f, r.2)

/-- The partial of a row in the open window: that of a micro-batch in ORDERED mode, any in FREE mode (R199, R202, R208). A FREE
partial keeps the micro-batch of its first contribution. -/
def samePart (free : Bool) (t row mb : Nat) (p : FrontPartial) : Bool := decide (p.table = t ∧ p.row = row ∧ (free = true ∨ p.mb = mb))

/-- The least recently used partial of the buffer. -/
def lruPart (ps : List FrontPartial) : Option FrontPartial := ps.reverse.find? (fun p => decide (p.place = .buffer))

/-- Makes room for one more partial in the buffer (R203, R204): `none` where there is none to be had. The spill space of a partial
that is being reloaded is not free for it (log entry 61). -/
def State.makeRoom (s : State) (g : Fin 32) : Option State :=
  let x := s.clusters[g].sprinkler
  if inBuffer x.parts < 4096 then some s
  else match lruPart x.parts with
    | none => some s
    | some v =>
      if spillUsed x.parts + partialBytes v.elems.length ≤ s.spillBytes g then
        some (s.modSprinkler g (fun y =>
          { y with spills := wrap64 y.spills 1,
                   parts := modFirst (fun p => decide (p = v)) (fun p => { p with place := .spilled }) y.parts }))
      else if x.free then
        let s := s.modSprinkler g (fun y => { y with parts := delFirst (fun p => decide (p = v)) y.parts })
        some (s.sendPartials g [v]).2
      else none

/-- The stream that the detector counts a position in (R207): a micro-batch, or all of them. -/
def hotStream (free : Bool) (mb : Nat) : Nat := if free then 0 else mb + 1

/-- Counts a position in the hot-index detector and moves the index to a combining register when due (R207). -/
def detectHot (threshold t row mb pos : Nat) (x : Sprinkler) : Sprinkler :=
  let st := hotStream x.free mb
  let key := t * 2 ^ 40 + row
  let recent : List (Nat × Nat × Nat) := (st, pos, key) :: x.recent.filter (fun y => decide (y.1 ≠ st ∨ pos < y.2.1 + 1024))
  let n : Nat := (recent.filter (fun y => decide (y.1 = st ∧ y.2.2 = key))).length
  let x : Sprinkler := { x with recent := recent }
  let due : Bool := decide (threshold ≤ n) && decide (inHot x.parts < 16) &&
    x.parts.any (fun p => samePart x.free t row mb p && decide (p.place = .buffer))
  if due then
    { x with hotDiverts := wrap64 x.hotDiverts 1,
             parts := modFirst (samePart x.free t row mb) (fun p => { p with place := .hot }) x.parts }
  else x

/-- Adds a gradient row to its partial, which becomes the most recently used (R200 step 1). -/
def addPart (t row mb : Nat) (grad : List U32) (x : Sprinkler) : Sprinkler :=
  match x.parts.find? (samePart x.free t row mb) with
  | some p =>
    let p' := { p with elems := List.zipWith (fadd arithRne) p.elems grad,
                       place := if p.place = .spilled then .buffer else p.place }
    { x with parts := p' :: delFirst (samePart x.free t row mb) x.parts }
  | none =>
    let p : FrontPartial :=
      { table := t, row := row, mb := mb, place := .buffer, elems := grad.map (fun v => fadd arithRne 0 v) }
    { x with parts := p :: x.parts }

/-- Counts a position taken (R199, R202): `taken` holds one more than a micro-batch's last position. -/
def countPos (mb pos : Nat) (x : Sprinkler) : Sprinkler :=
  if x.free then { x with windowPos := x.windowPos + 1, streamPos := x.streamPos + 1 }
  else { x with taken := tabSet x.taken mb (pos + 1) }

/-- Takes one contribution (R199 to R204, R207). -/
def State.contribute (s : State) (g : Fin 32) (t row mb pos : Nat) (grad : List U32) : State :=
  let x := s.clusters[g].sprinkler
  let held := x.parts.any (fun p => samePart x.free t row mb p && decide (p.place ≠ .spilled))
  let dpos := if x.free then x.streamPos else pos
  let s := s.modSprinkler g (countPos mb pos)
  match (if held then some s else s.makeRoom g) with
  | none =>
    (s.raiseC g (uidCluster g.val 3) 0x0408 row (t + mb * 2 ^ 16) g.val).logFault (dieOfCluster g)
  | some s =>
    s.modSprinkler g (fun x => detectHot (s.objNum 0x4220 3) t row mb dpos
      { addPart t row mb grad x with contributions := wrap64 x.contributions 1 })

/-- The gradient row of a list entry or bag, multiplied by 1 / n where the expansion asks for it (R196, R200). -/
def State.gradRow (s : State) (g : Fin 32) (c : ScatterCtl) (dim i n : Nat) : Except Fail (List U32) :=
  let k := if c.gradFmt = 1 then 2 else 4
  match s.readChecked (.ofCluster g .any) (c.gradAddr + i * roundUp (k * dim) 64) (k * dim) with
  | .error f => .error f
  | .ok bs =>
    let vs := (unpackCodes (8 * k) bs dim).map (fun v => if k = 2 then widen bf16 v else BitVec.ofNat 32 v)
    .ok (if c.expand = 2 then
        let rcp := BitVec.ofNat 32 (roundTo fp32 .rne false false 1 n 0).code
        vs.map (fun v => fmul arithRne v rcp)
      else vs)

/-- The row index of a list entry. -/
def State.scatterEntry (s : State) (g : Fin 32) (c : ScatterCtl) (pos : Nat) : Except Fail Nat :=
  let k := if c.listFmt = 0 then 4 else 8
  match s.readChecked (.ofCluster g .any) (c.list + pos * k) k with
  | .error f => .error f
  | .ok bs => .ok (listRow c.listFmt (leNat bs))

/-- A contribution's row is checked before it is taken (R190, R441). -/
def State.scatterOwner (s : State) (g : Fin 32) (t : Nat) (td : TableDesc) (pos row : Nat) : Except Fail Unit :=
  match s.locate (.ofCluster g .any) t td pos row with
  | .error f => .error f
  | .ok (dev, _, _) =>
    if dev ≠ s.devNumber ∧ (s.route dev (flowSide s.devNumber dev 3)).isNone then .error (failUnreachable dev 4) else .ok ()

/-- Takes the next list entry of a SCATTER. -/
def State.scatterOne (s : State) (g : Fin 32) (c : ScatterCtl) (td : TableDesc) (j : ScatterJob) : Except Fail State :=
  match s.scatterEntry g c j.pos with
  | .error f => .error f
  | .ok row =>
    match s.scatterOwner g c.table td j.pos row with
    | .error f => .error f
    | .ok _ =>
      match s.gradRow g c td.dim (if c.expand = 0 then j.pos else j.bag) (j.stop - j.start) with
      | .error f => .error f
      | .ok grad => .ok (s.contribute g c.table row c.mb (c.firstPos + j.pos) grad)

/-- A FREE window is full (R202). -/
def State.windowDue (s : State) (g : Fin 32) : Bool :=
  let x := s.clusters[g].sprinkler
  x.free && decide (s.objNum 0x4220 2 ≤ x.windowPos)

/-- The bounds of bag k (R190). -/
def State.scatterBag (s : State) (g : Fin 32) (c : ScatterCtl) (k : Nat) : Except Fail (Nat × Nat) :=
  match s.readChecked (.ofCluster g .any) (c.bagAddr + 4 * k) 8 with
  | .error f => .error f
  | .ok bs =>
    let a := leNat (bs.take 4)
    let b := leNat (bs.drop 4)
    if b < a then .error { code := 0x0101, arg0 := c.bagAddr + 4 * (k + 1), arg1 := 0 } else .ok (a, b)

/-- How far a SCATTER has come. -/
inductive ScatterStop where
  | done | window | fault (f : Fail)
  deriving DecidableEq, Repr

/-- Takes a list of n entries from the job's position on. -/
def State.scatterList (s : State) (g : Fin 32) (c : ScatterCtl) (td : TableDesc) :
    Nat → ScatterJob → ScatterStop × ScatterJob × State
  | 0, j => (.done, j, s)
  | n + 1, j =>
    if s.windowDue g then (.window, j, s)
    else match s.scatterOne g c td j with
      | .error f => (.fault f, j, s.noRoute f)
      | .ok s => s.scatterList g c td n { j with pos := j.pos + 1 }

/-- Takes the bags from the job's on. -/
def State.scatterBags (s : State) (g : Fin 32) (c : ScatterCtl) (td : TableDesc) :
    Nat → ScatterJob → ScatterStop × ScatterJob × State
  | 0, j => (.done, j, s)
  | n + 1, j =>
    match s.scatterBag g c j.bag with
    | .error f => (.fault f, j, s)
    | .ok (a, b) =>
      let j := { j with start := a, stop := b, pos := max j.pos a }
      let r := s.scatterList g c td (b - j.pos) j
      match r.1 with
      | .done => r.2.2.scatterBags g c td n { r.2.1 with bag := j.bag + 1 }
      | _ => r

/-- Runs a SCATTER as far as it goes. -/
def State.scatterGo (s : State) (g : Fin 32) (c : ScatterCtl) (td : TableDesc) (j : ScatterJob) : State :=
  let r := if c.expand = 0 then s.scatterList g c td (c.count - j.pos) j else s.scatterBags g c td (c.count - j.bag) j
  match r.1 with
  | .done => (r.2.2.modSprinkler g (fun x => { x with job := none })).finishDesc g .sprinkler r.2.1.run none
  | .window => r.2.2.modSprinkler g (fun x => { x with job := some r.2.1 })
  | .fault f => (r.2.2.modSprinkler g (fun x => { x with job := none })).failDesc g .sprinkler r.2.1.run f

/-- The step that starts takes COMBINE_MODE as its mode, in the front ends of a die (R198). -/
def State.takeMode (s : State) (d : Fin 4) : State :=
  let free := decide (s.objNum 0x4220 1 = 1)
  ((List.finRange 32).filter (fun g => decide (dieOfCluster g = d))).foldl (fun s g =>
    s.modSprinkler g (fun x => { x with free := free })) s

/-- The mode in force on this device (R198). -/
def State.modeFree (s : State) : Bool := s.liveClusters.head?.any (fun g => s.clusters[g].sprinkler.free)

/-- The ranges that a SCATTER itself names, checked before any contribution is taken (R33, R34). -/
def scatterRanges (c : ScatterCtl) (dim : Nat) : List (Nat × Nat) :=
  (c.gradAddr, c.count * roundUp ((if c.gradFmt = 1 then 2 else 4) * dim) 64) ::
    (if c.expand = 0 then [(c.list, c.count * (if c.listFmt = 0 then 4 else 8))] else [(c.bagAddr, 4 * (c.count + 1))])

/-- A new SCATTER: its checks, the wait of R206, its order (R199). -/
def State.scatterStart (s : State) (g : Fin 32) (r : Running) (c : ScatterCtl) : State :=
  match s.scatterBad r.q.desc c, s.table c.table with
  | some o, _ => s.failDesc g .sprinkler r (failFormat r.q.addr o)
  | none, none => s.failDesc g .sprinkler r (failFormat r.q.addr 22)
  | none, some td =>
    if td.frozen then s.failDesc g .sprinkler r (failFrozen c.table)
    else if s.shadowPending then s
    else
      let x := s.clusters[g].sprinkler
      if !x.free ∧ c.firstPos + 1 < tabGet x.taken 0 c.mb then
        let row := match s.scatterEntry g c 0 with
          | .ok r => r
          | .error _ => 0
        (s.failDesc g .sprinkler r (failOrder row c.mb s.devNumber c.table)).logFault (dieOfCluster g)
      else
        match s.checkAll (.ofCluster g .any) (scatterRanges c td.dim) with
        | .error f => s.failDesc g .sprinkler r f
        | .ok _ =>
          let r' := { r with phase := .working }
          (s.setRunning g .sprinkler r r').scatterGo g c td { run := r', pos := 0, bag := 0, start := 0, stop := 0 }

/-- SCATTER (R199 to R204). -/
def execScatter (cluster : Fin 32) (s : State) : Out :=
  match s.activeOp cluster .sprinkler 1 with
  | none => .next s
  | some r =>
    let c := scatterCtl r.q.desc
    if r.phase = .started then .next (s.scatterStart cluster r c)
    else match s.clusters[cluster].sprinkler.job, s.table c.table with
      | some j, some td => .next (s.scatterGo cluster c td j)
      | _, _ => .next s

/-- FREE_WINDOW_CLOSE (R202): after FREE_WINDOW positions, every partial of the window is sent. -/
def execFreeWindowClose (cluster : Fin 32) (s : State) : Out :=
  if s.windowDue cluster then
    let ps := s.clusters[cluster].sprinkler.parts
    let r := (s.modSprinkler cluster (fun x => { x with parts := [], windowPos := 0 })).sendPartials cluster ps
    .next (match r.1 with
      | none => r.2
      | some f => r.2.raiseC cluster (uidCluster cluster.val 3) f.code f.arg0 f.arg1 0)
  else .next s

/-! ### FLUSH (R197) -/

/-- Every partial that the cluster has sent has been recorded by its owner (R197, log entry 13). -/
def State.partialsRecorded (s : State) (g : Fin 32) : Bool :=
  !s.partials.any (fun p => decide (p.cluster = some g.val)) &&
  s.clusters[g].sprinkler.sending.all (fun x => !(s.txFlow x.1 3).unacked.any (fun p => decide (p.psn = x.2)))

def flushSpans : List Span := [(2, 63, 32), (3, 63, 0), (4, 63, 0), (5, 63, 0), (6, 63, 0), (7, 63, 0)]

/-- A frozen table in a FLUSH's mask. -/
def State.frozenIn (s : State) (mask : Nat) : Option Nat :=
  (List.range 16).find? (fun t => bitOf mask t && (s.table t).any (·.frozen))

/-- The start of a FLUSH: its checks, then every partial of its micro-batch and tables is sent; in FREE mode it closes the window, and
every partial of that is sent (R202). Whatever its mask, the positions of its micro-batch count as not taken from then on (log
entry 60). -/
def State.flushStart (s : State) (g : Fin 32) (r : Running) (mb mask : Nat) : State :=
  match firstNonzero (descWords r.q.desc) flushSpans, s.frozenIn mask with
  | some o, _ => s.failDesc g .sprinkler r (failFormat r.q.addr o)
  | none, some t => s.failDesc g .sprinkler r (failFrozen t)
  | none, none =>
    let free := s.clusters[g].sprinkler.free
    let sel (p : FrontPartial) : Bool := free || (decide (p.mb = mb) && bitOf mask p.table)
    let ps := (s.clusters[g].sprinkler.parts.filter sel).insertionSort
      (fun a b => a.table < b.table ∨ (a.table = b.table ∧ a.row ≤ b.row))
    let x := (s.modSprinkler g (fun x =>
      { x with parts := x.parts.filter (fun p => !sel p), taken := tabDel x.taken mb,
               windowPos := 0,
               recent := if x.free then x.recent else x.recent.filter (fun y => decide (y.1 ≠ hotStream false mb)) })).sendPartials g ps
    match x.1 with
    | some f => x.2.failDesc g .sprinkler r f
    | none => x.2.setRunning g .sprinkler r { r with phase := .working }

/-- FLUSH (R197): the partials are sent, and the command completes once their owners have recorded them. -/
def execFlush (cluster : Fin 32) (s : State) : Out :=
  match s.activeOp cluster .sprinkler 2 with
  | none => .next s
  | some r =>
    if r.phase = .started then .next (s.flushStart cluster r (r.q.desc.bits 2 15 0) (r.q.desc.bits 2 31 16))
    else if s.partialsRecorded cluster then
      .next ((s.modSprinkler cluster (fun x => { x with sending := [] })).finishDesc cluster .sprinkler r none)
    else .next s

/-! ### ARM_OWNER and Transplant (R211 to R213) -/

def armSpans : List Span := [(2, 63, 4), (3, 63, 48), (4, 63, 0), (5, 63, 0), (6, 63, 0), (7, 63, 0)]

/-- ARM_OWNER (R211). -/
def execArmOwner (cluster : Fin 32) (s : State) : Out :=
  match s.activeOp cluster .sprinkler 3 with
  | none => .next s
  | some r =>
    let t := r.q.desc.bits 2 3 0
    let m := r.q.desc.bits 3 47 0
    match firstNonzero (descWords r.q.desc) armSpans, s.table t with
    | some o, _ => .next (s.failDesc cluster .sprinkler r (failFormat r.q.addr o))
    | none, none => .next (s.failDesc cluster .sprinkler r (failFormat r.q.addr 16))
    | none, some td =>
      if m ≤ s.clusters[cluster].season then
        .next (s.failDesc cluster .sprinkler r { code := 0x0303, arg0 := m, arg1 := 0xFFFF })
      else if td.ownerSeason ≠ 0 then
        .next (s.failDesc cluster .sprinkler r { code := 0x0102, arg0 := r.q.addr, arg1 := m })
      else .next ((s.setTable t { td with ownerSeason := m }).finishDesc cluster .sprinkler r none)

/-- The entry of a shard in a half of the owner table, by the access rules. -/
def State.ownerEntry (s : State) (td : TableDesc) (half : Bool) (k : Nat) : Except Fail Nat :=
  match s.readChecked (.req 3) (ownerEntryAddr td half k) 8 with
  | .ok bs => .ok (leNat bs)
  | .error f => .error f

/-- The failures of reading a half, as events of the stacks that hold the entries. -/
def State.ownerFaults (s : State) (td : TableDesc) (half : Bool) : State :=
  (List.range (shardCount td)).foldl (fun s k =>
    match s.ownerEntry td half k with
    | .ok _ => s
    | .error f => (s.countUe f).raiseD (uidStack (stackOf (ownerEntryAddr td half k)).val) f.code f.arg0 f.arg1 0) s

/-- The shards that a flip moves from or to this device: shard, old entry, new entry. A shard whose entries cannot be read moves
nowhere. -/
def State.movedShards (s : State) (td : TableDesc) : List (Nat × Nat × Nat) :=
  (List.range (shardCount td)).filterMap (fun k =>
    match s.ownerEntry td td.ownerHalf k, s.ownerEntry td (!td.ownerHalf) k with
    | .ok a, .ok b => if entryDevice a = entryDevice b then none else some (k, a, b)
    | _, _ => none)

/-- Rows of a shard that exist. -/
def shardRows (td : TableDesc) (shard : Nat) : Nat :=
  min (2 ^ td.shardLog2) (td.rowCount - shard * 2 ^ td.shardLog2)

/-- The flip of one table at the advance into M (R212 step 2). -/
def State.flipTable (s : State) (season t : Nat) (td : TableDesc) : State :=
  let me := s.devNumber
  let mv := s.movedShards td
  let outs := (mv.filter (fun x => decide (entryDevice x.2.1 = me))).map (fun x =>
    ({ table := t, shard := x.1, oldSlot := entrySlot x.2.1, newDevice := entryDevice x.2.2, newSlot := entrySlot x.2.2,
       rows := shardRows td x.1, nextRow := 0, season := season, lost := false } : MoveJob))
  let ins := (mv.filter (fun x => decide (entryDevice x.2.2 = me))).map (fun x =>
    ({ table := t, shard := x.1, slot := entrySlot x.2.2,
       arrived := ((s.early.find? (fun e => decide (e.table = t ∧ e.shard = x.1))).map (·.arrived)).getD 0 } : Incoming))
  { ((s.ownerFaults td td.ownerHalf).ownerFaults td (!td.ownerHalf)).setTable t
      { td with ownerHalf := !td.ownerHalf, ownerSeason := 0 } with
    moves := s.moves ++ outs, incoming := s.incoming ++ ins, early := s.early.filter (fun e => decide (e.table ≠ t)) }

/-- Flips every table armed for a Season (R212 step 2). -/
def State.flipOwners (s : State) (season : Nat) : State :=
  s.job.tables.foldl (fun s p =>
    if p.2.valid ∧ p.2.ownerSeason = season ∧ season ≠ 0 then s.flipTable season p.1 p.2 else s) s

/-- The end of Season M (R212 step 5): copies are no longer forwarded. -/
def State.endMoves (s : State) (season : Nat) : State :=
  { s with moves := s.moves.filter (fun m => decide (m.season ≠ season)), incoming := [] }

/-- TRANSPLANT_COPY (R212, R222): the next record of the i-th moved shard goes to its new owner. -/
def execTransplantCopy (i : Nat) (s : State) : Out :=
  match s.moves[i]? with
  | none => .next s
  | some m =>
    match s.table m.table with
    | none => .next s
    | some td =>
      if m.rows ≤ m.nextRow then .next s
      else
        let row := m.shard * 2 ^ td.shardLog2 + m.nextRow
        let from_ := recordAddr td m.oldSlot row
        let res : Except Fail State := match s.readChecked (.req 4) from_ td.stride with
          | .error f => .error f
          | .ok bs => (s.noteRead from_ td.stride).sendPacket m.newDevice .write 0 (recordAddr td m.newSlot row) 0 bs
        match res with
        | .error f => .next (((s.countUe f).noRoute f).raiseD (uidStack (stackOf from_).val) f.code f.arg0 f.arg1 0)
        | .ok s => .next { s with moves := listSet s.moves i { m with nextRow := m.nextRow + 1 } }

/-! ### The back end (R200 to R202, R205, R209) -/

def logBytes (k : Stack) : Nat :=
  (k.log.map (fun r => (r.parts.map (fun p => partialBytes p.2.2.length)).foldl (· + ·) 0 +
    (match r.acc with
      | some a => partialBytes a.length
      | none => 0))).foldl (· + ·) 0

/-- A stack's Sprinkler log, or the least that R178 allows where the manifest places none. -/
def State.logArea (s : State) (k : Fin 12) : Nat :=
  let rs := s.closedRegions.filter (fun r => decide (r.owner = .log k.val))
  if rs.isEmpty then 2 ^ 24 else rs.foldl (fun n r => n + r.length) 0

def logRowIs (t row : Nat) (r : LogRow) : Bool := decide (r.table = t ∧ r.row = row)

/-- Changes or adds a row of a log. -/
def modLog (t row : Nat) (f : LogRow → LogRow) (log : List LogRow) : List LogRow :=
  if log.any (logRowIs t row) then modFirst (logRowIs t row) f log
  else log ++ [f { table := t, row := row, parts := [], acc := none }]

/-- Whether a log already holds a partial of a key (R201). -/
def logHas (t row source mb : Nat) (log : List LogRow) : Bool :=
  log.any (fun r => logRowIs t row r && r.parts.any (fun p => decide (p.1 = source ∧ p.2.1 = mb)))

def logAcc (t row : Nat) (log : List LogRow) : Option (List U32) := (log.find? (logRowIs t row)).bind (·.acc)

/-- A partial is applied: counted for its slot, with its row slots (R194, R209). -/
def State.applied (s : State) (p : PartialMsg) (slot addr : Nat) : State :=
  (s.countApplied p.table slot addr).addSlots (stackOf addr) (2 * cdiv (4 * p.elems.length) 128)

/-- A partial that cannot be recorded ends the FLUSH that sent it; another one's failure is the stack's event (R33, R34, R90). -/
def State.partialFails (s : State) (p : PartialMsg) (unit : BitVec 16) (f : Fail) : State :=
  match p.cluster with
  | some g =>
    match s.activeOp (fin32 g) .sprinkler 2 with
    | some r => s.failDesc (fin32 g) .sprinkler r f
    | none => (s.countUe f).raiseC (fin32 g) (uidCluster g 3) f.code f.arg0 f.arg1 0
  | none => (s.countUe f).raiseD unit f.code f.arg0 f.arg1 0

/-- Records a partial in the log of the stack of its row's first byte (R201, R202, R205); the back end is requester 3 of the stack
(R224, R234). -/
def State.recordPartial (s : State) (p : PartialMsg) (slot addr : Nat) : State :=
  let k := stackOf addr
  let die := dieOfStack k
  let log := s.hbm[k].log
  let full := decide (s.logArea k < logBytes s.hbm[k] + partialBytes p.elems.length)
  match s.granuleFail (.req 3) addr 1 (addr / 4096) with
  | some f => (s.partialFails p (uidStack k.val) f).logFault die
  | none =>
  if !p.free ∧ logHas p.table p.row p.source p.mb log then
    (s.raiseD (uidStack k.val) 0x0405 p.row (p.mb + p.source * 2 ^ 16 + p.table * 2 ^ 32) 0).logFault die
  else if p.free ∧ (logAcc p.table p.row log).isSome then
    (s.applied p slot addr).modStack k (fun x => { x with log := modLog p.table p.row (fun r =>
      { r with acc := r.acc.map (fun a => List.zipWith (fadd arithRne) a p.elems) }) x.log })
  else if full then (s.raiseD (uidStack k.val) 0x0406 p.row p.table k.val).logFault die
  else if p.free then
    (s.applied p slot addr).modStack k (fun x => { x with log := modLog p.table p.row (fun r =>
      { r with acc := some (p.elems.map (fun v => fadd arithRne 0 v)) }) x.log })
  else
    (s.applied p slot addr).modStack k (fun x => { x with log := modLog p.table p.row (fun r =>
      { r with parts := r.parts ++ [(p.source, p.mb, p.elems)] }) x.log })

/-- A shard that this device is moving away (R212 step 3). -/
def State.movingShard (s : State) (t : Nat) (td : TableDesc) (row : Nat) : Option MoveJob :=
  s.moves.find? (fun m => decide (m.table = t ∧ m.shard = row / 2 ^ td.shardLog2))

/-- A partial of one of this device's clusters that is forwarded counts for it (R212 step 3); another device's carries no way to
tell it. -/
def State.countPassed (s : State) (cluster : Option Nat) : State :=
  match cluster with
  | some g => s.modRake (fin32 g) (fun x => { x with forwarded := wrap64 x.forwarded 1 })
  | none => s

def failStale (row t : Nat) : Fail := { code := 0x0407, arg0 := row, arg1 := t }

/-- A shard's next row to come has this address. -/
def State.awaits (s : State) (a : Nat) (x : Incoming) : Bool :=
  (s.table x.table).any (fun td => decide (recordAddr td x.slot (x.shard * 2 ^ td.shardLog2 + x.arrived) = a))

/-- The shards that this device will take at its next flip, with the rows that have come already: their old owner may have entered the
Season first (R212). -/
def State.armedShards (s : State) : List Incoming :=
  s.job.tables.flatMap (fun p =>
    if p.2.valid ∧ p.2.ownerSeason ≠ 0 then
      ((s.movedShards p.2).filter (fun x => decide (entryDevice x.2.2 = s.devNumber))).map (fun x =>
        (s.early.find? (fun e => decide (e.table = p.1 ∧ e.shard = x.1))).getD
          { table := p.1, shard := x.1, slot := entrySlot x.2.2, arrived := 0 })
    else [])

/-- A row of a shard that this device takes at a flip still to come (R212). -/
def State.shardAwaited (s : State) (t : Nat) (td : TableDesc) (row : Nat) : Bool :=
  s.armedShards.any (fun x => decide (x.table = t ∧ x.shard = row / 2 ^ td.shardLog2))

/-- The stack to which a partial goes, where its row lies here. -/
def State.partialStack (s : State) (p : PartialMsg) : Option (Fin 12) :=
  match s.table p.table with
  | none => none
  | some td => match s.locate .any p.table td 0 p.row with
    | .ok (_, _, addr) => some (stackOf addr)
    | .error _ => none

/-- Partials of one sender to one back end keep their order (R122). -/
def State.partialBehind (s : State) (p q : PartialMsg) : Bool :=
  decide (p.cluster = q.cluster ∧ p.source = q.source) && decide (s.partialStack p = s.partialStack q)

/-- A partial that another device's clusters wait for, or this one's, on its way to a shard's new owner: a FLUSH of this device waits
until that has recorded it (R197, R212). -/
def State.passPartial (s : State) (p : PartialMsg) (dev : Nat) : State :=
  match s.sendPacket dev .scatterAdd p.step (p.row + p.table * 2 ^ 40 + p.mb * 2 ^ 48) 0 (p.elems.flatMap (fun e => leBytes 4 e.toNat)) with
  | .error f => (s.noRoute f).partialFails p (uidDie 0 5) f
  | .ok s => match p.cluster with
    | some g => s.modSprinkler (fin32 g) (fun x => { x with sending := x.sending ++ [(dev, s.lastPsn dev 3)] })
    | none => s

/-- PARTIAL_APPEND (R201, R202): the i-th partial on its way reaches the back end of its row's owner. One for a shard that
moves is forwarded; one for a shard still to come waits; one for a row owned elsewhere finds a stale owner (R212). -/
def execPartialAppend (i : Nat) (s : State) : Out :=
  match s.partials[i]? with
  | none => .next s
  | some p =>
    if (s.partials.take i).any (s.partialBehind p) then .next s
    else match s.table p.table with
    | none => .next { s with partials := listDel s.partials i }
    | some td =>
      let s' := { s with partials := listDel s.partials i }
      match s.locate .any p.table td 0 p.row with
      | .error f => .next (s'.partialFails p (uidDie 0 5) f)
      | .ok (dev, slot, addr) =>
        if dev = s.devNumber then
          if s.rowComing p.table td p.row then .next s else .next (s'.recordPartial p slot addr)
        else match s.movingShard p.table td p.row with
          | some m => .next ((s'.countPassed p.cluster).passPartial p m.newDevice)
          | none => if s.shardAwaited p.table td p.row then .next s else .next (s'.partialFails p (uidStack (stackOf addr).val) (failStale p.row p.table))

/-- The second stage of R200: ascending source device, then micro-batch, from +0.0; the FREE accumulator as it stands. -/
def gsumOf (dim : Nat) (r : LogRow) : List U32 :=
  let zero : List U32 := List.replicate dim 0
  let add := List.zipWith (fadd arithRne)
  let ps := r.parts.insertionSort (fun a b => a.1 < b.1 ∨ (a.1 = b.1 ∧ a.2.1 ≤ b.2.1))
  let v := ps.foldl (fun acc p => add acc p.2.2) zero
  match r.acc with
  | some a => if r.parts.isEmpty then a else add v a
  | none => v

/-- Writes one entry of a load table, whole (R209); what cannot be written is an event of its stack. -/
def State.writeLoad (s : State) (addr gathers scatters : Nat) : State :=
  match s.writeChecked (.req 3) addr (leBytes 4 gathers ++ leBytes 4 scatters) with
  | .ok s => s
  | .error f => (s.countUe f).raiseD (uidStack (stackOf addr).val) f.code f.arg0 f.arg1 0

/-- The load table of a table whose window ends: the slots' counts written whole, and counted anew (R209). -/
def State.writeLoads (s : State) (t : Nat) (td : TableDesc) : State :=
  let slots := ((List.finRange 12).flatMap (fun k => (s.hbm[k].loads.filter (fun p => decide (p.1 / 2 ^ 24 = t))).map
    (fun p => p.1 % 2 ^ 24))).eraseDups
  let sum (f : U32 × U32 → U32) (slot : Nat) : Nat :=
    satAt 0xFFFFFFFF ((List.finRange 12).map (fun k => (f (tabGet s.hbm[k].loads (0, 0) (loadKey t slot))).toNat)).sum
  let held := (List.range (shardCount td)).filterMap (fun k =>
    match s.ownerEntry td td.ownerHalf k with
    | .ok e => if entryDevice e = s.devNumber then some (entrySlot e) else none
    | .error _ => none)
  let s' := ((slots ++ held).eraseDups).foldl (fun s' slot =>
    s'.writeLoad (td.loadAddr + 8 * slot) (sum (·.1) slot) (sum (·.2) slot)) (s.ownerFaults td td.ownerHalf)
  { s' with hbm := s'.hbm.map (fun k => { k with loads := k.loads.filter (fun p => decide (p.1 / 2 ^ 24 ≠ t)) }) }

end Sys2Proof.Machine
end

