-- ==== Sys2Proof/Machine/Update.lean ====
section
/-! DEFINITION. Update.lean: the update units: gradients, the update pass, commit and the phases of a step (R399 to R431,
R454 to R458). -/

namespace Sys2Proof

def GroupDesc.isEmbed (g : GroupDesc) : Bool := decide (g.kind = .embedding)
def GroupDesc.isFactored (g : GroupDesc) : Bool := decide (g.kind = .factored)

/-- Elements of an owned unit: a row of a FACTORED group, a record of an UNFACTORED one. -/
def GroupDesc.unitElems (g : GroupDesc) : Nat := if g.isFactored then g.cols else 32

/-- Elements of a group (R427). -/
def GroupDesc.elements (g : GroupDesc) : Nat := if g.isFactored then g.rows * g.cols else g.rows

/-- Pairs of an owned unit. -/
def GroupDesc.unitPairs (g : GroupDesc) : Nat := if g.isFactored then g.cols / 32 else 1

end Sys2Proof

namespace Sys2Proof.Machine

/-! ### Groups and their places (R399, R400, R403, R405) -/

def State.group (s : State) (i : Nat) : Option GroupDesc := (tabFind s.job.groups i).filter (·.valid)

/-- The address of pair p (R403). -/
def pairAddr (g : GroupDesc) (p : Nat) : Nat := g.recBase + p / 10 * 4096 + p % 10 * 384

/-- The half in force, or the shadow half, of pair p. -/
def halfAddr (g : GroupDesc) (p : Nat) (half : Bool) : Nat := pairAddr g p + 192 * b2n half

/-- The update unit that owns the i-th owned row or record (R399). -/
def ownerDie (g : GroupDesc) (i : Nat) : Fin 4 := dieOfStack (stackOf (pairAddr g (i * g.unitPairs)))

/-- The statistics area (R405): VROW halves, VCOL halves, COLPART by die. -/
def statBase (g : GroupDesc) : Nat := roundUp (g.gradAddr + 4 * g.ownCount * g.cols) 4096
def vrowSize (g : GroupDesc) : Nat := roundUp (4 * g.ownCount) 64
def vcolSize (g : GroupDesc) : Nat := roundUp (4 * (g.cols + 1)) 64
def vrowAddr (g : GroupDesc) (half : Bool) (i : Nat) : Nat := statBase g + b2n half * vrowSize g + 4 * i
def vcolAddr (g : GroupDesc) (half : Bool) (j : Nat) : Nat :=
  statBase g + 2 * vrowSize g + b2n half * vcolSize g + 4 * j
def colpartAddr (g : GroupDesc) (d j : Nat) : Nat :=
  statBase g + 2 * vrowSize g + (2 + d) * vcolSize g + 4 * j

/-- The address of an owned element in the landing area (R405). -/
def landAddr (g : GroupDesc) (e : Nat) : Nat := g.gradAddr + 4 * (e - g.ownFirst * g.unitElems)

def f32s (bs : List Byte) (n : Nat) : List U32 :=
  (List.range n).map (fun i => BitVec.ofNat 32 (leNat ((bs.drop (4 * i)).take 4)))

def f32Bytes (xs : List U32) : List Byte := xs.flatMap (fun x => leBytes 4 x.toNat)

/-- The update unit's reads and writes: requester 5 (R426). -/
def State.updRead (s : State) (d : Fin 4) (a n : Nat) : Except Fail (List Byte) := s.readChecked (.onDie d.val (.req 5)) a n
def State.updWrite (s : State) (d : Fin 4) (a : Nat) (bs : List Byte) : Except Fail State := s.writeChecked (.onDie d.val (.req 5)) a bs

/-- Puts bytes into a unit's speculative state. -/
def shadowPut (a : Nat) (bs : List Byte) (t : Tab Byte) : Tab Byte := bs.zipIdx.foldl (fun t x => tabSet t (a + x.2) x.1) t

/-- A write of speculative state: checked like any other, and seen by the unit alone until the step is taken (R125, R420). -/
def State.shadowWrite (s : State) (d : Fin 4) (a : Nat) (bs : List Byte) : Except Fail State :=
  match s.accessFail (.onDie d.val (.req 5)) a bs.length with
  | some f => .error f
  | none => .ok (s.modUpd d (fun u => { u with shadow := shadowPut a bs u.shadow }))

/-- A unit's read of its own speculative state, over what memory holds. -/
def State.shadowRead (s : State) (d : Fin 4) (a n : Nat) : Except Fail (List Byte) :=
  match s.updRead d a n with
  | .error f => .error f
  | .ok bs => .ok (bs.mapIdx (fun i b => tabGet s.dies[d].upd.shadow b (a + i)))

/-- A unit's COLPART of the current step: +0.0 where nothing has been added (R405). -/
def State.colpartRead (s : State) (d : Fin 4) (a n : Nat) : Except Fail (List Byte) :=
  match s.accessFail (.onDie d.val (.req 5)) a n with
  | some f => .error f
  | none => .ok ((List.range n).map (fun i => tabGet s.dies[d].upd.shadow 0 (a + i)))

def State.updReadF32 (s : State) (d : Fin 4) (a n : Nat) : Except Fail (List U32) :=
  match s.updRead d a (4 * n) with
  | .error f => .error f
  | .ok bs => .ok (f32s bs n)

/-- UPDATE_FAULT of a unit (R416, R427). -/
def State.updFault (s : State) (d : Fin 4) (f : Fail) : State := (s.countUe f).modUpd d (fun u => { u with updateFault := true })

/-- A near-memory operation of a write-back that fails; an uncorrectable unit sets the log-fault bit as well (R237, R427). -/
def State.backFault (s : State) (d : Fin 4) (f : Fail) : State :=
  if f.code = 0x0203 then (s.updFault d f).logFault d else s.updFault d f

/-- OR of a unit's vote (R416). -/
def UpdateUnit.voteOr (u : UpdateUnit) : Nat := b2n u.gradNonfinite + 2 * b2n u.logFault + 4 * b2n u.updateFault

/-- The step number t (R422): a header's, or the unit's own in a job with no dense group. -/
def UpdateUnit.t (u : UpdateUnit) : Nat := if u.header then u.stepT.toNat else u.stepNumber.toNat

/-- A dense reduction header will come: the device owns a part of a dense group. One that owns none takes its own STEP_NUMBER, as in
a job with no dense group (DESIGN CHOICE, log entry 42: R422 gives such a unit no header). -/
def State.hasDense (s : State) : Bool := s.job.groups.any (fun p => p.2.valid && !p.2.isEmbed && decide (0 < p.2.ownCount))

/-- A dense reduction header reaches the device's update units (R422, R423). -/
def State.stepHeader (s : State) (step : Nat) : State :=
  (List.finRange 4).foldl (fun s d =>
    if s.dieFenced d then s
    else
      let s := s.modUpd d (fun u =>
        { u with header := true, stepT := BitVec.ofNat 32 (if u.header then max u.stepT.toNat step else step) })
      let u := s.dies[d].upd
      if u.stepT ≠ u.stepNumber ∧ !u.skewRaised then
        (s.modUpd d (fun u => { u with skewRaised := true })).raiseD (uidDie d.val 4) 0x0602 u.stepT.toNat
          (0x800000000000 + s.devNumber) u.stepNumber.toNat
      else s) s

/-! ### Chunks of a reduction (R454, R455, R457, R458) -/

/-- The same chunk: group, first element, root, kind and length. -/
def ChunkPart.same (a b : ChunkPart) : Bool :=
  decide (a.group = b.group ∧ a.first = b.first ∧ a.root = b.root ∧ a.kind = b.kind ∧ a.elems.length = b.elems.length)

/-- This device takes part in the job's sums (R455). -/
def State.takesPart (s : State) : Bool := s.namedDevices.contains s.devNumber

/-- The value of a chunk from a sender. -/
def State.chunkOf (s : State) (p : ChunkPart) (sender : Nat) : Option ChunkPart :=
  s.chunks.find? (fun x => x.same p && decide (x.sender = sender))

/-- Every value that a chunk needs is here (R458). -/
def State.chunkReady (s : State) (p : ChunkPart) : Bool :=
  (!s.takesPart || (s.chunkOf p s.devNumber).isSome) &&
    (s.systemChildren p.root).flatten.all (fun m => !s.childForwards p.root m || (s.chunkOf p m).isSome)

def addLists (a b : List U32) : List U32 := List.zipWith (fadd arithRne) a b

/-- One stage: from +0.0, the value so far, then the children's in order (R454, R455). -/
def State.chunkStage (s : State) (p : ChunkPart) (v : List U32) (children : List Nat) : List U32 :=
  (v :: children.filterMap (fun m => (s.chunkOf p m).map (·.elems))).foldl addLists (List.replicate p.elems.length 0)

/-- The combined value and STEP of a ready chunk. -/
def State.chunkSum (s : State) (p : ChunkPart) : List U32 × Nat :=
  let own : List U32 := ((s.chunkOf p s.devNumber).map (·.elems)).getD (List.replicate p.elems.length 0)
  let v := (s.systemChildren p.root).foldl (s.chunkStage p) own
  (v, (s.chunks.filter (fun x => x.same p)).foldl (fun t x => max t x.step) 0)

/-- The KEY fields of a REDUCE packet (R450). -/
def reduceKey0 (group first : Nat) : Nat := group % 2 ^ 8 + first % 2 ^ 40 * 2 ^ 8
def reduceKey1 (root kind : Nat) : Nat := root % 2 ^ 15 + kind * 2 ^ 16

/-- An owner's reduced gradient goes to its landing area (R405, R414). -/
def State.deliverGrad (s : State) (gi first step : Nat) (v : List U32) : State :=
  let s := s.stepHeader step
  match s.group gi with
  | none => s
  | some g =>
    let s' := match s.updWrite (dieOfStack (stackOf (landAddr g first))) (landAddr g first) (f32Bytes v) with
      | .ok s' => s'
      | .error f => (List.finRange 4).foldl (fun s d => s.updFault d f) s
    (List.finRange 4).foldl (fun s d => s.modUpd d (fun u =>
      { u with arrived := u.arrived ++ [(gi, first, v.length)] })) s'

/-- Dies whose update units work. -/
def State.liveUpds (s : State) : List (Fin 4) := (List.finRange 4).filter s.updLive

/-- The lowest-numbered die whose update unit works. -/
def State.leadDie (s : State) : Fin 4 := s.liveUpds.head?.getD 0

/-- Elements j0 on of a group's column sum have come: the shadow VCOL (R418 TAKE step 3). -/
def State.deliverCol (s : State) (gi j0 : Nat) (v : List U32) : State :=
  match s.group gi with
  | none => s
  | some g =>
    let d := s.leadDie
    let ep := s.dies[d].upd.epoch
    let rows := natTo32 g.rows
    let b2c := fsub arithRne one32 g.beta2
    let old : List U32 := match s.updReadF32 d (vcolAddr g ep j0) v.length with
      | .ok xs => xs
      | .error _ => List.replicate v.length nan32
    let new_ := List.zipWith (fun (x : U32) (p : U32 × Nat) =>
      let q := fdiv arithRne p.1 rows
      if j0 + p.2 = g.cols then q else ffma arithRne g.beta2 x (fmul arithRne b2c q)) old v.zipIdx
    let s := match s.shadowWrite d (vcolAddr g (!ep) j0) (f32Bytes new_) with
      | .ok s' => s'
      | .error f => s.updFault d f
    (List.finRange 4).foldl (fun s d => s.modUpd d (fun u => { u with commit := u.commit.map (fun c =>
      { c with cols := (c.cols.map (fun x => if x.1 = gi then (x.1, x.2 - v.length) else x)).filter (fun x => decide (x.2 ≠ 0)) }) })) s

/-- The children of this device take the sum (KIND 2). -/
def State.sendDown (s : State) (p : ChunkPart) (v : List U32) (step : Nat) : State :=
  (s.systemChildren p.root).flatten.foldl (fun s m =>
    s.trySend m .reduce step (reduceKey0 p.group p.first) (reduceKey1 p.root 2) (f32Bytes v)) s

/-! ### GRAD_SEND (R414, R425, R427, R457) -/

structure GradCtl where
  src : Nat
  bf16 : Bool
  fmt : Nat
  group : Nat
  first : Nat
  count : Nat
  deriving DecidableEq, Repr

def gradCtl (d : Desc) : GradCtl :=
  { src := d.bits 2 47 0, bf16 := decide (d.bits 2 49 48 = 1), fmt := d.bits 2 49 48, group := d.bits 2 57 50,
    first := d.bits 3 39 0, count := d.bits 4 39 0 }

def gradSpans : List Span := [(2, 63, 58), (3, 63, 40), (4, 63, 40), (5, 63, 0), (6, 63, 0), (7, 63, 0)]

def State.gradBad (s : State) (d : Desc) (c : GradCtl) : Option Nat :=
  let g := s.group c.group
  minBad (spansBad (descWords d) gradSpans ++
    [(decide (1 < c.fmt), 22), (g.isNone || g.any (·.isEmbed), 22), (decide (c.count = 0), 32),
     (g.any (fun g => decide (g.elements < c.first + c.count)), 24)])

/-- The owner map's lines of a group: device, first element, end (R400). -/
def State.ownersOf (s : State) (gi : Nat) (g : GroupDesc) : List (Nat × Nat × Nat) :=
  (((s.job.inForce.map (·.ownerMap)).getD []).filter (fun o => decide (o.group = gi))).map (fun o =>
    (o.device, o.first * g.unitElems, min g.elements ((o.first + o.count) * g.unitElems)))

/-- Cuts a range at the multiples of 1,024 and at owner boundaries: root, first, count. -/
def State.cutChunks (s : State) (gi : Nat) (g : GroupDesc) (first count : Nat) : List (Nat × Nat × Nat) :=
  (s.ownersOf gi g).flatMap (fun o =>
    let lo := max first o.2.1
    let hi := min (first + count) o.2.2
    if lo < hi then
      (List.range ((hi - 1) / 1024 + 1 - lo / 1024)).map (fun i =>
        let b := (lo / 1024 + i) * 1024
        (o.1, max lo b, min hi (b + 1024) - max lo b))
    else [])

/-- Whether a chunk or packet belongs to a range of a group's gradient. -/
def inRange (c : GradCtl) (group first : Nat) : Bool :=
  decide (group = c.group ∧ c.first ≤ first ∧ first < c.first + c.count)

/-- Contributions of a GRAD_SEND not yet recorded: its own values still here, or on their way to the parent. -/
def State.gradOut (s : State) (c : GradCtl) : Bool :=
  s.chunks.any (fun p => decide (p.kind = 0 ∧ p.sender = s.devNumber) && inRange c p.group p.first) ||
  s.txFlows.any (fun f => f.unacked.any (fun p => decide (p.ptype = .reduce ∧ p.key1.toNat / 2 ^ 16 % 4 = 0) &&
    inRange c (p.key0.toNat % 2 ^ 8) (p.key0.toNat / 2 ^ 8 % 2 ^ 40)))

/-- GRAD_SENDs whose contributions are all recorded may complete (R425). -/
def State.settleGrads (s : State) : State :=
  (List.finRange 32).foldl (fun s g =>
    match (s.queue g .update).running.find? (fun r => decide (r.phase = .working ∧ r.q.desc.opcode = 1)) with
    | some r => if s.gradOut (gradCtl r.q.desc) then s else s.finishDesc g .update r none
    | none => s) s

/-- GRAD_SEND (R414, R425). -/
def execGradSend (cluster : Fin 32) (s : State) : Out :=
  match (s.activeOp cluster .update 1).filter (fun r => decide (r.phase = .started) && s.updLive (dieOfCluster cluster)) with
  | none => .next s
  | some r =>
    let c := gradCtl r.q.desc
    match s.gradBad r.q.desc c, s.group c.group with
    | some o, _ => .next (s.failDesc cluster .update r (failFormat r.q.addr o))
    | none, none => .next s
    | none, some g =>
      let size := if c.bf16 then 2 else 4
      match s.updRead (dieOfCluster cluster) c.src (size * c.count) with
      | .error f => .next (s.failDesc cluster .update r f)
      | .ok bs =>
        let s := s.noteRead c.src (size * c.count)
        let step := s.dies[dieOfCluster cluster].upd.stepNumber.toNat
        let val (e : Nat) : U32 :=
          let w := leNat ((bs.drop (size * (e - c.first))).take size)
          if c.bf16 then widen bf16 w else BitVec.ofNat 32 w
        let parts : List ChunkPart := (s.cutChunks c.group g c.first c.count).map (fun x =>
          { group := c.group, first := x.2.1, root := x.1, kind := 0, sender := s.devNumber, step := step,
            elems := (List.range x.2.2).map (fun i => val (x.2.1 + i)) })
        let s := s.setRunning cluster .update r { r with phase := .working }
        .next ({ s with chunks := s.chunks ++ parts }.settleGrads)

/-! ### UPDATE (R421, R425, R427) -/

structure UpdCtl where
  first : Nat
  count : Nat
  mb : Nat
  lr : U32
  deriving DecidableEq, Repr

def updCtl (d : Desc) : UpdCtl :=
  { first := d.bits 2 7 0, count := d.bits 2 16 8, mb := d.bits 2 63 32, lr := BitVec.ofNat 32 (d.bits 3 31 0) }

def updSpans : List Span := [(2, 31, 17), (3, 63, 32), (4, 63, 0), (5, 63, 0), (6, 63, 0), (7, 63, 0)]

def updBad (d : Desc) (c : UpdCtl) : Option Nat :=
  minBad (spansBad (descWords d) updSpans ++
    [(decide (c.count = 0 ∨ 256 < c.first + c.count), 17), (decide (c.mb = 0), 20), (!isFinite32 c.lr, 24)])

/-- What a unit has to do for a group. -/
def State.groupWork (s : State) (d : Fin 4) (gi : Nat) (g : GroupDesc) : List UpdWork :=
  let mine := (List.range g.ownCount).filter (fun i => decide (ownerDie g i = d))
  match g.kind with
  | .factored => mine.map (.row gi)
  | .unfactored => mine.map (.record gi)
  | .embedding =>
    (List.finRange 3).flatMap (fun x =>
      let k := fin12 (3 * d.val + x.val)
      (s.hbm[k].log.filter (fun r => decide (r.table = g.rows % 16))).map (fun r => .embed gi r.table r.row k.val))

/-- The groups that an UPDATE names and that are in use. -/
def State.groupsIn (s : State) (c : UpdCtl) : List (Nat × GroupDesc) :=
  (List.range c.count).filterMap (fun i => (s.group (c.first + i)).map (fun g => (c.first + i, g)))

/-- Clears a die's COLPART of a group. -/
def State.clearColpart (s : State) (d : Fin 4) (g : GroupDesc) : State :=
  if g.isFactored then
    let a := colpartAddr g d.val 0
    s.modUpd d (fun u => { u with shadow := u.shadow.filter (fun c => decide (c.1 < a ∨ a + 4 * (g.cols + 1) ≤ c.1)) })
  else s

/-- What R421 says of an UPDATE that arrives: it waits, it faults, or it may start. -/
inductive UpdGate where
  | waits | late | go
  deriving DecidableEq, Repr

def updGate (u : UpdateUnit) (season : Nat) : UpdGate :=
  match u.commit with
  | some c => if season ≤ c.season then .late else .waits
  | none =>
    if u.season.any (fun x => decide (x < season)) then .waits
    else if u.job.isSome then .waits else .go

/-- A unit's UPDATE with no work left completes; the vote's sum is rounded once (R415). -/
def State.updDone (s : State) (d : Fin 4) : State :=
  match s.dies[d].upd.job with
  | none => s
  | some j =>
    if s.dies[d].upd.work ≠ [] then s
    else
      (s.modUpd d (fun u => { u with job := none, state := .updated, voteSum := voteRound u.sumSq })).finishDesc
        (fin32 j.cluster) .update j.run none

/-- Starts an UPDATE whose fields passed. -/
def State.updStart (s : State) (g : Fin 32) (r : Running) (c : UpdCtl) : State :=
  let d := dieOfCluster g
  let r' : Running := { r with phase := .working }
  let s := s.setRunning g .update r r'
  let s := s.modUpd d (fun u =>
    let u : UpdateUnit := if u.season.isNone then { u with sumSq := 0, gradNonfinite := false, updateFault := false } else u
    { u with season := some (u.season.getD r.season), state := .updating,
             job := some { cluster := g.val, run := r', skewNamed := false, nonfiniteNamed := false } })
  let s := (s.groupsIn c).foldl (fun s x =>
    let s := if (tabFind s.dies[d].upd.groups x.1).isNone then s.clearColpart d x.2 else s
    let w := s.groupWork d x.1 x.2
    s.modUpd d (fun u => { u with groups := tabSet u.groups x.1 (c.mb, c.lr), work := u.work ++ w })) s
  s.updDone d

/-- UPDATE (R421, R425). -/
def execUpdate (cluster : Fin 32) (s : State) : Out :=
  match (s.activeOp cluster .update 2).filter (fun r => decide (r.phase = .started) && s.updLive (dieOfCluster cluster)) with
  | none => .next s
  | some r =>
    let c := updCtl r.q.desc
    let u := s.dies[dieOfCluster cluster].upd
    match updBad r.q.desc c with
    | some o => .next (s.failDesc cluster .update r (failFormat r.q.addr o))
    | none =>
      match updGate u r.season with
      | .waits => .next s
      | .late => .next (s.failDesc cluster .update r { code := 0x0603, arg0 := u.t, arg1 := 0 })
      | .go => .next (s.updStart cluster r c)

/-! ### PARTIAL_SUM and ROW_UPDATE (R200, R404, R406 to R411) -/

/-- The summed partial of a row that a unit holds. -/
def UpdateUnit.gsum (u : UpdateUnit) (t row : Nat) : Option (List U32) :=
  (u.gsums.find? (fun x => decide (x.1 = t ∧ x.2.1 = row))).map (·.2.2)

/-- The next embedding row of a unit's work whose sum has not been formed. -/
def UpdateUnit.sumNext (u : UpdateUnit) : Option (Nat × Nat × Nat) :=
  firstSome (fun w => match w with
    | .embed _ t row k => if (u.gsum t row).isNone then some (t, row, k) else none
    | _ => none) u.work

/-- A row whose log cannot be read is skipped (R427). -/
def State.skipSum (s : State) (d : Fin 4) (t row : Nat) (f : Fail) : State :=
  (s.backFault d f).modUpd d (fun u => { u with work := u.work.filter (fun w => match w with
    | .embed _ t' row' _ => decide (¬ (t' = t ∧ row' = row))
    | _ => true) })

/-- PARTIAL_SUM (R222, R200): the back end of the row's stack, its requester 5, forms its sum for the update unit. -/
def execPartialSum (die : Fin 4) (s : State) : Out :=
  match s.dies[die].upd.sumNext.filter (fun _ => s.updLive die) with
  | none => .next s
  | some (t, row, k) =>
    match s.table t with
    | none => .next s
    | some td =>
      match s.stackFail (.onDie die.val (.req 5)) (fin12 k), s.hbm[fin12 k].log.find? (logRowIs t row) with
      | some f, _ => .next ((s.skipSum die t row f).updDone die)
      | none, none => .next s
      | none, some r => .next (s.modUpd die (fun u => { u with gsums := u.gsums ++ [(t, row, gsumOf td.dim r)] }))

/-- Elements of a group that have arrived in a range (R408). -/
def arrivedIn (u : UpdateUnit) (gi first n : Nat) : Nat :=
  ((u.arrived.filter (fun x => decide (x.1 = gi))).map (fun x => min (first + n) (x.2.1 + x.2.2) - max first x.2.1)).sum

/-- Whether an item of work may be done; `before` are the items ahead of it. -/
def State.workReady (s : State) (u : UpdateUnit) (before : List UpdWork) (w : UpdWork) : Bool :=
  let dense (gi i : Nat) : Bool :=
    match s.group gi with
    | none => true
    | some g =>
      let e0 := (g.ownFirst + i) * g.unitElems
      let n := min g.unitElems (g.elements - e0)
      decide (u.state = .rerun) || decide (n ≤ arrivedIn u gi e0 n)
  match w with
  | .row gi i => dense gi i && before.all (fun x => match x with
      | .row gj _ => decide (gj ≠ gi)
      | _ => true)
  | .record gi i => dense gi i
  | .embed _ t row _ => (u.gsum t row).isSome && (u.header || !s.hasDense)

/-- The first item that may be done. -/
def State.workNext (s : State) (u : UpdateUnit) : List UpdWork → List UpdWork → Option UpdWork
  | _, [] => none
  | before, w :: t => if s.workReady u before w then some w else s.workNext u (before ++ [w]) t

/-- Takes the vote on a row's normalised gradients (R415). -/
def takeVote (inv : U32) (gs : List U32) (u : UpdateUnit) : UpdateUnit :=
  let xs := gs.map (fun g => fmul arithRne g inv)
  { u with sumSq := u.sumSq + (xs.map squareUnits).sum, gradNonfinite := u.gradNonfinite || xs.any (fun x => !isFinite32 x) }

/-- Descriptor and Season of the command that a unit works for: its UPDATE, or in a rerun its COMMIT. -/
def UpdateUnit.worksFor (u : UpdateUnit) : Option (Nat × Running) :=
  match u.job, u.commit with
  | some j, _ => some (j.cluster, j.run)
  | none, some c => some (c.cluster, c.run)
  | none, none => none

/-- The update-nonfinite event, once per descriptor, and the count of what was kept (R409, R411). While an UPDATE runs the event is
its own, and a COMMIT that waits for it (R421) may still raise one. -/
def State.nonfiniteEvent (s : State) (d : Fin 4) (elem group kept : Nat) : State :=
  let u := s.dies[d].upd
  let named := match u.job, u.commit with
    | some j, _ => j.nonfiniteNamed
    | none, some c => c.named
    | none, none => true
  let s := s.modUpd d (fun u => { u with pend := { u.pend with nonfinite := u.pend.nonfinite + kept } })
  match named, u.worksFor with
  | false, some (_, r) =>
    let s := if u.job.isSome then s.modUpd d (fun u => { u with job := u.job.map (fun j => { j with nonfiniteNamed := true }) })
      else s.modUpd d (fun u => { u with commit := u.commit.map (fun c => { c with named := true }) })
    s.raiseD (uidDie d.val 4) 0x0601 elem group (dctx 0x48 r.q)
  | _, _ => s

/-- The step-skew event of an UPDATE's first record (R423). -/
def State.skewRecord (s : State) (d : Fin 4) (addr step : Nat) : State :=
  let u := s.dies[d].upd
  let s := s.modUpd d (fun u => { u with pend := { u.pend with stepSkewRecords := u.pend.stepSkewRecords + 1 } })
  match u.job with
  | some j =>
    if j.skewNamed then s
    else (s.modUpd d (fun u => { u with job := u.job.map (fun j => { j with skewNamed := true }) })).raiseD
      (uidDie d.val 4) 0x0602 u.t addr step
  | none => s

/-- A record half as the rule reads it (R401). -/
structure Record192 where
  addr : Nat
  bytes : List Byte
  deriving DecidableEq, Repr

def Record192.valid (r : Record192) : Bool := bitOf (r.bytes.getD 161 0).toNat 0
def Record192.ws (r : Record192) : List U32 := f32s r.bytes 32
def Record192.ms (r : Record192) : List U32 :=
  momentDecode (r.bytes.getD 160 0).toNat (((r.bytes.drop 128).take 32).map (·.toNat))
def Record192.step (r : Record192) : Nat := leNat ((r.bytes.drop 162).take 4)
def Record192.vstat (r : Record192) : U32 := BitVec.ofNat 32 (leNat ((r.bytes.drop 166).take 4))

/-- A new record half (R401, R402). Its reserved bits are not checked when the old half is read for update: FLAGS goes over as it was
read, and the other reserved bytes are written as zero (DESIGN CHOICE, log entry 50). -/
def newRecord (flags : Byte) (es : List DenseElem) (t : Nat) (vstat : U32) : List Byte :=
  let m := momentEncode (es.map (·.m))
  f32Bytes (es.map (·.w)) ++ m.2.map (fun c => BitVec.ofNat 8 c) ++ [BitVec.ofNat 8 m.1, flags] ++ leBytes 4 t ++
    leBytes 4 vstat.toNat ++ List.replicate 22 0

/-- Reads the halves in force of an owned unit. Reserved fields of a record are not looked at (log entry 50). -/
def State.readRecords (s : State) (d : Fin 4) (g : GroupDesc) (ep : Bool) : List Nat → Except Fail (List Record192)
  | [] => .ok []
  | p :: t =>
    match s.updRead d (halfAddr g p ep) 192 with
    | .error f => .error f
    | .ok bs => match s.readRecords d g ep t with
      | .error f => .error f
      | .ok rs => .ok ({ addr := pairAddr g p, bytes := bs } :: rs)

/-- VC[j] / MV where the column statistics are in force and MV > +0.0, otherwise 1.0 (R406). -/
def State.colFactor (s : State) (d : Fin 4) (gi : Nat) (g : GroupDesc) : Except Fail (Nat → U32) :=
  let u := s.dies[d].upd
  if g.isFactored ∧ u.colReady.contains gi then
    match s.updReadF32 d (vcolAddr g u.epoch 0) (g.cols + 1) with
    | .error f => .error f
    | .ok xs =>
      let mv := xs.getD g.cols 0
      .ok (fun j => if fgt mv 0 then fdiv arithRne (xs.getD j 0) mv else one32)
  else .ok (fun _ => one32)

/-- What a dense row or record reads. -/
structure DenseIn where
  recs : List Record192
  grads : List U32
  vrow : U32

/-- Reads an owned unit of a dense group: records, gradients and statistic. -/
def State.denseRead (s : State) (d : Fin 4) (g : GroupDesc) (i : Nat) : Except Fail DenseIn :=
  let ep := s.dies[d].upd.epoch
  let n := g.unitElems
  let e0 := (g.ownFirst + i) * n
  match s.readRecords d g ep ((List.range g.unitPairs).map (fun r => i * g.unitPairs + r)) with
  | .error f => .error f
  | .ok rs =>
    match s.updReadF32 d (g.gradAddr + 4 * i * n) n with
    | .error f => .error f
    | .ok gs =>
      let gs := gs.mapIdx (fun j x => if e0 + j < g.elements then x else 0)
      if g.isFactored then
        match s.updReadF32 d (vrowAddr g ep i) 1 with
        | .error f => .error f
        | .ok v => .ok { recs := rs, grads := gs, vrow := v.headD 0 }
      else .ok { recs := rs, grads := gs, vrow := (rs.head?.map (·.vstat)).getD 0 }

/-- The new halves of a unit's records: address and bytes; an invalid record is not written (R404), a row kept whole keeps
its records (R409). -/
def newHalves (g : GroupDesc) (ep : Bool) (t : Nat) (x : DenseIn) (o : DenseRow) : List (Nat × List Byte) :=
  (x.recs.zipIdx).filterMap (fun p =>
    if !p.1.valid then none
    else some (p.1.addr + 192 * b2n (!ep),
      if o.whole then p.1.bytes
      else newRecord (p.1.bytes.getD 161 0) ((o.elems.drop (32 * p.2)).take 32) t (if g.isFactored then 0 else o.vr)))

/-- Writes shadow halves one after another. -/
def State.shadowWrites (s : State) (d : Fin 4) : List (Nat × List Byte) → Except Fail State
  | [] => .ok s
  | w :: t =>
    match s.shadowWrite d w.1 w.2 with
    | .error f => .error f
    | .ok s => s.shadowWrites d t

/-- Adds a row to its die's COLPART (R406). -/
def State.addColpart (s : State) (d : Fin 4) (g : GroupDesc) (o : DenseRow) : Except Fail State :=
  match s.colpartRead d (colpartAddr g d.val 0) (4 * (g.cols + 1)) with
  | .error f => .error f
  | .ok bs =>
    let xs := f32s bs (g.cols + 1)
    let new_ := xs.mapIdx (fun j a =>
      if j = g.cols then fadd arithRne a o.vr else
        let x := o.cg.getD j 0
        ffma arithRne x x a)
    s.shadowWrite d (colpartAddr g d.val 0) (f32Bytes new_)

/-- Adds what a list does not hold yet. -/
def addNew (new_ old : List Nat) : List Nat := old ++ new_.filter (fun x => !old.contains x)

/-- The rule on one owned row or record whose reads are done. -/
def State.denseWrite (s : State) (d : Fin 4) (gi : Nat) (g : GroupDesc) (i : Nat) (x : DenseIn) (o : DenseRow) :
    Except Fail State :=
  let u := s.dies[d].upd
  let ws := newHalves g u.epoch u.t x o
  match s.shadowWrites d ws with
  | .error f => .error f
  | .ok s =>
    let s := s.modUpd d (fun u =>
      { u with shadowWritten := wrap64 u.shadowWritten ws.length, shadowNow := addNew (ws.map (·.1)) u.shadowNow,
               pend := { u.pend with committedRecords := u.pend.committedRecords + ws.length } })
    let kept := (o.elems.zipIdx).filter (fun p => p.1.kept && (x.recs[p.2 / 32]?).any (·.valid))
    let s := if o.whole then s.nonfiniteEvent d ((g.ownFirst + i) * g.unitElems) gi 1
      else match kept with
        | p :: _ => s.nonfiniteEvent d ((g.ownFirst + i) * g.unitElems + p.2) gi kept.length
        | [] => s
    if g.isFactored then
      match s.shadowWrite d (vrowAddr g (!u.epoch) i) (leBytes 4 o.vr.toNat) with
      | .error f => .error f
      | .ok s => if o.whole then .ok s else s.addColpart d g o
    else .ok s

/-- MB_COUNT and LR of a group: those of its UPDATE, or of any other UPDATE of the step, which must be the same (R425). -/
def UpdateUnit.scaleOf (u : UpdateUnit) (gi : Nat) : Nat × U32 := tabGet u.groups ((u.groups.head?.map (·.2)).getD (1, 0)) gi

/-- A dense row or record (R404, R406, R407, R409, R415, R423). -/
def State.denseUpdate (s : State) (d : Fin 4) (gi i : Nat) (c : U32) (vote : Bool) : State :=
  match s.group gi with
  | none => s
  | some g =>
    let (mb, lr) := s.dies[d].upd.scaleOf gi
    match s.denseRead d g i, s.colFactor d gi g with
    | .error f, _ => s.updFault d f
    | .ok _, .error f => s.updFault d f
    | .ok x, .ok f =>
      let u := s.dies[d].upd
      let s := (x.recs.foldl (fun s r => s.noteRead (r.addr + 192 * b2n u.epoch) 192) s).noteRead
        (g.gradAddr + 4 * i * g.unitElems) (4 * g.unitElems)
      let inv := invScale u.lossScaleCur mb
      let s := if vote then s.modUpd d (takeVote inv x.grads) else s
      let bad := (x.recs.filter (fun r => !r.valid)).length
      let s := if vote then s.modUpd d (fun u => { u with pend := { u.pend with invalid := u.pend.invalid + bad } }) else s
      if bad = x.recs.length then s
      else
        let s := if vote then (x.recs.filter (·.valid)).foldl (fun s r =>
            if (r.step + 1) % 2 ^ 32 = u.t then s else s.skewRecord d r.addr r.step) s
          else s
        let ws := x.recs.flatMap (fun r => if r.valid then r.ws else List.replicate 32 0)
        let ms := x.recs.flatMap (fun r => if r.valid then r.ms else List.replicate 32 0)
        let o := denseRow (hyperOf g lr u.t) c inv x.vrow f ws ms x.grads
        match s.denseWrite d gi g i x o with
        | .ok s => s
        | .error f => s.updFault d f

/-- Puts a row into the Sprinkler shadow log of its stack (R410), or withdraws its record (R411). -/
def setShadow (r : ShadowRow) (xs : List ShadowRow) : List ShadowRow :=
  let same (y : ShadowRow) : Bool := decide (y.table = r.table ∧ y.row = r.row)
  if xs.any same then modFirst same (fun _ => r) xs else xs ++ [r]

/-- Values clamped by the requantizer count in every front end's CLAMPED (R175, R215). -/
def State.countClamped (s : State) (n : Nat) : State :=
  if n = 0 then s
  else (List.finRange 32).foldl (fun s g => s.modSprinkler g (fun x => { x with clamped := wrap64 x.clamped n })) s

/-- An embedding row (R410, R411). -/
def State.embedUpdate (s : State) (d : Fin 4) (gi t row : Nat) (k : Fin 12) (c : U32) (vote : Bool) : State :=
  match s.group gi, s.table t, s.dies[d].upd.gsum t row with
  | some g, some td, some gs =>
    let u := s.dies[d].upd
    let (mb, lr) := u.scaleOf gi
    let inv := invScale u.lossScaleCur mb
    let s := if vote then s.modUpd d (takeVote inv gs) else s
    match s.locate (.onDie d.val (.req 5)) t td 0 row with
    | .error f => s.backFault d f
    | .ok (_, _, addr) =>
      match s.updRead d addr td.stride with
      | .error f => s.backFault d f
      | .ok rec =>
        let s := s.noteRead addr td.stride
        let step := leNat ((rec.drop 8).take 4)
        let stat : U32 := if bitOf (recFlags rec) 2 then BitVec.ofNat 32 (leNat ((rec.drop 4).take 4)) else 0
        let s := if u.t ≤ step then
            s.raiseD (uidDie d.val 4) 0x0602 u.t row step
          else s
        match embedRow (hyperOf g lr u.t) c inv (max 1 (u.t - step)) stat (decodeRecord td rec) gs with
        | none =>
          (s.modStack k (fun x => { x with shadow := setShadow { table := t, row := row, addr := addr, record := none, gsum := gs } x.shadow })).nonfiniteEvent
            d row gi 1
        | some (wn, v) =>
          let season := (u.season.getD 0) + 1
          let q := requantize td.code4 (if g.rowSr then some (requantDraw s.job.pepper season t row) else none) wn
          let new_ := makeRecord td q.scale q.offset v (BitVec.ofNat 32 u.t) (recVersion rec) (1 + 2 * b2n td.code4 + 4) q.codes
          (s.modUpd d (fun u => { u with pend := { u.pend with clamped := u.pend.clamped + q.clamped } })).modStack k (fun x =>
            { x with shadow := setShadow { table := t, row := row, addr := addr, record := some new_, gsum := gs } x.shadow })
  | _, _, _ => s

/-- Does an item of work. -/
def State.doWork (s : State) (d : Fin 4) (w : UpdWork) : State :=
  let u := s.dies[d].upd
  let vote := decide (u.state ≠ .rerun)
  let c := if vote then one32 else u.c
  match w with
  | .row gi i => s.denseUpdate d gi i c vote
  | .record gi i => s.denseUpdate d gi i c vote
  | .embed gi t row k => s.embedUpdate d gi t row (fin12 k) c vote

/-! ### COMMIT (R418 to R421) -/

/-- Every live unit has done its reruns (R418). -/
def State.allSettled (s : State) : Bool := s.liveUpds.all (fun d => s.dies[d].upd.commit.any (·.settled))

/-- Every FACTORED group in use. -/
def State.factoredGroups (s : State) : List Nat :=
  (s.job.groups.filter (fun p => p.2.valid && p.2.isFactored)).map (·.1)

/-- The device's COLPART (R408), cut into chunks of 1,024 (R457). -/
def State.colChunks (s : State) (gi : Nat) (g : GroupDesc) : Except Fail (List ChunkPart) :=
  let n := g.cols + 1
  let parts : List (Except Fail (List U32)) := (List.finRange 4).map (fun d =>
    match s.colpartRead d (colpartAddr g d.val 0) (4 * n) with
    | .ok bs => .ok (f32s bs n)
    | .error f => .error f)
  let sum := parts.foldl (fun (acc : Except Fail (List U32)) x =>
    match acc, x with
    | .ok a, .ok b => .ok (addLists a b)
    | .error f, _ => .error f
    | _, .error f => .error f) (.ok (List.replicate n 0))
  match sum with
  | .error f => .error f
  | .ok v =>
    .ok ((blocksOf n 1024).map (fun b =>
      { group := gi, first := b.1, root := s.treeRoot, kind := 1, sender := s.devNumber,
        step := s.dies[s.leadDie].upd.t, elems := (v.drop b.1).take b.2 }))
where
  blocksOf (total size : Nat) : List (Nat × Nat) :=
    (List.range (cdiv total size)).map (fun i => (i * size, min size (total - i * size)))

/-- The column sums of the step are still to be sent: every live unit is settled, and one of them takes the step (TAKE step 3). -/
def State.colsDue (s : State) : Bool :=
  s.allSettled && s.liveUpds.any (fun d =>
    decide (s.dies[d].upd.decision ≠ .skip) && s.dies[d].upd.commit.any (fun c => !c.colsSent))

/-- Sends the column sums of every FACTORED group once every live unit is settled, be it that the last one that was not has been
fenced; each unit's COMMIT then waits for all of them (TAKE step 3). -/
def State.sendCols (s : State) : State :=
  if s.colsDue then
    let d := s.leadDie
    let s := (List.finRange 4).foldl (fun s d =>
      s.modUpd d (fun u => { u with commit := u.commit.map (fun c => { c with colsSent := true }) })) s
    s.factoredGroups.foldl (fun s gi =>
      match s.group gi with
      | none => s
      | some g =>
        match s.colChunks gi g with
        | .error f => s.updFault d f
        | .ok ps =>
          let s := (List.finRange 4).foldl (fun s d => s.modUpd d (fun u =>
            { u with commit := u.commit.map (fun c => { c with cols := c.cols ++ [(gi, g.cols + 1)] }) })) s
          { s with chunks := s.chunks ++ ps }) s
  else s

/-- The shadow-half masters of a record in the replica's format, with their scales (TAKE step 4). -/
def replicaParts (g : GroupDesc) (e0 : Nat) (ws : List U32) : List (Nat × List Byte) :=
  let f := (numFmtOf g.replicaFmt).getD .fp32
  let w := fmtBits f
  let vals := ws.map (fun x => decodeFp fp32 x.toNat)
  let total := roundUp g.elements 32
  if isMx f then
    let b := mxConvert .fp32 f { round := 0, sat := false } (fun _ => 0) vals
    [(g.replicaAddr + e0 * w / 8, packCodes w b.codes),
     (g.replicaAddr + roundUp (cdiv (total * w) 8) 64 + e0 / 32, [BitVec.ofNat 8 b.scale])]
  else
    [(g.replicaAddr + e0 * w / 8, packCodes w (vals.map (fun v => (roundVal (fpOf f) .rne false v).code)))]

/-- The replica's bytes of the records that a unit owns. -/
def State.replicaOf (s : State) (d : Fin 4) (g : GroupDesc) : List (Nat × List Byte) :=
  let ep := s.dies[d].upd.epoch
  ((List.range g.ownCount).filter (fun i => decide (ownerDie g i = d))).flatMap (fun i =>
    (List.range g.unitPairs).flatMap (fun r =>
      match s.shadowRead d (halfAddr g (i * g.unitPairs + r) (!ep)) 192 with
      | .error _ => []
      | .ok bs =>
        let x : Record192 := { addr := 0, bytes := bs }
        if x.valid then replicaParts g ((g.ownFirst + i) * g.unitElems + 32 * r) x.ws else []))

/-- Writes a range here and on every other device of the job. -/
def State.writeEverywhere (s : State) (d : Fin 4) (w : Nat × List Byte) : State :=
  let s := match s.updWrite d w.1 w.2 with
    | .ok s' => s'
    | .error f => s.updFault d f
  (((s.job.inForce.map (·.deviceParticipants)).getD []).filter (fun n => decide (n ≠ s.devNumber))).foldl (fun s n =>
    s.trySend n .write 0 w.1 0 w.2) s

/-- The replicas of every dense group that has one (TAKE step 4). -/
def State.sendReplicas (s : State) (d : Fin 4) : State :=
  s.job.groups.foldl (fun s p =>
    if !p.2.valid ∨ p.2.isEmbed ∨ p.2.replicaFmt = 0 then s
    else (s.replicaOf d p.2).foldl (fun s w => s.writeEverywhere d w) s) s

/-- A record with its VERSION counted up (R206). -/
def bumpVersion (old new_ : List Byte) : List Byte :=
  new_.take 12 ++ leBytes 2 ((recVersion old + 1) % 65536) ++ new_.drop 14

/-- The back end of a stack writes its shadow log in place and is empty (TAKE step 2). -/
def State.commitStack (s : State) (d : Fin 4) (k : Fin 12) : State :=
  let s := s.hbm[k].shadow.foldl (fun s r =>
    match r.record with
    | none => s
    | some rec =>
      match s.readChecked (.req 3) r.addr rec.length with
      | .error f => s.backFault d f
      | .ok old =>
        let s := s.noteRead r.addr rec.length
        match s.writeChecked (.req 3) r.addr (bumpVersion old rec) with
        | .error f => s.backFault d f
        | .ok s => s.modUpd d (fun u => { u with pend := { u.pend with committedRows := u.pend.committedRows + 1 } })) s
  s.modStack k (fun x => { x with log := [], shadow := [] })

/-- A unit's COMMIT has everything that it waits for: it may complete (TAKE step 5). A SKIP waits for nothing. -/
def State.commitReady (s : State) (u : UpdateUnit) (c : CommitJob) : Bool :=
  c.settled && !c.finished && (decide (u.decision = .skip) ||
    (c.cols.isEmpty && (s.factoredGroups.isEmpty || c.colsSent) &&
      !s.txFlows.any (fun f => f.unacked.any (fun p => decide (p.ptype = .write)))))

/-- COMMITs go on: column sums that have become due are sent, and those that wait for nothing more complete. -/
def State.settleCommits (s : State) : State :=
  (List.finRange 4).foldl (fun s d =>
    match s.dies[d].upd.commit with
    | some c =>
      if s.commitReady s.dies[d].upd c then
        (s.modUpd d (fun u => { u with state := .committed, commit := u.commit.map (fun c => { c with finished := true }) })).finishDesc
          (fin32 c.cluster) .update c.run none
      else s
    | none => s) s.sendCols

/-- Steps 2 to 4 of the TAKE path, once a unit's reruns are done. -/
def State.commitTake (s : State) (d : Fin 4) : State :=
  let s := s.modUpd d (fun u =>
    { u with state := .committing, commit := u.commit.map (fun c => { c with settled := true }) })
  let s := (stacksOf d).foldl (fun s k => s.commitStack d k) s
  (s.sendReplicas d).settleCommits

/-- What a rerun does (CLIP steps 2 and 3): every owned row and record, and every row of the shadow log. -/
def State.rerunWork (s : State) (d : Fin 4) : List UpdWork :=
  let gs := s.job.groups.filter (fun p => p.2.valid)
  let embedOf (t : Nat) : Option Nat := (gs.find? (fun p => p.2.isEmbed && decide (p.2.rows % 16 = t))).map (·.1)
  (gs.filter (fun p => !p.2.isEmbed)).flatMap (fun p => s.groupWork d p.1 p.2) ++
    (stacksOf d).flatMap (fun k => s.hbm[k].shadow.filterMap (fun r =>
      (embedOf r.table).map (fun gi => .embed gi r.table r.row k.val)))

/-- Starts the rerun of a CLIP with c (CLIP steps 2 and 3). -/
def State.commitRerun (s : State) (d : Fin 4) : State :=
  let s := s.job.groups.foldl (fun s p => if p.2.valid then s.clearColpart d p.2 else s) s
  let w := s.rerunWork d
  let s := s.modUpd d (fun u =>
    { u with state := .rerun, work := w, pend := { u.pend with committedRecords := 0, nonfinite := 0, clamped := 0 } })
  if w = [] then s.commitTake d else s

/-- The SKIP path: speculative state is abandoned. -/
def State.commitSkip (s : State) (d : Fin 4) : State :=
  let s := ((stacksOf d).foldl State.dropLogs s).modUpd d (fun u =>
    { u with state := .committing, shadowDiscarded := wrap64 u.shadowDiscarded u.shadowNow.length, shadowNow := [], shadow := [],
             commit := u.commit.map (fun c => { c with settled := true }) })
  s.settleCommits

/-- The decision of R418: SUM's root, the decision and c. -/
def decideStep (vote : Word) (clip : U32) : U32 × StepDecision × U32 :=
  let sum : U32 := vote.setWidth 32
  let norm := fsqrt arithRne sum
  if vote.toNat / 2 ^ 32 ≠ 0 ∨ !isFinite32 sum then (norm, .skip, 0)
  else if fgt clip 0 && fgt norm clip then (norm, .clip, fdiv arithRne clip norm)
  else (norm, .take, one32)

/-- Decides a COMMIT that no UPDATE holds back. -/
def State.commitDecide (s : State) (d : Fin 4) (vote : Word) (clip : U32) : State :=
  let (norm, dec, c) := decideStep vote clip
  let s := s.modUpd d (fun u => { u with decision := dec, norm := norm, c := c, commit := u.commit.map (fun x => { x with decided := true }) })
  match dec with
  | .skip => s.commitSkip d
  | .clip => s.commitRerun d
  | _ => s.commitTake d

def commitSpans : List Span := [(3, 63, 32), (4, 63, 0), (5, 63, 0), (6, 63, 0), (7, 63, 0)]

def commitBad (d : Desc) (clip : U32) : Option Nat :=
  minBad (spansBad (descWords d) commitSpans ++
    [(!isFinite32 clip || (bitOf clip.toNat 31 && decide (clip ≠ 0x80000000)), 24)])

/-- The actions of the advance that ends a commit Season (R418 step 6, R424, R430). -/
def nextScale (s : State) (u : UpdateUnit) : U32 × Nat :=
  let f (sub : Nat) : U32 := BitVec.ofNat 32 (s.objNum 0xA020 sub)
  if s.objNum 0xA020 2 = 0 then (f 1, u.growth)
  else match u.decision with
    | .skip => (fmax arithRne (fmul arithRne u.lossScaleCur (f 3)) one32, 0)
    | _ =>
      if s.objNum 0xA020 4 ≤ u.growth + 1 then (fmin arithRne (fmul arithRne u.lossScaleCur 0x40000000) (f 5), 0)
      else (u.lossScaleCur, u.growth + 1)

/-- A unit ready for the next step. -/
def UpdateUnit.fresh (u : UpdateUnit) : UpdateUnit :=
  { u with state := .idle, decision := .none, stepT := 0, header := false, logFault := false, arrived := [], groups := [],
           season := none, work := [], gsums := [], job := none, commit := none, skewRaised := false, pend := .zero,
           shadowNow := [], shadow := [] }

/-- The step of a die that has no COMMIT of its own, its update unit being fenced or its bed off, ends with the device's (R198). -/
def State.takeModes (s : State) : State :=
  (List.finRange 4).foldl (fun s d => if s.updLive d && s.dies[d].upd.commit.isSome then s else s.takeMode d) s

/-- What the device does once at the advance that ends a commit Season: epochs of a taken step, and LAST_STEP_PHASES due (R184,
R429). -/
def State.commitEnds (s : State) (taken : Bool) (t dec season : Nat) : State :=
  if s.job.commitSeason = some season then s
  else
    { s.takeModes.modJob (fun j => { j with commitSeason := some season, tables := if taken then bumpEpochs j.tables else j.tables }) with
      phaseDue := some (t, dec, season) }

/-- The shadow halves of a taken step are in force: what only the unit saw is now memory (R403, R418). -/
def State.applyShadow (s : State) (d : Fin 4) : State :=
  (runsOf s.dies[d].upd.shadow).foldl (fun s r =>
    if (s.accessFail (.onDie d.val (.req 5)) r.1 r.2.length).isSome then s else s.writeMem r.1 r.2) s

def State.stepApply (s : State) (d : Fin 4) (c : CommitJob) : State :=
  let u := s.dies[d].upd
  let t := u.t
  let taken := decide (u.decision ≠ .skip)
  let (scale, growth) := nextScale s u
  let log : StepLog :=
    { t := BitVec.ofNat 32 t, decision := u.decision, skew := u.skewRaised || decide (0 < u.pend.stepSkewRecords),
      norm := u.norm, c := u.c, rtcStart := c.rtc, rtcAdvance := s.aon.rtc }
  let s := s.commitEnds taken t (match u.decision with
    | .none => 0
    | .take => 1
    | .clip => 2
    | .skip => 3) c.season
  let s := if taken then (s.applyShadow d).countClamped u.pend.clamped else s
  let ready := s.factoredGroups
  (s.takeMode d).modUpd d (fun u =>
    let u : UpdateUnit := { u with
      stepsTaken := wrap64 u.stepsTaken (b2n (decide (u.decision = .take)))
      stepsClipped := wrap64 u.stepsClipped (b2n (decide (u.decision = .clip)))
      stepsSkipped := wrap64 u.stepsSkipped (b2n (decide (u.decision = .skip)))
      stepSkewRecords := wrap64 u.stepSkewRecords u.pend.stepSkewRecords
      invalid := wrap64 u.invalid u.pend.invalid
      lossScaleCur := scale
      growth := growth
      stepLog := tabSet u.stepLog u.stepLogHead log
      stepLogHead := (u.stepLogHead + 1) % 64 }
    let u : UpdateUnit := if taken then { u with
        epoch := !u.epoch
        stepNumber := BitVec.ofNat 32 (t + 1)
        colReady := ready
        nonfinite := wrap64 u.nonfinite u.pend.nonfinite
        committedRecords := wrap64 u.committedRecords u.pend.committedRecords
        committedRows := wrap64 u.committedRows u.pend.committedRows } else u
    u.fresh)

/-- Units whose advance waited and whose COMMIT has completed (R421). -/
def State.stepWaited (s : State) : State :=
  (List.finRange 4).foldl (fun s d =>
    match s.dies[d].upd.commit with
    | some c => if c.advWait ∧ c.finished then s.stepApply d c else s
    | none => s) s

/-- A unit's advance out of a Season (R419): applied, or kept waiting with a step-order event (R421). -/
def State.stepAdvance (s : State) (d : Fin 4) (ended : Nat) : State :=
  match s.dies[d].upd.commit with
  | none => s
  | some c =>
    if c.season ≠ ended then s
    else if c.finished then s.stepApply d c
    else
      (s.modUpd d (fun u => { u with commit := u.commit.map (fun c => { c with advWait := true }) })).raiseD
        (uidDie d.val 4) 0x0603 s.dies[d].upd.t 1 (dctx 0x48 c.run.q)

/-- COMMIT (R418, R421). -/
def execCommit (cluster : Fin 32) (s : State) : Out :=
  let d := dieOfCluster cluster
  match (s.activeOp cluster .update 3).filter (fun _ => s.updLive d) with
  | none => .next s
  | some r =>
    let vote : Word := BitVec.ofNat 64 (r.q.desc.bits 2 63 0)
    let clip : U32 := BitVec.ofNat 32 (r.q.desc.bits 3 31 0)
    match commitBad r.q.desc clip, s.dies[d].upd.commit with
    | some o, _ => .next (s.failDesc cluster .update r (failFormat r.q.addr o))
    | none, some c =>
      if c.cluster = cluster.val ∧ c.run = r then
        if c.decided ∨ s.dies[d].upd.job.isSome then .next s else .next ((s.commitDecide d vote clip).stepWaited)
      else if c.vote = vote ∧ c.clipNorm = clip then .next (s.finishDesc cluster .update r none)
      else .next (s.failDesc cluster .update r { code := 0x0604, arg0 := vote.toNat, arg1 := c.vote.toNat % 2 ^ 48 })
    | none, none =>
      let r' : Running := { r with phase := .working }
      let c : CommitJob :=
        { cluster := cluster.val, run := r', vote := vote, clipNorm := clip, season := r.season, rtc := s.aon.rtc,
          decided := false, named := false, settled := false, colsSent := false, cols := [], finished := false, advWait := false }
      let s := (s.setRunning cluster .update r r').modUpd d (fun u => { u with commit := some c })
      if s.dies[d].upd.job.isSome then .next s else .next (s.commitDecide d vote clip)

/-- ROW_UPDATE (R406, R408): the next row or record of a unit's work whose gradient has arrived. -/
def execRowUpdate (die : Fin 4) (s : State) : Out :=
  let u := s.dies[die].upd
  match (s.workNext u [] u.work).filter (fun _ => s.updLive die) with
  | none => .next s
  | some w =>
    let s := (s.doWork die w).modUpd die (fun u => { u with work := delFirst (fun x => decide (x = w)) u.work })
    if s.dies[die].upd.work ≠ [] then .next s
    else if u.state = .rerun then .next ((s.commitTake die).stepWaited)
    else .next (s.updDone die)

/-! ### CHUNK_COMBINE (R458) -/

/-- The GRAD_SENDs of a chunk whose owner cannot be reached fault (R441). -/
def State.failGrads (s : State) (p : ChunkPart) : State :=
  (List.finRange 32).foldl (fun s g =>
    match (s.queue g .update).running.find? (fun r => decide (r.phase = .working ∧ r.q.desc.opcode = 1) &&
        inRange (gradCtl r.q.desc) p.group p.first) with
    | some r => s.failDesc g .update r (failUnreachable p.root 5)
    | none => s) s

/-- A ready chunk is combined: delivered at its root, or sent to the parent. -/
def State.combine (s : State) (p : ChunkPart) : State :=
  let (v, step) := s.chunkSum p
  let s := { s with chunks := s.chunks.filter (fun x => !x.same p) }
  if p.root = s.devNumber then
    if p.kind = 0 then s.deliverGrad p.group p.first step v
    else (s.deliverCol p.group p.first v).sendDown p v step
  else
    match s.effParent p.root treeDepth s.devNumber with
    | none => if p.kind = 0 then s.failGrads p else s
    | some m => s.trySend m .reduce step (reduceKey0 p.group p.first) (reduceKey1 p.root p.kind) (f32Bytes v)

/-- CHUNK_COMBINE (R458): the chunk of the i-th value in the staging region. -/
def execChunkCombine (i : Nat) (s : State) : Out :=
  match s.chunks[i]? with
  | none => .next s
  | some p => if s.chunkReady p then .next ((((s.combine p).settleGrads).settleCommits).stepWaited) else .next s

/-! ### LAST_STEP_PHASES (R428, R429) -/

/-- The stamps of a cluster for a Season and the one before. -/
def Cluster.stampOf (c : Cluster) (season : Nat) : Option Stamp :=
  (c.stamps.map (·.2)).find? (fun x => decide (x.season = season))

/-- A tick count as nanoseconds of real time (R57): counts of 40 ns, anchored. -/
def ticksNs (a b : Word) : Nat := (b.toNat + 2 ^ 64 - a.toNat) % 2 ^ 64 / 40 * 40

/-- Elapsed, work and wait time of a cluster in a Season. -/
def Cluster.phaseOf (c : Cluster) (season : Nat) : Option (Nat × Nat × Nat) :=
  match c.stampOf season, c.stampOf (season - 1) with
  | some x, some y => some (ticksNs y.advanceTick x.advanceTick, ticksNs y.advanceTick x.arriveTick,
      ticksNs x.arriveTick x.advanceTick)
  | _, _ => none

/-- One entry of LAST_STEP_PHASES. -/
def State.phaseEntry (s : State) (season : Nat) : List Byte :=
  let xs := s.liveClusters.filterMap (fun g => (s.clusters[g].phaseOf season).map (fun p => (g.val, p)))
  let mx (f : Nat × Nat × Nat → Nat) : Nat := xs.foldl (fun m x => max m (f x.2)) 0
  let work := mx (·.2.1)
  let slow := ((xs.find? (fun x => decide (x.2.2.1 = work))).map (·.1)).getD 0
  leBytes 4 (satAt 0xFFFFFFFF (mx (·.1))) ++ leBytes 4 (satAt 0xFFFFFFFF work) ++
    leBytes 4 (satAt 0xFFFFFFFF (mx (·.2.2))) ++ leBytes 1 slow ++ leBytes 3 0

/-- LAST_STEP_PHASES (R429): due after the advance that ends a commit Season. -/
def execLastStepPhases (s : State) : Out :=
  match s.phaseDue with
  | none => .next s
  | some (t, dec, season) =>
    .next { s with phaseDue := none,
                   phases := leBytes 4 t ++ leBytes 1 dec ++ leBytes 3 0 ++
                     (List.range 7).flatMap (fun i => s.phaseEntry (season - (6 - i))) }

end Sys2Proof.Machine
end

