-- ==== Sys2Proof/Machine/Advance.lean ====
section
/-! DEFINITION. Advance.lean: completing descriptors and advancing Seasons, with what the advance does in every unit
(R89, R92, R103 to R106, R121, R163, R209, R212, R389, R419). -/

namespace Sys2Proof.Machine

/-! ### DESCRIPTOR_COMPLETE (R89, R92, R121) -/

/-- The token of a completing descriptor, tagged with the Season of its start, plus one with POST_NEXT (R92). -/
def State.postDone (s : State) (g : Fin 32) (r : Running) : State :=
  let d := r.q.desc
  if d.postEn then
    s.postToken { source := some g.val, cluster := d.postCluster, token := d.postToken,
                  tag := r.season + b2n d.postNext, any := false, stream := 0 }
  else s

/-- A summary enters the cluster's queue and is counted by its engine (R121, R389). -/
def State.pushSummary (s : State) (g : Fin 32) (q : QueueId) (x : Summary) : State :=
  let s := s.modCluster g (fun c => { c with summaries := c.summaries ++ [x] })
  match q with
  | .vector k => s.modVec (coreOf g k) (fun v => { v with summaries := wrap64 v.summaries 1 })
  | .row k => s.modRow (coreOf g k) (fun r => { r with summaries := wrap64 r.summaries 1 })
  | _ => s

/-- DESCRIPTOR_COMPLETE (R89, R92, R121): the oldest started descriptor of the queue that has done its work; one that owes a
summary waits while the summary queue is full. -/
def execDescriptorComplete (cluster : Fin 32) (queue : QueueId) (s : State) : Out :=
  if s.clusterLive cluster then
    match (s.queue cluster queue).running.find? (fun r => decide (r.phase = .finished)) with
    | none => .next s
    | some r =>
      match r.summary with
      | none => .next ((s.endRunning cluster queue r).postDone cluster r)
      | some x =>
        if 64 ≤ s.clusters[cluster].summaries.length then .next s
        else .next (((s.endRunning cluster queue r).pushSummary cluster queue x).postDone cluster r)
  else .next s

/-! ### SEASON_ADVANCE (R103 to R106) -/

/-- The lowest-numbered live cluster of a die (R419). -/
def State.firstOfDie (s : State) (d : Fin 4) : Option (Fin 32) := s.liveClusters.find? (fun g => decide (dieOfCluster g = d))

/-- The undecided gathers of the cluster, as it leaves a Season (R163): confirmed where their token is present, else discarded
at the end of S + 1. -/
def State.decideSpec (s : State) (g : Fin 32) : State :=
  match s.clusters[g].undecided with
  | none => s
  | some sp => if s.clusters[g].confirmDue sp then s.confirmSpec g sp else s.modCluster g Cluster.specAdvance

/-- The load tables whose window ends with the device's n-th advance (R209). -/
def State.endWindows (s : State) (n : Nat) : State :=
  s.job.tables.foldl (fun s p => if p.2.valid ∧ p.2.loadWindow ≠ 0 ∧ n % p.2.loadWindow = 0 then s.writeLoads p.1 p.2 else s) s

/-- The device enters a Season: windows end, copies end, owners flip (R209, R212). -/
def State.enterSeason (s : State) (season : Nat) : State :=
  let start := (s.job.inForce.map (·.startSeason)).getD 0
  let s := (s.endWindows (season - start)).endMoves (season - 1)
  (s.flipOwners season).modJob (fun j => { j with devSeason := season })

/-- The device's Season is the lowest of its clusters' (R516): what its advance does, for every Season passed. -/
def State.settleSeason (s : State) : State :=
  ((List.range (s.seasonMin - s.job.devSeason)).map (fun i => s.job.devSeason + 1 + i)).foldl State.enterSeason s

/-- The advance of one cluster and its event at the last Season (R104, R106). A cluster that a job starts in that Season raises
none (DESIGN CHOICE, log entry 47). -/
def State.advanceCluster (s : State) (g : Fin 32) : State :=
  let s := (s.decideSpec g).modCluster g (fun c => c.advance s.aon.rtc)
  if s.clusters[g].season = 2 ^ 48 - 1 then s.raiseC g (uidCluster g.val 0) 0x0304 (2 ^ 48 - 1) 0 0 else s

/-- SEASON_ADVANCE (R103, R104, R106, R163, R209, R212, R419). -/
def execSeasonAdvance (cluster : Fin 32) (s : State) : Out :=
  if s.clusterLive cluster ∧ s.clusters[cluster].active ∧ s.clusters[cluster].mayAdvance then
    let ended := s.clusters[cluster].season
    let d := dieOfCluster cluster
    let first := decide (s.firstOfDie d = some cluster)
    let s := s.advanceCluster cluster
    let s := if first then s.stepAdvance d ended else s
    .next (s.settleSeason.settle cluster)
  else .next s

end Sys2Proof.Machine
end

