-- ==== Sys2Proof/Machine/Fifos.lean ====
section
/-! DEFINITION. Fifos.lean: the commands of the boundary FIFOs (R58 to R76). -/

namespace Sys2Proof.Machine

/-- The host port whose pauses follow an instance's flow-control output. -/
def fifoHost (f : FifoId) : Option (Fin 2) :=
  match f.kind with
  | .hostRx => some (fin2 f.idx)
  | .ingestRx => some (fin2 f.idx)
  | _ => none

/-- Puts back an instance; the pauses follow its FLOW output, and what it held back goes out (R58, R68, R74, R75). -/
def State.putFifo (s : State) (f : FifoId) (x : Fifo) : State :=
  let s := s.setFifo f x
  match f.kind with
  | .hostTx => s.flushHost
  | .mgmtTx => s.flushMgmt
  | _ =>
    match fifoHost f with
    | some h => s.syncPause h
    | none => s

/-- Appends an item at the tail. -/
def fifoPush (depth : Nat) (i : FifoItem) (x : Fifo) : Fifo :=
  fifoWriterFlags depth { x with items := x.items ++ [i], wptr := x.wptr + 1 }

/-- Writes LEN and ABORT into the open HEAD, which becomes visible at the next crossing (R61, R62). -/
def closeHead (len : Nat) (abort : Bool) (xs : List FifoItem) : List FifoItem :=
  modFirst (fun i => decide (i.tag = .head ∧ i.len = none))
    (fun i => { i with len := some len, abort := abort, bits := len % 65536 + b2n abort * 2 ^ 31 }) xs

/-- What a writer does to an instance (R59 to R63); `none` where the writer holds the item back: the FIFO reads FULL,
the item does not fit the packet under way, or the packet would pass its size limit. -/
def fifoPut (k : FifoKind) (put : FifoPut) (x : Fifo) : Option Fifo :=
  if x.full then none
  else match fifoMaxPacket k, put, openPacket x.items with
    | none, .data bits, _ =>
      some (fifoPush (fifoDepth k) { tag := .data, bits := bits % 2 ^ fifoWidth k, len := none, abort := false } x)
    | none, _, _ => none
    | some _, .head, none =>
      some (fifoPush (fifoDepth k) { tag := .head, bits := 0, len := none, abort := false } x)
    | some _, .head, some _ => none
    | some m, .data bits, some n =>
      if n + 1 ≤ m then
        some (fifoPush (fifoDepth k) { tag := .data, bits := bits % 2 ^ fifoWidth k, len := none, abort := false } x)
      else none
    | some _, .data _, none => none
    | some m, .last bits abort, some n =>
      if n ≤ m then
        let y := fifoPush (fifoDepth k) { tag := .last, bits := bits % 2 ^ fifoWidth k, len := none, abort := false } x
        some { y with items := closeHead n abort y.items }
      else none
    | some _, .last _ _, none => none

/-- A whole packet at the tail: HEAD, DATA and LAST; `none` where it does not fit, or another packet is open (R60, R63). -/
def fifoPacket (k : FifoKind) (bits : List Nat) (x : Fifo) : Option Fifo :=
  let n := bits.length
  if (openPacket x.items).isSome ∨ n = 0 ∨ fifoDepth k < fifoOccupancy x + n + 1 then none
  else
    let item (tag : FifoTag) (b : Nat) : FifoItem := { tag := tag, bits := b % 2 ^ fifoWidth k, len := none, abort := false }
    let head : FifoItem := { tag := .head, bits := n % 65536, len := some n, abort := false }
    let body := bits.dropLast.map (item .data) ++ [item .last (bits.getLastD 0)]
    some (fifoWriterFlags (fifoDepth k) { x with items := x.items ++ head :: body, wptr := x.wptr + n + 1 })

/-- FIFO_WRITE (R61). -/
def execFifoWrite (fifo : FifoId) (put : FifoPut) (s : State) : Out :=
  if s.fifoWorks fifo then
    match fifoPut fifo.kind put (s.fifo fifo) with
    | some x => .next (s.putFifo fifo x)
    | none => .next s
  else .next s

/-- The reader takes the head item (R64, R65). -/
def fifoTake (x : Fifo) : Fifo :=
  match x.items with
  | [] => { x with lastRead := idleItem }
  | i :: t =>
    let drop := x.discard || (decide (i.tag = .head) && i.abort)
    { x with items := t, rptr := x.rptr + 1, empty := decide (x.wptrSeen ≤ x.rptr + 1),
             aborted := x.aborted + b2n (decide (i.tag = .head) && i.abort),
             discard := drop && decide (i.tag ≠ .last), lastRead := if drop then idleItem else i }

/-- FIFO_READ (R65): the idle item while EMPTY is set. -/
def execFifoRead (fifo : FifoId) (s : State) : Out :=
  if s.fifoWorks fifo then
    let x := s.fifo fifo
    .next (s.setFifo fifo (if x.empty then { x with lastRead := idleItem } else fifoTake x))
  else .next s

/-- A pointer's crossing (R66 to R68): to the reader, EMPTY clears for what is visible; to the writer, FULL clears and
the flow-control output may release. -/
def fifoCross (k : FifoKind) (side : FifoSide) (x : Fifo) : Fifo :=
  match side with
  | .reader =>
    let seen := x.rptr + visibleItems x.items
    { x with wptrSeen := seen, empty := decide (seen ≤ x.rptr) }
  | .writer => fifoWriterFlags (fifoDepth k) { x with rptrSeen := x.rptr }

/-- POINTER_CROSSING (R67). -/
def execPointerCrossing (fifo : FifoId) (side : FifoSide) (s : State) : Out :=
  if s.fifoWorks fifo then .next (s.putFifo fifo (fifoCross fifo.kind side (s.fifo fifo))) else .next s

/-- A WM value that R70 accepts. -/
def wmOk (k : FifoKind) (high low : Nat) : Bool := decide (low < high ∧ high ≤ fifoDepth k)

/-- The address of an instance's register pair (R69, R30). -/
def fifoRegAddr (f : FifoId) : Nat :=
  let (u, n) := fifoUnit f
  let base := match u with
    | .die d c => dieUnitBase d.val c.val
    | .link l c => linkUnitBase l.val c
    | .engine i e => coreEngineBase i.val e.val
    | .cluster g c => clusterUnitBase g.val c.val
  base + 0xF000 + 0x10 * n

/-- A write of WM (R70). A refused one raises a configuration event with the register's address and the value. -/
def State.writeWm (s : State) (f : FifoId) (value : Nat) : State :=
  let high := value % 65536
  let low := value / 65536 % 65536
  if wmOk f.kind high low then
    s.putFifo f (fifoWriterFlags (fifoDepth f.kind) { s.fifo f with high := high, low := low })
  else s.raiseD (regUid (fifoUnit f).1) 0x0102 (fifoRegAddr f) value 0

/-- WM_WRITE (R70): reaches the register while the clocked-side unit is on and not fenced (R33, R34). -/
def execWmWrite (fifo : FifoId) (value : U32) (s : State) : Out :=
  let u := (fifoUnit fifo).1
  if fifo.ok ∧ s.bedOn (regBed u) ∧ !(regFenceUnit u).any s.fenced then .next (s.writeWm fifo value.toNat)
  else .next s

/-- PFC_PAUSE_REFRESH (R74, R468): a frame with pause time 0xFFFF for every priority held paused. -/
def execPfcPauseRefresh (host : Fin 2) (s : State) : Out :=
  let s := if s.ingestPaused host then s.sendPfc host s.hosts[host].ingestPrio 0xFFFF else s
  .next (if s.poolPaused host then s.sendPfcs host (s.poolPriorities host) 0xFFFF else s)

/-- A FIFO reset (R72): WM stays; an event gives the items lost. `cause`: 0 bed, 1 fence, 2 reset kind. -/
def State.resetFifo (s : State) (f : FifoId) (cause : Nat) : State :=
  let x := s.fifo f
  let n := satAt 255 (x.resets + 1)
  let y := { fifoReset f.kind with high := x.high, low := x.low, resets := n, aborted := x.aborted }
  let s := s.setFifo f y
  if x.items.isEmpty then s
  else s.raiseD (regUid (fifoUnit f).1) 0x0702 (fifoUnit f).2 x.items.length cause

/-- All instances of a kind. -/
def fifosOf (k : FifoKind) : List FifoId := (List.range (fifoCount k)).map (fun i => { kind := k, idx := i })

def allFifos : List FifoId :=
  [FifoKind.hbmRead, .hbmWrite, .linkIn, .linkOut, .fabRx, .fabTx, .hostRx, .hostTx, .ingestRx, .mgmtRx,
   .mgmtTx].flatMap fifosOf

/-- FIFO resets of every instance that a bed supplies a side of (R71). -/
def State.resetFifosOfBed (s : State) (b : Fin 62) (cause : Nat) : State :=
  (allFifos.filter (fun f => (fifoBeds f).contains b)).foldl (fun s f => s.resetFifo f cause) s

/-- FIFO resets of every instance with the unit on a side (R71). -/
def State.resetFifosOfUnit (s : State) (u : BitVec 16) (cause : Nat) : State :=
  (allFifos.filter (fun f => (fifoFenceUnits f).contains u)).foldl (fun s f => s.resetFifo f cause) s

/-- The registers of the instances whose clocked side a bed supplies take their At reset values (R69, R585). -/
def State.forgetFifosOfBed (s : State) (b : Fin 62) : State :=
  let mine := allFifos.filter (fun f => decide (regBed (fifoUnit f).1 = b))
  { s with fifos := mine.foldl (fun t f => tabDel t (fifoKey f)) s.fifos }

end Sys2Proof.Machine
end

