-- ==== Sys2Proof/Machine/Agent.lean ====
section
/-! DEFINITION. Agent.lean: Breop messages, admission and answers, and the management port (R495 to R502, R511, R512). -/

namespace Sys2Proof.Machine

/-! ### Messages (R498, R499) -/

/-- The request in a datagram; `none` for a message that is discarded without a response (R500). -/
def breopOf (src dest : Source) (via : Option InBand) (bs : List Byte) : Option BreopReq :=
  let w (i : Nat) : Nat := leNat ((bs.drop (8 * i)).take 8)
  let h := w 0
  let len := bitsOf h 63 48
  let auth := bitOf h 25
  let total := 24 + len + 16 * b2n auth
  if bs.length < 24 ∨ bitsOf h 15 0 ≠ 0x4F42 ∨ bitsOf h 19 16 ≠ 1 ∨ bs.length < total then none
  else
    let op := bitsOf h 23 20
    some { src := src, dest := dest, via := via, op := op, auth := auth, reqId := bitsOf (w 1) 31 0, session := bitsOf (w 1) 63 32, seq := w 2,
           payload := (bs.drop 24).take len, covered := bs.take (24 + len), tag := if auth then bs.drop (24 + len) else [],
           badFormat := decide (op = 0 ∨ 5 < op ∨ len % 8 ≠ 0 ∨ 1400 < len ∨ bitsOf h 31 26 ≠ 0 ∨ bitsOf h 47 32 ≠ 0 ∨
             bs.length ≠ total) || bitOf h 24 || (!auth && decide (bitsOf (w 1) 63 32 ≠ 0 ∨ w 2 ≠ 0)) }

/-- The header words of a message that the agent sends. -/
def respHeader (m : BreopResp) : List Word :=
  [BitVec.ofNat 64 (0x4F42 + 2 ^ 16 + m.op % 16 * 2 ^ 20 + b2n (decide (m.op ≠ 6)) * 2 ^ 24 + b2n m.auth * 2 ^ 25 +
     m.status % 256 * 2 ^ 32 + m.payload.length % 2 ^ 16 * 2 ^ 48),
   BitVec.ofNat 64 (m.reqId % 2 ^ 32 + m.session % 2 ^ 32 * 2 ^ 32), BitVec.ofNat 64 m.seq]

def respBytes (m : BreopResp) : List Byte := (respHeader m).flatMap wordBytes ++ m.payload

/-- The tag of a frame that the agent sends in a session (R511). -/
def Session.tagOf (x : Session) (m : BreopResp) : List Byte :=
  gcmTag x.key (leBytes 4 x.saltTx.toNat ++ leBytes 8 m.seq) (respBytes m)

/-- The tag of a request of the session is right: computed over header and payload, with the salt of its direction (R511). -/
def Session.tagOk (x : Session) (r : BreopReq) : Bool :=
  decide (r.tag = gcmTag x.key (leBytes 4 x.saltRx.toNat ++ leBytes 8 r.seq) r.covered)

/-! ### Answers (R500, R502) -/

def statusOk : Nat := 0
def statusNoObject : Nat := 1
def statusNoSub : Nat := 2
def statusAccess : Nat := 3
def statusType : Nat := 4
def statusRange : Nat := 5
def statusAuthRequired : Nat := 6
def statusAuthFailed : Nat := 7
def statusBusy : Nat := 8
def statusFormat : Nat := 9
def statusLength : Nat := 10
def statusSubFull : Nat := 11
def statusState : Nat := 12

/-- The response to a request; one that is not OK carries the address word alone. -/
def respTo (r : BreopReq) (status : Nat) (payload : List Byte) : BreopResp :=
  { dst := r.src, sender := r.dest, via := r.via, op := r.op, status := status, reqId := r.reqId, session := if r.auth then r.session else 0,
    seq := if r.auth then r.seq else 0, auth := r.auth, payload := if status = 0 then payload else r.payload.take 8, tag := [] }

/-- A message with its tag under a session (R511). -/
def BreopResp.signed (m : BreopResp) (x : Option Session) : BreopResp :=
  match x with
  | some x => if m.auth then { m with tag := x.tagOf m } else m
  | none => m

/-- Sends a message of the agent, by the port that it is for (R496, R497). -/
def State.sendResp (s : State) (m : BreopResp) : State :=
  match m.via with
  | none => s.sendMgmt (.breop m)
  | some v => s.sendFrame { host := v.host, sub := v.sub.val, prio := v.prio, msg := .breop m, frames := 1 }

/-- Sends a response and keeps it, among the last 64 (R502). -/
def State.answer (s : State) (m : BreopResp) : State :=
  (s.sendResp m).modAgent (fun a =>
    let ks := a.kept ++ [{ resp := m, rtc := s.aon.rtc }]
    { a with kept := ks.drop (ks.length - 64) })

/-- A kept response is kept for 1 s. -/
def State.keptOver (s : State) (k : Kept) : Bool := decide (25000000 ≤ (s.aon.rtc - k.rtc).toNat)

/-- The kept response to a source and REQ_ID. -/
def State.keptFor (s : State) (src : Source) (reqId : Nat) : Option BreopResp :=
  (s.agent.kept.find? (fun k => decide (k.resp.dst = src ∧ k.resp.reqId = reqId) && !s.keptOver k)).map (·.resp)

/-- The agent runs: the ROT bed is on and step 6 of the boot table has ended (R501, R525, R526). -/
def State.agentUp (s : State) : Bool := s.bedOn bedRot && decide (6 ≤ s.rot.stage) && !s.rot.halted

def State.dropFrame (s : State) : State := s.modAgent (fun a => { a with dropped := inc64 a.dropped 1 })

/-! ### Admission and what is answered without being executed (R500 to R502, R511, R512) -/

/-- A SEQ that is greater than every SEQ accepted in a session. -/
def Session.fresh (x : Session) (seq : Nat) : Bool := x.lastSeq.all (fun n => decide (n < seq))

/-- The session of an AUTH request that R512 accepts. -/
def State.sessionFor (s : State) (r : BreopReq) : Option Session :=
  (s.agent.sessions.find? (fun x => decide (x.id = r.session))).filter (fun x => x.tagOk r && x.fresh r.seq)

/-- An AUTH request is accepted: its SEQ and the time are kept. -/
def State.useSession (s : State) (id seq : Nat) : State :=
  s.modAgent (fun a => { a with
    sessions := modFirst (fun x => decide (x.id = id)) (fun x => { x with lastSeq := some seq, usedRtc := s.aon.rtc }) a.sessions })

/-- The session of an AUTH request, if it is open. -/
def State.sessionOf (s : State) (r : BreopReq) : Option Session :=
  if r.auth then s.agent.sessions.find? (fun x => decide (x.id = r.session)) else none

/-- An AUTH request that R512 accepts uses its session. -/
def State.accept (s : State) (r : BreopReq) : State := if r.auth then s.useSession r.session r.seq else s

/-- What the agent answers to a request that it does not execute: again what it answered before (R502), AUTH_FAILED without a tag
(R512), or FORMAT, under its session where the request carries AUTH (R500, R511). -/
def State.answeredAtOnce (s : State) (r : BreopReq) : Option State :=
  match s.keptFor r.src r.reqId with
  | some m => some (s.sendResp m)
  | none =>
    if r.auth ∧ (s.sessionFor r).isNone then some (s.answer (respTo { r with auth := false } statusAuthFailed []))
    else if r.badFormat then some ((s.accept r).answer ((respTo r statusFormat []).signed (s.sessionOf r)))
    else none

/-- The requests at the front of the queue that are not to be executed are answered, in their order. -/
def State.settleRequests (s : State) : List BreopReq → State
  | [] => s.modAgent (fun a => { a with requests := [] })
  | r :: rest =>
    match s.answeredAtOnce r with
    | some t => t.settleRequests rest
    | none => s.modAgent (fun a => { a with requests := r :: rest })

def State.settleAgent (s : State) : State := s.settleRequests s.agent.requests

/-- A Breop datagram reaches the agent, and is admitted in its turn (R501). -/
def State.admitMessage (s : State) (src dest : Source) (via : Option InBand) (bytes : List Byte) : State :=
  match breopOf src dest via bytes with
  | none => s.dropFrame
  | some r =>
    (s.modAgent (fun a => { a with admitted := wrap64 a.admitted 1, requests := a.requests ++ [r] })).settleAgent

/-- The management receive FIFO's watermark refuses what would be admitted (R58, R501). -/
def State.mgmtFull (s : State) : Bool := (s.fifo { kind := .mgmtRx, idx := 0 }).flow

/-! ### The management port (R495, R496, R501) -/

/-- An IPv4 address as an IPv4-mapped IPv6 address. -/
def ipv4Mapped (a : Nat) : Nat := 0xFFFF * 2 ^ 32 + a % 2 ^ 32

/-- A 128-bit address from its 16 bytes, most significant first. -/
def addrOfBytes (bs : List Byte) : Nat := bs.foldl (fun v b => 256 * v + b.toNat) 0

/-- The static address that the objects give, or 0 where the address comes from the network (R514). -/
def State.staticAddr (s : State) : Nat :=
  match s.objNum 0x1010 2 with
  | 1 => ipv4Mapped (s.objNum 0x1010 3)
  | 3 => addrOfBytes (s.objBytes 0x1010 6)
  | _ => 0

/-- The agent's UDP port. -/
def State.breopPort (s : State) : Nat := s.objNum 0x1010 8

/-- A frame that the management port takes (R495). -/
def mgmtFrameOk (f : MgmtFrame) : Bool := decide (f.length ≤ 1522 ∧ f.tags ≤ 1)

/-- The agent's answer to what a frame carries, and the address that it takes from it. The request that answers a DHCPv4 offer, and the
neighbour solicitation that goes out for a new IPv6 address, are sent as replies (log entry 33). -/
def State.mgmtTake (s : State) (f : MgmtFrame) : State :=
  match f.body with
  | .arp forUs => if forUs then s.sendMgmt (.mgmtReply f) else s
  | .icmpEcho => s.sendMgmt (.mgmtReply f)
  | .icmpv6 => s.sendMgmt (.mgmtReply f)
  | .dhcp addr ack =>
    if s.objNum 0x1010 2 ≠ 0 then s
    else if ack then s.modAgent (fun a => { a with addrInForce := ipv4Mapped addr }) else s.sendMgmt (.mgmtReply f)
  | .slaac addr =>
    if s.objNum 0x1010 2 ≠ 2 then s
    else (s.sendMgmt (.mgmtReply f)).modAgent (fun a => { a with addrInForce := addr % 2 ^ 128 })
  | .breop src dst bytes =>
    if dst = { addr := s.agent.addrInForce, port := s.breopPort } then s.admitMessage src dst none bytes else s
  | .fragment => s
  | .other => s

/-- MGMT_FRAME (R495, R496, R501). -/
def execMgmtFrame (frame : MgmtFrame) (s : State) : Out :=
  if !s.agentUp ∨ s.agent.mgmtLink = .down ∨ !mgmtFrameOk frame then .next s
  else if s.mgmtFull then .next s.dropFrame
  else .next (s.mgmtTake frame)

/-- KEPT_RESPONSE_EXPIRY (R502): the i-th kept response. -/
def execKeptResponseExpiry (i : Nat) (s : State) : Out :=
  match s.agent.kept[i]? with
  | some k => if s.keptOver k then .next (s.modAgent (fun a => { a with kept := listDel a.kept i })) else .next s
  | none => .next s

/-- PHY_INT (R618): the PHY reports a change of the management link. -/
def execPhyInt (link : PhyLink) (s : State) : Out :=
  if s.bedOn bedRot then .next (s.modAgent (fun a => { a with mgmtLink := link })) else .next s

end Sys2Proof.Machine
end

