-- ==== Sys2Proof/Machine/Zstd.lean ====
section
/-! DEFINITION. Zstd.lean: what a compressed block of a Zstandard frame decodes to (R481; RFC 8878 is not part of the spec: PRESUMED,
log entry 62). Entropy tables, literals, sequences, and dictionaries in the format of RFC 8878. -/

namespace Sys2Proof.Machine

/-- The number at byte i of a string, n bytes long, least significant first. -/
def numAt (bs : List Byte) (i n : Nat) : Nat := leNat ((bs.drop i).take n)

/-! ### Bit streams that are read from their end -/

/-- The bits of a stream as a number, and how many of them are left. -/
structure BackBits where
  bits : Nat
  left : Nat
  deriving DecidableEq, Repr

/-- A stream of bytes: the highest 1 of its last byte ends it. -/
def BackBits.start (bs : List Byte) : Option BackBits :=
  if bs.getLastD 0 = 0 then none else some ⟨leNat bs, (leNat bs).log2⟩

/-- The next k bits, 0 beyond the start of the stream. -/
def BackBits.peek (s : BackBits) (k : Nat) : Nat :=
  if k ≤ s.left then s.bits / 2 ^ (s.left - k) % 2 ^ k else s.bits % 2 ^ s.left * 2 ^ (k - s.left)

/-- The next k bits, and the stream after them. -/
def BackBits.read (s : BackBits) (k : Nat) : Option (Nat × BackBits) :=
  if k ≤ s.left then some (s.peek k, { s with left := s.left - k }) else none

/-! ### FSE tables -/

/-- A state of an FSE table: its symbol, and the bits and the base of the next state. -/
structure FseState where
  sym : Nat
  bits : Nat
  base : Nat
  deriving DecidableEq, Repr

/-- A run of symbols that do not occur, from a bit of a number on: how many, and the bit after it. -/
def fseZeros (v : Nat) : Nat → Nat → Nat × Nat
  | 0, pos => (0, pos)
  | fuel + 1, pos =>
    let r := v / 2 ^ pos % 4
    if r = 3 then
      let x := fseZeros v fuel (pos + 2)
      (x.1 + 3, x.2)
    else (r, pos + 2)

/-- The counts of the symbols from a bit on, -1 for a rare one, while `left` states are to be given, and the bit after them. -/
def fseCounts (v : Nat) : Nat → Nat → Nat → Option (List Int × Nat)
  | 0, pos, left => if left = 0 then some ([], pos) else none
  | fuel + 1, pos, left =>
    if left = 0 then some ([], pos)
    else
      let b := (left + 1).log2 + 1
      let spare := 2 ^ b - 2 - left
      let low := v / 2 ^ pos % 2 ^ (b - 1)
      let whole := v / 2 ^ pos % 2 ^ b
      let x := if low < spare then (low, b - 1) else if 2 ^ (b - 1) ≤ whole then (whole - spare, b) else (whole, b)
      let used := if x.1 = 0 then 1 else x.1 - 1
      let z := if x.1 = 1 then fseZeros v fuel (pos + x.2) else (0, pos + x.2)
      if left < used then none
      else (fseCounts v fuel z.2 (left - used)).map (fun t => (((x.1 : Int) - 1) :: (List.replicate z.1 0 ++ t.1), t.2))

/-- Which symbol each state of a table has. -/
def fseSpread (log : Nat) (counts : List Int) : List (Nat × Nat) :=
  let size := 2 ^ log
  let rare := (counts.zipIdx.filter (fun c => decide (c.1 = -1))).map (·.2)
  let places := ((List.range size).map (fun k => k * (size / 2 + size / 8 + 3) % size)).filter (fun p => decide (p < size - rare.length))
  places.zip (counts.zipIdx.flatMap (fun c => List.replicate c.1.toNat c.2)) ++ rare.zipIdx.map (fun r => (size - 1 - r.2, r.1))

def fseTable (log : Nat) (counts : List Int) : List FseState :=
  let spread := fseSpread log counts
  let syms := (List.range (2 ^ log)).map (fun i => ((spread.find? (fun x => decide (x.1 = i))).map (·.2)).getD 0)
  syms.zipIdx.map (fun x =>
    let next := (counts.getD x.1 0).toNat.max 1 + (syms.take x.2).count x.1
    { sym := x.1, bits := log - next.log2, base := next * 2 ^ (log - next.log2) - 2 ^ log })

/-- A table's description, and the bytes that it takes. -/
def fseRead (maxLog maxSym : Nat) (bs : List Byte) : Option (List FseState × Nat) :=
  let v := leNat (bs.take 512)
  let log := v % 16 + 5
  if bs = [] ∨ maxLog < log then none
  else match fseCounts v 256 4 (2 ^ log) with
    | none => none
    | some (cs, pos) =>
      if maxSym + 1 < cs.length ∨ bs.length < (pos + 7) / 8 then none else some (fseTable log cs, (pos + 7) / 8)

def fseAt (t : List FseState) (i : Nat) : FseState := t.getD i ⟨0, 0, 0⟩

/-- The next state of a table after one. -/
def fseNext (e : FseState) (s : BackBits) : Option (Nat × BackBits) := (s.read e.bits).map (fun x => (e.base + x.1, x.2))

/-! ### Huffman codes -/

/-- Symbols from two states that take turns, until the stream has no bits for a next state. -/
def fseTurns (t : List FseState) : Nat → BackBits → Nat → Nat → Option (List Nat)
  | 0, _, _, _ => none
  | fuel + 1, s, a, b =>
    match fseNext (fseAt t a) s with
    | none => some [(fseAt t a).sym, (fseAt t b).sym]
    | some (n, s) => (fseTurns t fuel s b n).map (fun r => (fseAt t a).sym :: r)

/-- The weights of a code, but for the last, and the bytes of their description. -/
def huffWeights (bs : List Byte) : Option (List Nat × Nat) :=
  match bs with
  | [] => none
  | h :: t =>
    let n := h.toNat
    if 128 ≤ n then
      if t.length < (n - 126) / 2 then none
      else some ((List.range (n - 127)).map (fun i => let b := numAt t (i / 2) 1; if i % 2 = 0 then b / 16 else b % 16), 1 + (n - 126) / 2)
    else
      let d := t.take n
      if t.length < n then none
      else match fseRead 6 255 d with
        | none => none
        | some (tab, k) =>
          match BackBits.start (d.drop k) with
          | none => none
          | some s =>
            match s.read tab.length.log2 with
            | none => none
            | some (a, s) =>
              match s.read tab.length.log2 with
              | none => none
              | some (b, s) => (fseTurns tab 256 s a b).map (fun ws => (ws, 1 + n))

/-- The code of some weights: per prefix of the longest length, the symbol and its bits. -/
def huffTable (ws : List Nat) : Option (List (Nat × Nat)) :=
  let sum := (ws.map (fun w => if w = 0 then 0 else 2 ^ (w - 1))).sum
  let top := sum.log2 + 1
  let last := (2 ^ top - sum).log2
  if sum = 0 ∨ 11 < top ∨ 255 < ws.length ∨ 2 ^ last ≠ 2 ^ top - sum then none
  else
    let all := (ws ++ [last + 1]).zipIdx
    some ((List.range top).flatMap (fun w =>
      (all.filter (fun x => decide (x.1 = w + 1))).flatMap (fun x => List.replicate (2 ^ w) (x.2, top - w))))

/-- A description of a code, and the bytes that it takes. -/
def huffRead (bs : List Byte) : Option (List (Nat × Nat) × Nat) :=
  match huffWeights bs with
  | none => none
  | some (ws, n) => (huffTable ws).map (fun t => (t, n))

/-- The bytes of a stream, at most as many as asked for, to its very start. -/
def huffBytes (t : List (Nat × Nat)) : Nat → BackBits → Option (List Byte)
  | 0, s => if s.left = 0 then some [] else none
  | n + 1, s =>
    let e := t.getD (s.peek t.length.log2) (0, 0)
    if e.2 = 0 ∨ s.left < e.2 then none
    else (huffBytes t n { s with left := s.left - e.2 }).map (fun r => BitVec.ofNat 8 e.1 :: r)

def huffStream (t : List (Nat × Nat)) (n : Nat) (bs : List Byte) : Option (List Byte) := (BackBits.start bs).bind (huffBytes t n)

/-- Four streams behind their jump table. -/
def huffFour (t : List (Nat × Nat)) (n : Nat) (bs : List Byte) : Option (List Byte) :=
  let a := numAt bs 0 2
  let b := numAt bs 2 2
  let c := numAt bs 4 2
  let q := (n + 3) / 4
  if bs.length < 6 + a + b + c ∨ n < 3 * q then none
  else match huffStream t q ((bs.drop 6).take a), huffStream t q ((bs.drop (6 + a)).take b),
      huffStream t q ((bs.drop (6 + a + b)).take c), huffStream t (n - 3 * q) (bs.drop (6 + a + b + c)) with
    | some w, some x, some y, some z => some (w ++ x ++ y ++ z)
    | _, _, _, _ => none

/-! ### What a frame keeps from block to block -/

/-- The Huffman code, the tables of literal lengths, offsets and match lengths (empty: none yet), and the three recent offsets. -/
structure ZstdTables where
  huff : List (Nat × Nat)
  ll : List FseState
  off : List FseState
  ml : List FseState
  recent : Nat × Nat × Nat
  deriving DecidableEq, Repr

def ZstdTables.fresh : ZstdTables := ⟨[], [], [], [], (1, 4, 8)⟩

/-- A dictionary in the format of RFC 8878, from behind its ID: its tables, and its content. -/
def zstdDictTables (bs : List Byte) : Option (ZstdTables × List Byte) :=
  match huffRead bs with
  | none => none
  | some (huff, a) =>
    match fseRead 8 31 (bs.drop a) with
    | none => none
    | some (off, b) =>
      match fseRead 9 52 (bs.drop (a + b)) with
      | none => none
      | some (ml, c) =>
        match fseRead 9 35 (bs.drop (a + b + c)) with
        | none => none
        | some (ll, d) =>
          let rest := bs.drop (a + b + c + d)
          let content := rest.drop 12
          let r (i : Nat) : Nat := numAt rest (4 * i) 4
          if rest.length < 12 ∨ ([r 0, r 1, r 2].any (fun x => decide (x = 0 ∨ content.length < x))) then none
          else some (⟨huff, ll, off, ml, (r 0, r 1, r 2)⟩, content)

/-! ### Literals -/

/-- The literals of a block, the code in force after them, and the bytes of the section. -/
def zstdLiterals (huff : List (Nat × Nat)) (bs : List Byte) : Option (List Byte × List (Nat × Nat) × Nat) :=
  let h := numAt bs 0 5
  let kind := h % 4
  let form := h / 4 % 4
  if kind < 2 then
    let head := if form % 2 = 0 then 1 else if form = 1 then 2 else 3
    let n := if form % 2 = 0 then h / 8 % 32 else if form = 1 then h / 16 % 2 ^ 12 else h / 16 % 2 ^ 20
    let stored := if kind = 0 then n else 1
    if bs.length < head + stored then none
    else some (if kind = 0 then (bs.drop head).take n else List.replicate n (BitVec.ofNat 8 (numAt bs head 1)), huff, head + stored)
  else
    let head := if form < 2 then 3 else form + 2
    let w := if form < 2 then 10 else if form = 2 then 14 else 18
    let n := h / 16 % 2 ^ w
    let comp := h / 2 ^ (4 + w) % 2 ^ w
    let data := (bs.drop head).take comp
    if bs.length < head + comp then none
    else
      let code := if kind = 2 then huffRead data else if huff = [] then none else some (huff, 0)
      match code with
      | none => none
      | some (t, k) =>
        let made := if form = 0 then huffStream t n (data.drop k) else huffFour t n (data.drop k)
        made.map (fun l => (l, t, head + comp))

/-! ### Sequences -/

/-- Base and extra bits of a literal length code, and of a match length code. -/
def llCode (c : Nat) : Nat × Nat :=
  if c < 16 then (c, 0)
  else if c < 20 then (16 + 2 * (c - 16), 1)
  else if c < 22 then (24 + 4 * (c - 20), 2)
  else if c < 24 then (32 + 8 * (c - 22), 3)
  else if c = 24 then (48, 4)
  else (2 ^ (c - 19), c - 19)

def mlCode (c : Nat) : Nat × Nat :=
  if c < 32 then (c + 3, 0)
  else if c < 36 then (35 + 2 * (c - 32), 1)
  else if c < 38 then (43 + 4 * (c - 36), 2)
  else if c < 40 then (51 + 8 * (c - 38), 3)
  else if c < 42 then (67 + 16 * (c - 40), 4)
  else if c = 42 then (99, 5)
  else (2 ^ (c - 36) + 3, c - 36)

/-- The tables that a block may use without a description. -/
def llUsual : List FseState := fseTable 6
  ([4, 3] ++ List.replicate 11 2 ++ [1, 1, 1] ++ List.replicate 9 2 ++ [3, 2, 1, 1, 1, 1, 1, -1, -1, -1, -1])
def mlUsual : List FseState := fseTable 6
  ([1, 4, 3] ++ List.replicate 6 2 ++ List.replicate 37 1 ++ List.replicate 7 (-1))
def offUsual : List FseState := fseTable 5
  (List.replicate 6 1 ++ [2, 2, 2] ++ List.replicate 15 1 ++ List.replicate 5 (-1))

/-- The table of a mode, and the bytes that it takes. -/
def zstdTable (mode : Nat) (old usual : List FseState) (maxLog maxSym : Nat) (bs : List Byte) : Option (List FseState × Nat) :=
  match mode with
  | 0 => some (usual, 0)
  | 1 => if bs = [] ∨ maxSym < numAt bs 0 1 then none else some ([⟨numAt bs 0 1, 0, 0⟩], 1)
  | 2 => fseRead maxLog maxSym bs
  | _ => if old = [] then none else some (old, 0)

/-- The number of sequences, and the bytes that it takes. -/
def zstdCount (bs : List Byte) : Option (Nat × Nat) :=
  let b := numAt bs 0 1
  if b < 128 then (if bs.length < 1 then none else some (b, 1))
  else if b < 255 then (if bs.length < 2 then none else some ((b - 128) * 256 + numAt bs 1 1, 2))
  else if bs.length < 3 then none
  else some (numAt bs 1 2 + 0x7F00, 3)

/-- The offset of a sequence with a number of literals, and the recent offsets after it. -/
def zstdOffset (v lits : Nat) (r : Nat × Nat × Nat) : Nat × Nat × Nat × Nat :=
  if 3 < v then (v - 3, v - 3, r.1, r.2.1)
  else match (if lits = 0 then v + 1 else v) with
    | 1 => (r.1, r)
    | 2 => (r.2.1, r.2.1, r.1, r.2.2)
    | 3 => (r.2.2, r.2.2, r.1, r.2.1)
    | _ => (r.1 - 1, r.1 - 1, r.1, r.2.1)

/-- A match may reach back so far: within the window, or into the dictionary while the content is no longer than the window. -/
def zstdReaches (dict : List Byte) (window back n : Nat) : Bool :=
  decide (back ≠ 0) && (if back ≤ n then decide (back ≤ window) else decide (back ≤ n + dict.length ∧ n ≤ window))

/-- A match: n bytes, each the one so far back. -/
def zstdMatch (dict : List Byte) (back n : Nat) (out : List Byte) : List Byte :=
  (List.range n).foldl (fun o _ =>
    o ++ [if back ≤ o.length then o.getD (o.length - back) 0 else dict.getD (dict.length + o.length - back) 0]) out

/-- A state of the sequences' decoding. -/
structure ZstdSeq where
  bits : BackBits
  ll : Nat
  off : Nat
  ml : Nat
  lits : List Byte
  out : List Byte
  recent : Nat × Nat × Nat
  deriving DecidableEq, Repr

/-- Three fields of a stream, one behind the other. -/
def BackBits.read3 (s : BackBits) (a b c : Nat) : Option ((Nat × Nat × Nat) × BackBits) :=
  match s.read a with
  | none => none
  | some (x, s) =>
    match s.read b with
    | none => none
    | some (y, s) => (s.read c).map (fun z => ((x, y, z.1), z.2))

/-- One sequence: its literals and its match. -/
def zstdStep (t : ZstdTables) (dict : List Byte) (window : Nat) (q : ZstdSeq) : Option ZstdSeq :=
  let o := (fseAt t.off q.off).sym
  let m := mlCode (fseAt t.ml q.ml).sym
  let l := llCode (fseAt t.ll q.ll).sym
  match q.bits.read3 o m.2 l.2 with
  | none => none
  | some ((x, y, z), bits) =>
    let n := l.1 + z
    let r := zstdOffset (2 ^ o + x) n q.recent
    let out := q.out ++ q.lits.take n
    if q.lits.length < n ∨ !zstdReaches dict window r.1 out.length then none
    else some { q with bits := bits, lits := q.lits.drop n, out := zstdMatch dict r.1 (m.1 + y) out, recent := r.2 }

/-- The states of the next sequence. -/
def zstdStates (t : ZstdTables) (q : ZstdSeq) : Option ZstdSeq :=
  let l := fseAt t.ll q.ll
  let m := fseAt t.ml q.ml
  let o := fseAt t.off q.off
  (q.bits.read3 l.bits m.bits o.bits).map (fun x =>
    { q with bits := x.2, ll := l.base + x.1.1, ml := m.base + x.1.2.1, off := o.base + x.1.2.2 })

/-- Sequences, one more than a number, up to the very start of their stream. -/
def zstdSeqs (t : ZstdTables) (dict : List Byte) (window : Nat) : Nat → ZstdSeq → Option ZstdSeq
  | 0, q => (zstdStep t dict window q).filter (fun x => decide (x.bits.left = 0))
  | n + 1, q => ((zstdStep t dict window q).bind (zstdStates t)).bind (zstdSeqs t dict window n)

/-- The three tables of a block, from their modes on, and the bytes that they take. -/
def zstdSeqTables (old : ZstdTables) (bs : List Byte) : Option (ZstdTables × Nat) :=
  let modes := numAt bs 0 1
  if bs = [] ∨ modes % 4 ≠ 0 then none
  else match zstdTable (modes / 64) old.ll llUsual 9 35 (bs.drop 1) with
    | none => none
    | some (ll, a) =>
      match zstdTable (modes / 16 % 4) old.off offUsual 8 31 (bs.drop (1 + a)) with
      | none => none
      | some (off, b) =>
        (zstdTable (modes / 4 % 4) old.ml mlUsual 9 52 (bs.drop (1 + a + b))).map (fun x =>
          ({ old with ll := ll, off := off, ml := x.1 }, 1 + a + b + x.2))

/-- A compressed block after a content: the tables that it leaves, and the content with its own. -/
def zstdBlock (old : ZstdTables) (dict : List Byte) (window : Nat) (out bs : List Byte) : Option (ZstdTables × List Byte) :=
  match zstdLiterals old.huff bs with
  | none => none
  | some (lits, huff, a) =>
    let rest := bs.drop a
    match zstdCount rest with
    | none => none
    | some (0, k) => if rest.length = k then some ({ old with huff := huff }, out ++ lits) else none
    | some (n + 1, k) =>
      match zstdSeqTables { old with huff := huff } (rest.drop k) with
      | none => none
      | some (t, c) =>
        match BackBits.start (rest.drop (k + c)) with
        | none => none
        | some s =>
          match s.read3 t.ll.length.log2 t.off.length.log2 t.ml.length.log2 with
          | none => none
          | some ((l, o, m), s) =>
            (zstdSeqs t dict window n ⟨s, l, o, m, lits, out, t.recent⟩).map (fun q => ({ t with recent := q.recent }, q.out ++ q.lits))

end Sys2Proof.Machine
end

