-- ==== Sys2Proof/Machine/Codec.lean ====
section
/-! DEFINITION. Codec.lean: what an ingest engine makes of a compressed shard (R481, R482). The LZ4 frames and blocks, the frames of
Zstandard and the two checksums are PRESUMED (LZ4 Frame Format, RFC 8878, xxHash; log entry 62). -/

namespace Sys2Proof.Machine

/-! ### Checksums -/

def rot32 (x n : Nat) : Nat := (x * 2 ^ n + x / 2 ^ (32 - n)) % 2 ^ 32
def rot64 (x n : Nat) : Nat := (x * 2 ^ n + x / 2 ^ (64 - n)) % 2 ^ 64

def xx32Round (acc lane : Nat) : Nat := rot32 ((acc + lane * 2246822519) % 2 ^ 32) 13 * 2654435761 % 2 ^ 32

/-- The four accumulators of xxHash32 after the whole stripes of 16 bytes. -/
def xx32Stripes (bs : List Byte) : List Nat :=
  (List.range (bs.length / 16)).foldl (fun v i =>
    v.zipIdx.map (fun x => xx32Round x.1 (numAt bs (16 * i + 4 * x.2) 4)))
    [606290984, 2246822519, 0, 1640531535]

/-- xxHash32 of a string, seed 0. -/
def xxHash32 (bs : List Byte) : Nat :=
  let n := bs.length
  let v := xx32Stripes bs
  let h := if 16 ≤ n then
      (rot32 (v.getD 0 0) 1 + rot32 (v.getD 1 0) 7 + rot32 (v.getD 2 0) 12 + rot32 (v.getD 3 0) 18) % 2 ^ 32
    else 374761393
  let at_ := n / 16 * 16
  let h := (List.range (n % 16 / 4)).foldl (fun h i =>
    rot32 ((h + numAt bs (at_ + 4 * i) 4 * 3266489917) % 2 ^ 32) 17 * 668265263 % 2 ^ 32) ((h + n) % 2 ^ 32)
  let h := (List.range (n % 4)).foldl (fun h i =>
    rot32 ((h + numAt bs (n / 4 * 4 + i) 1 * 374761393) % 2 ^ 32) 11 * 2654435761 % 2 ^ 32) h
  let h := (h ^^^ (h / 2 ^ 15)) * 2246822519 % 2 ^ 32
  let h := (h ^^^ (h / 2 ^ 13)) * 3266489917 % 2 ^ 32
  h ^^^ (h / 2 ^ 16)

def xx64P1 : Nat := 11400714785074694791
def xx64P2 : Nat := 14029467366897019727
def xx64P3 : Nat := 1609587929392839161
def xx64P4 : Nat := 9650029242287828579
def xx64P5 : Nat := 2870177450012600261

def xx64Round (acc lane : Nat) : Nat := rot64 ((acc + lane * xx64P2) % 2 ^ 64) 31 * xx64P1 % 2 ^ 64

/-- The four accumulators of xxHash64 after the whole stripes of 32 bytes. -/
def xx64Stripes (bs : List Byte) : List Nat :=
  (List.range (bs.length / 32)).foldl (fun v i =>
    v.zipIdx.map (fun x => xx64Round x.1 (numAt bs (32 * i + 8 * x.2) 8)))
    [(xx64P1 + xx64P2) % 2 ^ 64, xx64P2, 0, 2 ^ 64 - xx64P1]

/-- An accumulator joins the hash. -/
def xx64Merge (h v : Nat) : Nat := ((h ^^^ xx64Round 0 v) * xx64P1 + xx64P4) % 2 ^ 64

/-- xxHash64 of a string, seed 0. -/
def xxHash64 (bs : List Byte) : Nat :=
  let n := bs.length
  let v := xx64Stripes bs
  let h := if 32 ≤ n then
      v.foldl xx64Merge
        ((rot64 (v.getD 0 0) 1 + rot64 (v.getD 1 0) 7 + rot64 (v.getD 2 0) 12 + rot64 (v.getD 3 0) 18) % 2 ^ 64)
    else xx64P5
  let at_ := n / 32 * 32
  let h := (List.range (n % 32 / 8)).foldl (fun h i =>
    (rot64 (h ^^^ xx64Round 0 (numAt bs (at_ + 8 * i) 8)) 27 * xx64P1 + xx64P4) % 2 ^ 64) ((h + n) % 2 ^ 64)
  let h := if 4 ≤ n % 8 then
      (rot64 (h ^^^ (numAt bs (n / 8 * 8) 4 * xx64P1 % 2 ^ 64)) 23 * xx64P2 + xx64P3) % 2 ^ 64
    else h
  let h := (List.range (n % 4)).foldl (fun h i =>
    rot64 (h ^^^ (numAt bs (n / 4 * 4 + i) 1 * xx64P5 % 2 ^ 64)) 11 * xx64P1 % 2 ^ 64) h
  let h := (h ^^^ (h / 2 ^ 33)) * xx64P2 % 2 ^ 64
  let h := (h ^^^ (h / 2 ^ 29)) * xx64P3 % 2 ^ 64
  h ^^^ (h / 2 ^ 32)

/-! ### Frames laid end to end -/

/-- One frame of a format: its content and its bytes, or where in it decoding fails. -/
abbrev FrameDecoder := List Byte → Except Nat (List Byte × Nat)

/-- The bytes of a skippable frame, where one stands and is whole. -/
def skippable (bs : List Byte) : Option Nat :=
  if bs.length < 8 ∨ numAt bs 0 4 / 16 ≠ 0x184D2A5 ∨ bs.length < 8 + numAt bs 4 4 then none else some (8 + numAt bs 4 4)

/-- The content of frames and skippable frames up to the end of a shard, or the byte offset of the failure. -/
def decodeFrames (frame : FrameDecoder) : Nat → Nat → List Byte → Except Nat (List Byte)
  | 0, off, bs => if bs = [] then .ok [] else .error off
  | fuel + 1, off, bs =>
    if bs = [] then .ok []
    else match skippable bs with
      | some n => decodeFrames frame fuel (off + n) (bs.drop n)
      | none =>
        match frame bs with
        | .error o => .error (off + o)
        | .ok (content, n) =>
          match decodeFrames frame fuel (off + n) (bs.drop n) with
          | .error o => .error o
          | .ok rest => .ok (content ++ rest)

/-! ### LZ4 (R482) -/

/-- A length that goes on in bytes of 255: what they add, and the bytes taken. -/
def lz4More : List Byte → Option (Nat × Nat)
  | [] => none
  | b :: t => if b.toNat = 255 then (lz4More t).map (fun x => (x.1 + 255, x.2 + 1)) else some (b.toNat, 1)

/-- A length of a token with what follows it. -/
def lz4Length (low : Nat) (bs : List Byte) : Option (Nat × Nat) :=
  if low = 15 then (lz4More bs).map (fun x => (x.1 + 15, x.2)) else some (low, 0)

/-- A match: n bytes, each the one so far back. -/
def lz4Match (back n : Nat) (out : List Byte) : List Byte :=
  (List.range n).foldl (fun o _ => o ++ [o.getD (o.length - back) 0]) out

/-- A block after `out`, of which a match may reach back to byte `first`. -/
def lz4Block (first : Nat) : Nat → List Byte → List Byte → Option (List Byte)
  | 0, _, _ => none
  | fuel + 1, bs, out =>
    match bs with
    | [] => none
    | t :: bs =>
      match lz4Length (t.toNat / 16) bs with
      | none => none
      | some (lit, k) =>
        let bs := bs.drop k
        let out := out ++ bs.take lit
        if bs.length < lit then none
        else if bs.length = lit then some out
        else
          let bs := bs.drop lit
          let back := numAt bs 0 2
          match lz4Length (t.toNat % 16) (bs.drop 2) with
          | none => none
          | some (more, k) =>
            if bs.length < 2 ∨ back = 0 ∨ out.length < first + back then none
            else lz4Block first fuel ((bs.drop 2).drop k) (lz4Match back (more + 4) out)

/-- The flags of an LZ4 frame's descriptor. -/
structure Lz4Flags where
  linked : Bool
  blockSum : Bool
  sized : Bool
  contentSum : Bool
  maxBlock : Nat
  deriving DecidableEq, Repr

/-- The flags of a descriptor without version, reserved bits, Dict-ID or block size that it may not have. -/
def lz4Flags (flg bd : Nat) : Option Lz4Flags :=
  if bitsOf flg 7 6 ≠ 1 ∨ bitOf flg 1 ∨ bitOf flg 0 ∨ bitOf bd 7 ∨ bitsOf bd 3 0 ≠ 0 ∨ bitsOf bd 6 4 < 4 then none
  else some { linked := !bitOf flg 5, blockSum := bitOf flg 4, sized := bitOf flg 3, contentSum := bitOf flg 2,
              maxBlock := 2 ^ (8 + 2 * bitsOf bd 6 4) }

/-- The blocks of a frame up to its end mark: the content, and the bytes that they take. -/
def lz4Blocks (f : Lz4Flags) : Nat → Nat → List Byte → List Byte → Except Nat (List Byte × Nat)
  | 0, off, _, _ => .error off
  | fuel + 1, off, bs, out =>
    if bs.length < 4 then .error off
    else
      let w := numAt bs 0 4
      let n := w % 2 ^ 31
      let data := (bs.drop 4).take n
      let whole := 4 + n + 4 * b2n f.blockSum
      if w = 0 then .ok (out, off + 4)
      else if f.maxBlock < n ∨ bs.length < whole ∨ (f.blockSum ∧ numAt bs (4 + n) 4 ≠ xxHash32 data) then .error off
      else
        let next := if w < 2 ^ 31 then lz4Block (if f.linked then out.length - 65536 else out.length) (n + 1) data out else some (out ++ data)
        match next with
        | none => .error off
        | some o => if f.maxBlock < o.length - out.length then .error off else lz4Blocks f fuel (off + whole) (bs.drop whole) o

/-- An LZ4 frame. -/
def lz4Frame : FrameDecoder := fun bs =>
  if bs.length < 7 ∨ numAt bs 0 4 ≠ 0x184D2204 then .error 0
  else match lz4Flags (numAt bs 4 1) (numAt bs 5 1) with
    | none => .error 4
    | some f =>
      let d := 2 + 8 * b2n f.sized
      if bs.length < 5 + d ∨ numAt bs (4 + d) 1 ≠ xxHash32 ((bs.drop 4).take d) / 256 % 256 then .error 4
      else match lz4Blocks f bs.length (5 + d) (bs.drop (5 + d)) [] with
        | .error o => .error o
        | .ok (out, n) =>
          if f.sized ∧ numAt bs 6 8 ≠ out.length then .error 6
          else if f.contentSum ∧ (bs.length < n + 4 ∨ numAt bs n 4 ≠ xxHash32 out) then .error n
          else .ok (out, n + 4 * b2n f.contentSum)

def lz4Decode (bs : List Byte) : Except Nat (List Byte) := decodeFrames lz4Frame bs.length 0 bs

/-! ### Zstandard (R481) -/

/-- The ID of a registered dictionary in dictionary format; raw content has none. -/
def zstdDictId (d : List Byte) : Option Nat := if numAt d 0 4 = 0xEC30A437 then some (numAt d 4 4) else none

/-- A frame header: its bytes, the window, the Dictionary_ID, the content size if it gives one, and whether a checksum follows. -/
structure ZstdHeader where
  bytes : Nat
  window : Nat
  dict : Nat
  size : Option Nat
  sum : Bool
  deriving DecidableEq, Repr

/-- The frame content size in its field of n bytes. -/
def zstdSize (bs : List Byte) (i n : Nat) : Option Nat :=
  if n = 0 then none else some (numAt bs i n + if n = 2 then 256 else 0)

/-- The window of a Window_Descriptor. -/
def zstdWindow (d : Nat) : Nat := 2 ^ (10 + d / 8) + 2 ^ (10 + d / 8) / 8 * (d % 8)

def zstdHeader (bs : List Byte) : Option ZstdHeader :=
  if bs.length < 5 ∨ numAt bs 0 4 ≠ 0xFD2FB528 ∨ bitOf (numAt bs 4 1) 3 then none
  else
    let d := numAt bs 4 1
    let single := bitOf d 5
    let w := b2n !single
    let idBytes := if d % 4 = 3 then 4 else d % 4
    let sizeBytes := if d / 64 = 0 then b2n single else 2 ^ (d / 64)
    let n := 5 + w + idBytes + sizeBytes
    let size := zstdSize bs (5 + w + idBytes) sizeBytes
    if bs.length < n then none
    else some { bytes := n, window := if single then size.getD 0 else zstdWindow (numAt bs 5 1),
                dict := numAt bs (5 + w) idBytes, size := size, sum := bitOf d 2 }

/-- The blocks of a frame up to its last: the content, and the bytes that they take. -/
def zstdBlocks (dict : List Byte) (window : Nat) : Nat → Nat → List Byte → List Byte → ZstdTables → Except Nat (List Byte × Nat)
  | 0, off, _, _, _ => .error off
  | fuel + 1, off, bs, out, t =>
    if bs.length < 3 then .error off
    else
      let w := numAt bs 0 3
      let limit := min window (128 * 2 ^ 10)
      let kind := bitsOf w 2 1
      let n := w / 8
      let stored := if kind = 1 then 1 else n
      let data := (bs.drop 3).take stored
      if kind = 3 ∨ limit < n ∨ bs.length < 3 + stored then .error off
      else
        let made := if kind = 0 then some (t, out ++ data)
          else if kind = 1 then some (t, out ++ List.replicate n (data.headD 0))
          else zstdBlock t dict window out data
        match made with
        | none => .error off
        | some (t, o) =>
          if limit < o.length - out.length then .error off
          else if w % 2 = 1 then .ok (o, off + 3 + stored)
          else zstdBlocks dict window fuel (off + 3 + stored) (bs.drop (3 + stored)) o t

/-- The tables and the content of the dictionary that a Dictionary_ID names: none of them for 0. -/
def zstdDict (dicts : List (List Byte)) (id : Nat) : Option (ZstdTables × List Byte) :=
  if id = 0 then some (.fresh, [])
  else (dicts.find? (fun d => decide (zstdDictId d = some id))).bind (fun d => zstdDictTables (d.drop 8))

/-- A Zstandard frame, with the registered dictionaries. -/
def zstdFrame (dicts : List (List Byte)) : FrameDecoder := fun bs =>
  match zstdHeader bs with
  | none => .error 0
  | some h =>
    match zstdDict dicts h.dict with
    | none => .error 4
    | some (t, d) =>
      if 8 * 2 ^ 20 < h.window then .error 4
      else match zstdBlocks d h.window bs.length h.bytes (bs.drop h.bytes) [] t with
        | .error o => .error o
        | .ok (out, n) =>
          if h.size.any (fun k => decide (k ≠ out.length)) then .error 4
          else if h.sum ∧ (bs.length < n + 4 ∨ numAt bs n 4 ≠ xxHash64 out % 2 ^ 32) then .error n
          else .ok (out, n + 4 * b2n h.sum)

def zstdDecode (dicts : List (List Byte)) (bs : List Byte) : Except Nat (List Byte) :=
  decodeFrames (zstdFrame dicts) bs.length 0 bs

end Sys2Proof.Machine
end

