-- ==== Sys2Proof/Machine/Fences.lean ====
section
/-! DEFINITION. Fences.lean: what a fence and a stop discard, fencing, the capacity descriptor and the replacement request
(R568 to R578, R626). -/

namespace Sys2Proof.Machine

/-! ### Names (R626) -/

inductive FenceKind where
  | cluster (g : Fin 32)
  | die (d : Fin 4)
  | stack (k : Fin 12)
  | edge (e : Fin 8)
  | update (d : Fin 4)
  | host (h : Fin 2)
  | ingest (i : Fin 2)
  deriving DecidableEq, Repr

def fenceUid : FenceKind → BitVec 16
  | .cluster g => uidCluster g.val 0
  | .die d => uidDie d.val 8
  | .stack k => uidStack k.val
  | .edge e => edgeUid e.val
  | .update d => uidDie d.val 4
  | .host h => uidLink h.val 0x10
  | .ingest i => uidLink i.val 0x11

/-- Units that an arbiter's watchdog fences (R569). -/
def FenceKind.watched : FenceKind → Bool
  | .cluster _ => true
  | .die _ => false
  | .stack _ => false
  | .edge _ => false
  | .update _ => true
  | .host _ => true
  | .ingest _ => true

/-- Every unit that can be fenced by name. -/
def fenceables : List FenceKind :=
  (List.finRange 32).map .cluster ++ (List.finRange 4).map .die ++ (List.finRange 12).map .stack ++
  (List.finRange 8).map .edge ++ (List.finRange 4).map .update ++ (List.finRange 2).map .host ++
  (List.finRange 2).map .ingest

/-- The unit a name stands for: an edge answers to either die it joins (R626). -/
def fenceNamed (u : BitVec 16) : Option FenceKind :=
  match fenceables.find? (fun k => decide (fenceUid k = u)) with
  | some k => some k
  | none =>
    if u = uidDie 1 1 then some (.edge 0)
    else if u = uidDie 3 1 then some (.edge 1)
    else if u = uidDie 2 2 then some (.edge 2)
    else if u = uidDie 3 2 then some (.edge 3)
    else none

/-! ### Discarding work (R570 step 2, R583 step 1, R604) -/

/-- Harrow without its work; its undecided gathers are discarded (R126). -/
def harrowDrop (h : Harrow) : Harrow :=
  let n := match h.spec with
    | some sp => if sp.decision = .undecided then sp.gathers + (h.toPost.filter (·.spec)).length else 0
    | none => 0
  { h with job := none, spec := none, toPost := [], fills := [], specDiscarded := wrap64 h.specDiscarded n }

def rakeDrop (r : Rake) : Rake := { r with jobs := [], staged := [], fills := [] }

def sprinklerDrop (x : Sprinkler) : Sprinkler :=
  { x with parts := [], taken := [], recent := [], windowPos := 0, sending := [], job := none }

/-- Queued and started work of a cluster ends without tokens and without events. -/
def Cluster.dropWork (c : Cluster) : Cluster :=
  { c with queues := [], harrow := harrowDrop c.harrow, rake := rakeDrop c.rake, sprinkler := sprinklerDrop c.sprinkler,
           seq := { c.seq with load := none } }

/-- An array that fires ballast stops (R81). Its idle time was not up: that it counts as wound down all the same, so that its
next command takes the ramp, is a DESIGN CHOICE (log entry 20). -/
def ballastStop : BallastState → BallastState
  | .ballast => .woundDown
  | b => b

/-- The parameters of R83, taken at the start of an idle interval. -/
def State.idleParams (s : State) (x : Matrix) : Matrix :=
  if x.idle then x else { x with idle := true, gapNs := s.objNum 0x4020 1, rampNs := s.objNum 0x4020 2 }

/-- The writes that a thread unit has issued: they still complete at their targets, and what reads bring back is dropped
(R570 step 2, R583 step 1). -/
def ThreadUnit.issued (t : ThreadUnit) : List Entry :=
  (t.job.map (fun j => if j.run.q.desc.opcode = 2 then j.inFlight else [])).getD []

/-- A core's work ends; its array stops ballast (R81). -/
def Core.dropWork (c : Core) : Core :=
  { c with mtx := { c.mtx with jobs := [], ballast := ballastStop c.mtx.ballast }, tbuf := c.tbuf.empty, vec := { c.vec with job := none },
           xfer := { c.xfer with readsOut := 0 }, thr := { c.thr with job := none, orphans := c.thr.orphans ++ c.thr.issued, turn := 0, heldCap := 0 } }

/-- The cores of a cluster. -/
def coresOf (g : Fin 32) : List (Fin 256) := (List.finRange 8).map (coreOf g)

def State.dropCluster (s : State) (g : Fin 32) : State :=
  (coresOf g).foldl (fun s n => (s.modMatrix n s.idleParams).modCore n Core.dropWork) (s.modCluster g Cluster.dropWork)

/-- An update unit's work is discarded, with its speculative state (R420) and the update queues of its die's clusters. -/
def State.dropUpdate (s : State) (d : Fin 4) : State :=
  let s := ((stacksOf d).foldl State.dropLogs s).modUpd d (fun u =>
    { u with work := [], gsums := [], job := none, commit := none, state := .idle, groups := [],
             shadowDiscarded := wrap64 u.shadowDiscarded u.shadowNow.length, shadowNow := [], shadow := [], pend := .zero,
             season := none, arrived := [], header := false, stepT := 0, skewRaised := false })
  (List.finRange 32).foldl (fun s g =>
    if g.val / 8 = d.val then s.modCluster g (fun c => { c with queues := tabDel c.queues 0x48 }) else s) s

/-- Requests that wait at a port and that a test picks are discarded; their cells are free again (R459, R475). -/
def State.dropRequests (s : State) (h : Fin 2) (gone : RoceWait → Bool) : State :=
  let n := ((s.hosts[h].accepted.filter gone).map (·.cells)).sum
  ((s.modHost h (fun p => { p with accepted := p.accepted.filter (fun w => !gone w) })).modPool h (fun p => poolGive p 8 n)).syncPause h

/-- Every queue pair of a port enters the error state (R475). -/
def State.errorQps (s : State) (h : Fin 2) : State :=
  (s.modHost h (fun p => { p with
    qps := p.qps.map (fun x => (x.1, { x.2 with error := true, sendOpen := false, sendBuf := [], writeAt := none, writeTail := [] })) })).dropRequests
    h (fun _ => true)

/-- The requests of a port's INGEST queue pairs are discarded (R491). -/
def State.dropIngestRequests (s : State) (h : Fin 2) : State :=
  s.dropRequests h (fun w => s.hosts[h].qps.any (fun x => decide (x.2.cfg.qpn = w.qpn) && x.2.cfg.ingest))

/-- Pending notices, staging and the shuffle buffer are abandoned (R491). -/
def Ingest.abandon (x : Ingest) : Ingest :=
  { x with cfg := none, ready := [], early := [], noticeBytes := [], decoded := [], slots := [], emitQ := [] }

/-- The finished-tile queue of a core is emptied (R373); `cause` as for a FIFO reset. -/
def State.emptyFtq (s : State) (cause : Nat) (n : Fin 256) : State :=
  let k := s.cores[n].vec.ftq.length
  if k = 0 then s
  else (s.modVec n (fun v => { v with ftq := [], tilesLost := wrap64 v.tilesLost k })).raiseC (clusterOfCore n)
    (uidEngine n.val 2) 0x0702 0x100 k cause

def State.emptyFtqs (s : State) (g : Fin 32) (cause : Nat) : State := (coresOf g).foldl (fun s n => s.emptyFtq cause n) s

/-- Steps 2 and 3 of R570 for one unit. -/
def State.unitEffects (s : State) (k : FenceKind) : State :=
  let s := match k with
    | .cluster g => (s.dropCluster g).emptyFtqs g 1
    | .stack x => s.dropStack x
    | .update d => s.dropUpdate d
    | .host h => s.errorQps h
    | .ingest i => (s.dropIngestRequests i).modIngest i Ingest.abandon
    | _ => s
  let s := s.resetFifosOfUnit (fenceUid k) 1
  match k with
  | .host h => s.syncPause h
  | .ingest i => s.syncPause i
  | _ => s

/-- The units of a die that can be fenced; link dies as 4 and 5. -/
def unitsOfDie (d : Nat) : List FenceKind :=
  if d < 4 then
    ((List.finRange 32).filter (fun g => decide (g.val / 8 = d))).map FenceKind.cluster ++ [.update (fin4 d)] ++
      ((List.finRange 12).filter (fun k => decide (k.val / 3 = d))).map FenceKind.stack
  else [.host (fin2 d), .ingest (fin2 d)]

/-- Units that fenced edges have left without a path count as fenced: their work ends and their FIFOs are reset (R18). -/
def State.cutOff (s : State) (before : List Nat) : State :=
  let gone := before.filter (fun d => !s.health.reached.contains d)
  gone.foldl (fun s d =>
    let s := (unitsOfDie d).foldl State.unitEffects s
    if d < 4 then s else (List.range 8).foldl (fun s p => s.resetFifosOfUnit (uidPort (8 * (d - 4) + p)) 1) s) s

/-- Steps 2 and 3 of R570; `before` lists the dies with a path before the fence. -/
def State.fenceEffects (s : State) (before : List Nat) (k : FenceKind) : State :=
  match k with
  | .edge _ => (s.unitEffects k).cutOff before
  | _ => s.unitEffects k

/-! ### Fencing (R569 to R571) -/

/-- The event of a fence (R552, R560). -/
def State.fenceEvent (s : State) (k : FenceKind) (code : Nat) (persistent : Bool) (cause by_ : BitVec 16) : State :=
  let u := fenceUid k
  let a2 := cause.toNat + by_.toNat * 65536
  match k with
  | .cluster g => s.raiseC g u code u.toNat (b2n persistent) a2
  | _ => s.raiseD u code u.toNat (b2n persistent) a2

/-- The first change since the last publication is its cause (R574, R575). -/
def State.capacityChange (s : State) (u cause : BitVec 16) : State :=
  s.modHealth (fun h => { h with capCause := some (h.capCause.getD (u, cause)) })

/-- Fences one unit, or makes its transient fence persistent (R571). -/
def State.fenceOne (s : State) (k : FenceKind) (persistent : Bool) (cause by_ : BitVec 16) : State :=
  let u := fenceUid k
  match s.health.fences.find? (fun f => decide (f.unit = u)) with
  | some f =>
    if persistent ∧ !f.persistent then
      let cause' := if by_ = 0 then cause else f.cause
      let s := s.modHealth (fun h => { h with
        fences := modFirst (fun x => decide (x.unit = u)) (fun x => { x with persistent := true, cause := cause' }) h.fences })
      (s.fenceEvent k 0x0D01 true cause' f.by_).capacityChange u cause'
    else s
  | none =>
    let before := s.health.reached
    let s := s.modHealth (fun h => { h with
      fences := h.fences ++ [{ unit := u, cause := cause, persistent := persistent, by_ := by_, flashed := false }],
      fenceBusy := h.fenceBusy ++ [u] })
    let s := (s.openRecovery .fence).fenceEffects before k
    (s.fenceEvent k 0x0D01 persistent cause by_).capacityChange u cause

/-- What a fence of a die brings with it, in ascending unit identifier (R569). -/
def dieUnits (d : Fin 4) : List FenceKind :=
  let cl := (List.finRange 32).filter (fun g => decide (g.val / 8 = d.val))
  let es := (List.finRange 8).filter (fun e => decide ((edgeEnds e.val).1 = d.val ∨ (edgeEnds e.val).2 = d.val))
  let st := (List.finRange 12).filter (fun k => decide (k.val / 3 = d.val))
  let all := cl.map FenceKind.cluster ++ es.map FenceKind.edge ++ [.update d] ++ st.map FenceKind.stack
  all.insertionSort (fun a b => (fenceUid a).toNat ≤ (fenceUid b).toNat)

/-- A unit that a fence of this kind finds fenced already (R571). -/
def State.heldFence (s : State) (k : FenceKind) (persistent : Bool) : Bool :=
  s.health.fences.any (fun f => decide (f.unit = fenceUid k) && (f.persistent || !persistent))

/-- A fence with those it brings, then the barriers that waited on the fenced units (R108). A fence of a unit already fenced has no
effect (R571). -/
def State.fenceWith (s : State) (k : FenceKind) (persistent : Bool) (cause : BitVec 16) (also : List FenceKind) : State :=
  let also := match k with
    | .die d => dieUnits d ++ also
    | _ => also
  if s.heldFence k persistent then s
  else (also.foldl (fun s x => s.fenceOne x persistent cause (fenceUid k)) (s.fenceOne k persistent cause 0)).settleBarriers

def State.fenceUnit (s : State) (k : FenceKind) (persistent : Bool) (cause : BitVec 16) : State :=
  s.fenceWith k persistent cause []

/-- Lifts a unit's transient fence (R568). -/
def State.liftFence (s : State) (u : BitVec 16) : State :=
  if s.health.fences.any (fun f => decide (f.unit = u) && !f.persistent) then
    (s.modHealth (fun h => { h with fences := h.fences.filter (fun f => decide (f.unit ≠ u) || f.persistent) })).capacityChange
      u 0
  else s

/-! ### The capacity descriptor (R574 to R576) -/

/-- The sum of bits whose test holds. -/
def maskOf (n : Nat) (p : Nat → Bool) : Nat := ((List.range n).map (fun i => b2n (p i) * 2 ^ i)).sum

/-- The values of 0x6001 that a port lives under: those its own FAB bed took, or the latest while that bed is off (R464). -/
def State.portFab (s : State) (p : Nat) : Nat × Nat × Nat × Nat :=
  if s.bedOn (bedPort p) then s.ports[fin16 p].fab else s.fabInForce

/-- A port in use under the shape in force (R437). -/
def State.portInUse (s : State) (p : Nat) : Bool :=
  roleInUse (s.portFab p).2.1 (decide ((s.portFab p).2.2.1 = 1)) (p % 8)

/-- Live stacks. -/
def State.liveStacks (s : State) : List (Fin 12) := (List.finRange 12).filter (fun k => !s.stackFenced k)

def State.capWord2 (s : State) (full : Bool) : Nat :=
  let live := fun u => full || !s.fenced u
  maskOf 32 (fun g => live (uidCluster g 0)) + maskOf 4 (fun d => live (uidDie d 8)) * 2 ^ 32 +
  maskOf 4 (fun d => live (uidDie d 4)) * 2 ^ 36 + maskOf 8 (fun e => live (edgeUid e)) * 2 ^ 40 +
  maskOf 2 (fun i => live (uidLink i 0x11)) * 2 ^ 48 +
  maskOf 8 (fun i =>
    let p := s.hosts[fin2 (i / 4)]
    decide (i % 4 < subPortCount p.breakout) && (full || p.subs[fin4 i].link)) * 2 ^ 50

def State.capWord3 (s : State) (full : Bool) : Nat :=
  let live := if full then List.finRange 12 else s.liveStacks
  maskOf 12 (fun k => full || !s.stackFenced (fin12 k)) + 64 * live.length * 2 ^ 16 +
  satAt 65535 ((live.map (fun k => (s.hbm[k]).retired.length)).sum) * 2 ^ 32

def State.capWord4 (s : State) (full : Bool) : Nat :=
  ((List.range 16).map (fun p =>
    (if s.portInUse p then (if full then 8 else s.ports[fin16 p].width % 16) else 15) * 16 ^ p)).sum

/-- REPLACE_REASONS (R576). -/
def FenceEntry.reason (f : FenceEntry) : Nat :=
  match fenceNamed f.unit with
  | some (.edge _) => 2 ^ 4
  | some k =>
    if !f.persistent then 0 else match k with
      | .cluster _ => 2 ^ 0
      | .die _ => 2 ^ 1
      | .update _ => 2 ^ 1
      | .stack _ => 2 ^ 2
      | .edge _ => 2 ^ 4
      | .host _ => 2 ^ 5
      | .ingest _ => 2 ^ 5
  | none => 0

/-- A fabric port that had been UP is below width 8 by a cause of the device's own, until it reaches UP at width 8; or its bed failed
power-good (R576). -/
def State.portsDegraded (s : State) : Bool :=
  s.ports.toList.any (·.narrow) ||
  (List.finRange 62).any (fun b => decide (52 ≤ b.val ∧ b.val ≤ 59) && s.beds[b].barred)

def State.replaceReasons (s : State) : Nat :=
  s.health.fences.foldl (fun r f => r ||| f.reason) 0 ||| b2n s.portsDegraded * 2 ^ 3

/-- The eight words of a descriptor; `full` gives the full-capacity one, in which every unit is live (R574). -/
def State.capWords (s : State) (full : Bool) (seq reasons : Nat) (unit cause : BitVec 16) : Vector Word 8 :=
  #v[BitVec.ofNat 64 (0x14350 + seq * 2 ^ 32), if full then 0 else s.aon.rtc, BitVec.ofNat 64 (s.capWord2 full),
     BitVec.ofNat 64 (s.capWord3 full), BitVec.ofNat 64 (s.capWord4 full),
     BitVec.ofNat 64 (unit.toNat + cause.toNat * 65536), BitVec.ofNat 64 reasons, 0]

/-- OD 0x3002:02 as it reads: before the first publication, the full-capacity descriptor. -/
def State.capacityNow (s : State) : Vector Word 8 :=
  if s.health.published then s.health.capacity else s.capWords true 0 0 0 0

/-- CAPACITY_PUBLISH (R575, R570 steps 5 and 6): after a change, one publication covers every change so far and ends the
fences in progress; with none, the publication of R600 step 8, SEQ 0. -/
def execCapacityPublish (s : State) : Out :=
  match s.health.capCause with
  | some (u, cause) =>
    let seq := (s.health.capVersion.toNat + 1) % 2 ^ 32
    let r := s.replaceReasons
    let w := s.capWords false seq r u cause
    let s := s.modHealth (fun h =>
      { h with capacity := w, capVersion := BitVec.ofNat 32 seq, published := true, capCause := none,
               replaceReasons := BitVec.ofNat 8 r, fenceBusy := [] })
    .next (((s.closeRecovery .fence).raiseD uidAgent 0x0D02 seq r 0).settleBarriers)
  | none =>
    if s.health.published ∨ s.rot.stage < 6 then .next s
    else
      let r := s.replaceReasons
      let w := s.capWords false 0 r 0 0
      .next (s.modHealth (fun h => { h with capacity := w, published := true, replaceReasons := BitVec.ofNat 8 r }))

/-! ### Commands (R569 to R572) -/

/-- A watchdog's fence is transient, and so is the stack's that a fenced requester brings; every other cause of R569 is
persistent. -/
def causePersistent (cause : BitVec 16) : Bool := decide (cause ≠ 0x0703)

/-- The causes for which R569 fences a unit: uncorrectable SRAM 0x0804, a bed's power-good 0x0B07, a watchdog 0x0703, a stack's training
0x0801 and retirement 0x0803, and 0 for a request or an edge's retries. -/
def fenceCause (k : FenceKind) (cause : BitVec 16) : Bool :=
  decide (cause = 0) || match k with
    | .cluster _ => decide (cause = 0x0804 ∨ cause = 0x0B07 ∨ cause = 0x0703)
    | .die _ => decide (cause = 0x0804 ∨ cause = 0x0B07)
    | .stack _ => decide (cause = 0x0801 ∨ cause = 0x0803 ∨ cause = 0x0703 ∨ cause = 0x0B07)
    | .edge _ => false
    | .update _ => decide (cause = 0x0804 ∨ cause = 0x0703)
    | .host _ => decide (cause = 0x0703 ∨ cause = 0x0B07)
    | .ingest _ => decide (cause = 0x0703 ∨ cause = 0x0B07)

/-- The event of an uncorrectable SRAM error (R560, R569). Where in a cluster it lies is free; what a die or an update unit holds is a
buffer or a queue and has no address. -/
def State.sramEvent (s : State) (k : FenceKind) : State :=
  match k with
  | .cluster g =>
    let a := s.freshWord
    let b := a.2.freshWord
    b.2.raiseC g (fenceUid k) 0x0804 (a.1.toNat % 2 ^ 48) (if a.1.toNat % 2 ^ 48 = 0 then 4 else b.1.toNat % 4) 0
  | _ => s.raiseD (fenceUid k) 0x0804 0 4 0

/-- FENCE (R569, R570): a unit's own check finds a cause of R569. An uncorrectable SRAM error raises its event first. -/
def execFence (unit : BitVec 16) (cause : BitVec 16) (s : State) : Out :=
  match (fenceNamed unit).filter (fun k => fenceCause k cause) with
  | none => .next s
  | some k => .next ((if cause = 0x0804 then s.sramEvent k else s).fenceUnit k (causePersistent cause) cause)

/-- A persistent fence that FENCE_CLEAR can lift. -/
def State.clearable (s : State) (k : FenceKind) : Bool :=
  s.health.fences.any (fun f => decide (f.unit = fenceUid k) && f.persistent)

/-- Lifts a persistent fence and every fence that names the unit in BY (R572). -/
def State.fenceClear (s : State) (k : FenceKind) : State :=
  let u := fenceUid k
  let gone := (s.health.fences.filter (fun f => decide (f.unit = u))) ++
    s.health.fences.filter (fun f => decide (f.unit ≠ u ∧ f.by_ = u))
  let s := s.modHealth (fun h => { h with fences := h.fences.filter (fun f => decide (f.unit ≠ u ∧ f.by_ ≠ u)) })
  let s := gone.foldl (fun s f => match fenceNamed f.unit with
    | some x => s.fenceEvent x 0x0D03 false 0 0
    | none => s) s
  s.capacityChange u 0x0D03

/-- PERSISTENT_FENCE_WRITE (R568): the first persistent fence not yet on the flash is written there. -/
def execPersistentFenceWrite (s : State) : Out :=
  .next (s.modHealth (fun h =>
    { h with fences := modFirst (fun f => f.persistent && !f.flashed) (fun f => { f with flashed := true }) h.fences }))

/-- EDGE_LINK_RETRY (R569, R112): a retry opens recovery; the retry limit reached the third time within 1 s fences the
edge. -/
def execEdgeLinkRetry (edge : EdgeId) (limitHit : Bool) (s : State) : Out :=
  let s := s.openRecovery .retry
  if limitHit then
    let recent := s.health.edgeRetries.filter (fun x => decide (x.1 = edge.val ∧ (s.aon.rtc - x.2).toNat < 25000000))
    let s := s.modHealth (fun h =>
      { h with edgeRetries := h.edgeRetries.filter (fun x => decide (x.1 ≠ edge.val)) ++ recent ++ [(edge.val, s.aon.rtc)] })
    .next (if 2 ≤ recent.length then s.fenceUnit (.edge edge) true 0 else s)
  else .next s

end Sys2Proof.Machine
end

