-- ==== Sys2Proof/Machine/Host.lean ====
section
/-! DEFINITION. Host.lean: the host ports: frames, PFC, MACsec associations and RoCEv2 (R465 to R477, R492, R538). -/

namespace Sys2Proof

/-- The requests of R471 by kind. -/
def RoceReq.isRead : RoceReq → Bool
  | .read _ _ _ => true
  | _ => false

def RoceReq.isSend : RoceReq → Bool
  | .sendFirst _ => true
  | .sendMiddle _ => true
  | .sendLast _ => true
  | .sendOnly _ => true
  | _ => false

def RoceReq.isWrite : RoceReq → Bool
  | .writeFirst _ _ _ _ => true
  | .writeMiddle _ => true
  | .writeLast _ => true
  | .writeOnly _ _ _ _ => true
  | _ => false

/-- A sub-port's link after a change. -/
def SubLink.isUp : SubLink → Bool
  | .down => false
  | .up _ _ => true

end Sys2Proof

namespace Sys2Proof.Machine

/-! ### Ports, sub-ports and queue pairs -/

def State.hostLive (s : State) (h : Fin 2) : Bool := s.bedOn (bedHost h.val) && !s.fenced (uidLink h.val 0x10)

def State.ingestLive (s : State) (i : Fin 2) : Bool := s.bedOn (bedIngest i.val) && !s.fenced (uidLink i.val 0x11)

/-- A sub-port that exists under the breakout in force. -/
def State.subExists (s : State) (h : Fin 2) (i : Fin 4) : Bool := decide (i.val < subPortCount s.hosts[h].breakout)

/-- The entry of a queue pair. -/
def State.qpOf (s : State) (h : Fin 2) (qpn : Nat) : Option (Nat × QueuePair) :=
  s.hosts[h].qps.find? (fun x => decide (x.2.cfg.qpn = qpn))

def State.setQp (s : State) (h : Fin 2) (i : Nat) (q : QueuePair) : State :=
  s.modHost h (fun p => { p with qps := tabSet p.qps i q })

/-- The SCI of a sub-port's transmit channel: its MAC address and port identifier 0x0001 (R469). -/
def SubPort.sci (x : SubPort) : Word := x.mac ++ (1 : BitVec 16)

/-- Sends a RoCEv2 message of n frames on a queue pair, at the priority of its requests (log entry 21). -/
def State.reply (s : State) (h : Fin 2) (q : QueuePair) (m : Sent) (n : Nat) : State :=
  s.sendFrame { host := h, sub := q.cfg.sub, prio := q.prio, msg := m, frames := n }

/-- Cells of channel 8 are free again (R459, R468). -/
def State.hostGive (s : State) (h : Fin 2) (n : Nat) : State := (s.modPool h (fun p => poolGive p 8 n)).syncPause h

/-- Discards the requests of a queue pair that wait. -/
def State.dropWaits (s : State) (h : Fin 2) (qpn : Nat) : State := s.dropRequests h (fun w => decide (w.qpn = qpn))

/-- NAK codes of the InfiniBand transport (log entry 21). -/
def nakSequence : Nat := 0x60
def nakInvalid : Nat := 0x61
def nakAccess : Nat := 0x62
def nakOperation : Nat := 0x63
def nakRnr : Nat := 0x20

/-- A NAK that puts the queue pair into the error state (R471, R474, R475). -/
def State.nakError (s : State) (h : Fin 2) (i : Nat) (q : QueuePair) (psn syndrome : Nat) : State :=
  ((s.setQp h i { q with error := true, sendOpen := false, sendBuf := [], writeAt := none, writeTail := [] }).dropWaits h q.cfg.qpn).reply h q
    (.roceNak h.val q.cfg.peerQpn psn syndrome) 1

/-- A request refused as it comes: the queue pair is in error and takes no later one, while those before it are still served (R475). -/
def State.nakRefuse (s : State) (h : Fin 2) (i : Nat) (q : QueuePair) (psn syndrome : Nat) : State :=
  (s.setQp h i { q with error := true }).reply h q (.roceNak h.val q.cfg.peerQpn psn syndrome) 1

def State.ackQp (s : State) (h : Fin 2) (q : QueuePair) (psn : Nat) : State := s.reply h q (.roceAck h.val q.cfg.peerQpn psn) 1

/-! ### FRAME_RECEIVE (R467 to R471, R475) -/

/-- The priority of a frame (R467). -/
def framePrio (f : Frame) : Nat :=
  match f.pcp, f.dscp with
  | some p, _ => p.val
  | none, some d => d.val / 8
  | none, none => 0

/-- The newest association, and those that a sub-port receives: it and the one before it (R538). -/
def SubPort.newest (x : SubPort) : Nat := x.newAn.getD x.txAn
def SubPort.receives (x : SubPort) (an : Nat) : Bool := x.keyed && (decide (an = x.newest) || decide (x.oldAn = some an))

/-- The keys that a sub-port still needs: of the associations that it receives, and of the one that it sends under. -/
def SubPort.tidy (x : SubPort) : SubPort :=
  { x with keys := x.keys.filter (fun k => x.receives k.1 || decide (k.1 = x.txAn)) }

/-- The sub-port sends under its newest association from now on (R538). -/
def SubPort.switch (x : SubPort) : SubPort :=
  match x.newAn with
  | some a => { x with txAn := a, newAn := none }.tidy
  | none => x

/-- MACsec on reception (R469, R470, R537): the sub-port after a protected frame that passes, `none` where it fails. The ICV is computed
over the frame, under the peer's SSCI. -/
def macsecIn (window : Nat) (an : Fin 4) (pn : Nat) (clear secured icv : List Byte) (x : SubPort) : Option SubPort :=
  let high := tabGet x.rxPn 0 an.val
  match tabFind x.keys an.val with
  | none => none
  | some k =>
    if x.receives an.val ∧ high < pn + window ∧ (gcmOpen k.1 (macsecIv ssciPeer pn k.2) clear secured icv).isSome then
      let y := { x with rxPn := tabSet x.rxPn an.val (max high pn) }
      some (if x.newAn = some an.val then y.switch else y)
    else none

/-- The frame's sub-port after its MACsec checks; `none` where the frame is discarded. -/
def State.macsecCheck (s : State) (h : Fin 2) (f : Frame) : Option SubPort :=
  let x := s.hosts[h].subs[f.sub]
  match f.macsec with
  | .bare => if s.objNum 0x6030 5 = 1 then none else some x
  | .protect an pn clear secured icv => macsecIn (s.objNum 0x6030 6) an pn clear secured icv x

/-- The PSNs that a request takes. -/
def psnCount (mtu : Nat) : RoceReq → Nat
  | .read _ _ n => max 1 (cdiv n (max 1 mtu))
  | _ => 1

/-- A request whose payload fits its place in a message (log entry 21). -/
def roceShapeOk (mtu : Nat) : RoceReq → Bool
  | .sendFirst b => decide (b.length = mtu)
  | .sendMiddle b => decide (b.length = mtu)
  | .sendLast b => decide (b.length ≤ mtu)
  | .sendOnly b => decide (b.length ≤ mtu)
  | .writeFirst _ _ _ b => decide (b.length = mtu)
  | .writeMiddle b => decide (b.length = mtu)
  | .writeLast b => decide (b.length ≤ mtu)
  | .writeOnly _ _ n b => decide (b.length ≤ mtu ∧ b.length = n)
  | _ => true

/-- CNP for a marked packet, at most one per queue pair in 50 µs (R471). -/
def State.congested (s : State) (h : Fin 2) (i : Nat) (q : QueuePair) (ce : Bool) : State × QueuePair :=
  if ce ∧ q.cnpRtc.all (fun t => decide (1250 ≤ (s.aon.rtc - t).toNat)) then
    let q := { q with cnpRtc := some s.aon.rtc }
    (((s.setQp h i q).reply h q (.roceCnp h.val q.cfg.peerQpn) 1), q)
  else (s, q)

/-- A RoCEv2 request for a queue pair in order is taken, and waits to be served. -/
def State.takeRequest (s : State) (h : Fin 2) (i : Nat) (q : QueuePair) (psn : Nat) (req : RoceReq) (cells : Nat) : State :=
  let reads := (s.hosts[h].accepted.filter (fun w => decide (w.qpn = q.cfg.qpn) && w.req.isRead)).length
  if req = .other ∨ !roceShapeOk q.cfg.mtu req ∨ (req.isRead ∧ 16 ≤ reads) then s.nakRefuse h i q psn nakInvalid
  else
    let n := if q.cfg.ingest then 0 else cells
    let s := s.setQp h i { q with expectPsn := (psn + psnCount q.cfg.mtu req) % 2 ^ 24 }
    let s := s.modHost h (fun p => { p with accepted := p.accepted ++ [{ qpn := q.cfg.qpn, psn := psn, req := req, cells := n }] })
    (s.modPool h (fun p => poolTake p 8 n)).syncPause h

/-- A READ request that has been answered before is answered again (R471, log entry 21). -/
def State.takeAgain (s : State) (h : Fin 2) (q : QueuePair) (psn : Nat) (req : RoceReq) (cells : Nat) : State :=
  let reads := (s.hosts[h].accepted.filter (fun w => decide (w.qpn = q.cfg.qpn) && w.req.isRead)).length
  let n := if q.cfg.ingest then 0 else cells
  if 16 ≤ reads then s
  else
    let s := s.modHost h (fun p => { p with accepted := p.accepted ++ [{ qpn := q.cfg.qpn, psn := psn, req := req, cells := n }] })
    (s.modPool h (fun p => poolTake p 8 n)).syncPause h

/-- A frame that the port accepts is counted (R492). -/
def State.countFrame (s : State) (h : Fin 2) : State := s.modHost h (fun p => { p with framesRx := wrap64 p.framesRx 1 })

/-- A RoCEv2 packet that passed the port's checks. One whose ICRC fails, or that does not come from its queue pair's peer, is
discarded (R471, R472). -/
def State.roceIn (s : State) (h : Fin 2) (f : Frame) (prio src : Nat) (icrcOk : Bool) (qpn psn : Nat) (req : RoceReq) : State :=
  if !icrcOk then s
  else match s.qpOf h qpn with
  | none => s
  | some (i, q) =>
    if q.cfg.ingest ≠ decide (prio = s.hosts[h].ingestPrio) then
      s.modHost h (fun p => { p with prioDrops := wrap64 p.prioDrops 1 })
    else if q.cfg.sub ≠ f.sub.val ∨ q.cfg.peerIp ≠ src ∨ q.error ∨ (q.cfg.ingest ∧ (!s.ingestLive h ∨ s.ingests[h].cfg.isNone)) then s
    else if req = .cnp then s.countFrame h
    else
      let (s, q) := (s.countFrame h).congested h i { q with prio := prio } f.ce
      let d := (psn + 2 ^ 24 - q.expectPsn) % 2 ^ 24
      if d = 0 then s.takeRequest h i q psn req (cdiv f.bytes 256)
      else if 2 ^ 23 ≤ d ∧ req.isRead then s.takeAgain h q psn req (cdiv f.bytes 256)
      else if 2 ^ 23 ≤ d then s.ackQp h q ((q.expectPsn + 2 ^ 24 - 1) % 2 ^ 24)
      else s.reply h q (.roceNak h.val q.cfg.peerQpn q.expectPsn nakSequence) 1

/-- The longest frame, with its SecTAG of 16 bytes and its ICV of 16 under MACsec (R465, log entry 21). -/
def frameLimit : MacsecTag → Nat
  | .bare => 9216
  | .protect _ _ _ _ _ => 9248

/-- The FIFO that a frame of a priority enters (R467). -/
def State.frameFifo (s : State) (h : Fin 2) (prio : Nat) : FifoId :=
  { kind := if prio = s.hosts[h].ingestPrio then .ingestRx else .hostRx, idx := h.val }

/-- That FIFO with the frame in it; a FIFO held in reset takes none (R73). -/
def State.frameStored (s : State) (h : Fin 2) (prio : Nat) (f : Frame) : Option Fifo :=
  let id := s.frameFifo h prio
  if s.fifoWorks id then
    fifoPacket id.kind ((List.range (max 1 (cdiv f.bytes 64))).map (Config.frameItem f)) (s.fifo id)
  else some (s.fifo id)

/-- A frame that its port cannot store: in its FIFO, or in the pool as channel 8 (R460, R468). -/
def State.cannotStore (s : State) (h : Fin 2) (prio : Nat) (f : Frame) : Bool :=
  (s.frameStored h prio f).isNone ||
    (decide (prio ≠ s.hosts[h].ingestPrio) && !poolCanTake s.pools[h] 8 (cdiv f.bytes 256))

/-- A frame of a priority that may be discarded (R468). -/
def State.mayDrop (s : State) (h : Fin 2) (prio : Nat) : Bool :=
  decide (prio ≠ s.hosts[h].ingestPrio) && !bitOf (s.objNum 0x6030 4) prio

/-- A frame enters its FIFO, and, unless it is of the ingest priority, passes through the pool (R467). -/
def State.enterFrame (s : State) (h : Fin 2) (prio : Nat) (f : Frame) : State :=
  let n := cdiv f.bytes 256
  let s := match s.frameStored h prio f with
    | some x => if s.fifoWorks (s.frameFifo h prio) then s.putFifo (s.frameFifo h prio) x else s
    | none => s
  if prio = s.hosts[h].ingestPrio then s else s.modPool h (fun p => poolGive (poolTake p 8 n) 8 n)

/-- A Breop datagram at a sub-port (R497): for the agent's port at the sub-port's own address. -/
def State.inBandIn (s : State) (h : Fin 2) (f : Frame) (src dst : Source) (bytes : List Byte) : State :=
  if dst ≠ { addr := Config.subPortIp h.val f.sub.val, port := s.breopPort } then s
  else if s.objNum 0x1020 1 = 0 then s.modHost h (fun p => { p with prioDrops := wrap64 p.prioDrops 1 })
  else if !s.agentUp then s
  else if s.mgmtFull then s.dropFrame
  else (s.countFrame h).admitMessage src dst (some { host := h, sub := f.sub, prio := fin8 (framePrio f) }) bytes

/-- FRAME_RECEIVE (R465, R467, R470). A frame that cannot be stored and may not be discarded is not taken: its sender is paused
(log entry 21). -/
def execFrameReceive (host : Fin 2) (frame : Frame) (s : State) : Out :=
  if !s.hostLive host ∨ !s.subExists host frame.sub ∨ !s.hosts[host].subs[frame.sub].link ∨
      frameLimit frame.macsec < frame.bytes then .next s
  else if !frame.fcsOk then .next (s.modHost host (fun p => { p with fcsErrors := wrap64 p.fcsErrors 1 }))
  else
    match s.macsecCheck host frame with
    | none => .next (s.modHost host (fun p => { p with macsecDrops := wrap64 p.macsecDrops 1 }))
    | some x =>
      let prio := framePrio frame
      if s.cannotStore host prio frame then
        .next (if s.mayDrop host prio then s.modHost host (fun p => { p with prioDrops := wrap64 p.prioDrops 1 }) else s)
      else
        let s := (s.enterFrame host prio frame).modSub host frame.sub (fun _ => x)
        match frame.body with
        | .roce src icrcOk qpn psn req => .next (s.roceIn host frame prio src icrcOk qpn psn req)
        | .breop src dst bytes => .next (s.inBandIn host frame src dst bytes)
        | .fragment => .next s
        | .other => .next s

/-! ### PFC (R468) -/

/-- PFC_FRAME (R468): pauses or resumes a priority; what it held back goes out. -/
def execPfcFrame (host : Fin 2) (sub : Fin 4) (prio : Fin 8) (time : BitVec 16) (s : State) : Out :=
  if s.hostLive host ∧ s.subExists host sub ∧ s.hosts[host].subs[sub].link then
    let s := s.modHost host (fun p => { p with pfcRx := wrap64 p.pfcRx 1 })
    .next (s.modSub host sub (fun x =>
      { x with paused := if time = 0 then tabDel x.paused prio.val else tabSet x.paused prio.val time.toNat })).flushHost
  else .next s

/-- PFC_PAUSE_EXPIRY (R468): a pause time runs out. -/
def execPfcPauseExpiry (host : Fin 2) (sub : Fin 4) (prio : Fin 8) (s : State) : Out :=
  .next (s.modSub host sub (fun x => { x with paused := tabDel x.paused prio.val })).flushHost

/-! ### Serving requests (R473, R474, R476, R477) -/

/-- The first request that a test accepts and that is the oldest of its queue pair. -/
def pickWait (ok : RoceReq → Bool) : List RoceWait → List RoceWait → Option RoceWait
  | _, [] => none
  | before, w :: rest =>
    if ok w.req ∧ !before.any (fun x => decide (x.qpn = w.qpn)) then some w else pickWait ok (before ++ [w]) rest

/-- Takes the next request of a kind out of the pool, with its queue pair. -/
def State.nextWait (s : State) (h : Fin 2) (ok : RoceReq → Bool) : Option (RoceWait × Nat × QueuePair × State) :=
  match pickWait ok [] s.hosts[h].accepted with
  | none => none
  | some w =>
    (s.qpOf h w.qpn).map (fun x =>
      (w, x.1, x.2, (s.modHost h (fun p => { p with accepted := delFirst (fun y => decide (y = w)) p.accepted })).hostGive h
        w.cells))

/-- A region of a port's table. -/
def State.regionAt (s : State) (h : Fin 2) (i : Nat) : Option Region := tabFind s.hosts[h].regions i

/-- The address that a remote key, an address and a length name; `none` where R474 refuses them. -/
def State.remotePlace (s : State) (h : Fin 2) (q : QueuePair) (write : Bool) (rkey va n : Nat) : Option Nat :=
  (s.regionAt h (rkey % 256)).bind (fun r =>
    if r.keytag = rkey / 256 ∧ va + n ≤ r.length ∧ (if write then r.remoteWrite else r.remoteRead) ∧
       (r.kind = .ingest → q.cfg.ingest ∨ !write) ∧ (r.kind = .general → !q.cfg.ingest ∨ !write) then some (r.base + va) else none)

/-- A remote access error: no byte moves, and the event names port, queue pair, key and address (R474, R560). -/
def State.refuseAccess (s : State) (h : Fin 2) (i : Nat) (q : QueuePair) (psn rkey va : Nat) : State :=
  ((s.nakError h i q psn nakAccess).modHost h (fun p => { p with accessNaks := wrap64 p.accessNaks 1 })).raiseD
    (uidLink h.val 0x10) 0x0205 va rkey (q.cfg.qpn % 2 ^ 24 + q.cfg.sub % 8 * 2 ^ 24 + h.val * 2 ^ 27)

/-- Slots of a queue pair's RECV region. -/
def State.recvSlots (s : State) (h : Fin 2) (q : QueuePair) : Nat :=
  match s.regionAt h q.cfg.region with
  | some r => r.length / max 1 q.cfg.slotBytes
  | none => 0

/-- A whole SEND fills the next slot: payload first, then LENGTH and VALID (R476). -/
def State.fillSlot (s : State) (h : Fin 2) (q : QueuePair) (bytes : List Byte) : Except Fail State :=
  let base := ((s.regionAt h q.cfg.region).map (·.base)).getD 0
  let a := base + q.slot * q.cfg.slotBytes
  match s.writeChecked (.onDie (4 + h.val) (.req 6)) (a + 8) bytes with
  | .error f => .error f
  | .ok s => s.writeChecked (.onDie (4 + h.val) (.req 6)) a (leBytes 8 (bytes.length % 2 ^ 32 + 2 ^ 32))

/-- An access of a queue pair that R33 or R34 keeps from memory, or that meets an uncorrectable unit: a NAK, and the event. -/
def State.rdmaFails (s : State) (h : Fin 2) (i : Nat) (q : QueuePair) (psn : Nat) (f : Fail) : State :=
  ((s.countUe f).nakError h i q psn nakOperation).raiseD (uidLink h.val 0x10) f.code f.arg0 f.arg1 0

/-- A SEND that finds no free slot: the queue pair expects it again (R476). -/
def State.notReady (s : State) (h : Fin 2) (i : Nat) (q : QueuePair) (psn : Nat) : State :=
  (((s.setQp h i { q with expectPsn := psn }).dropWaits h q.cfg.qpn).modHost h (fun p =>
    { p with rnrNaks := wrap64 p.rnrNaks 1 })).reply h q (.roceNak h.val q.cfg.peerQpn psn nakRnr) 1

/-- One packet of a SEND: whether it begins and whether it ends its message, and its payload. -/
def sendParts : RoceReq → Option (Bool × Bool × List Byte)
  | .sendFirst b => some (true, false, b)
  | .sendMiddle b => some (false, false, b)
  | .sendLast b => some (false, true, b)
  | .sendOnly b => some (true, true, b)
  | _ => none

/-- A SEND packet in its place: a notice for an ingest engine, or a slot of a RECV region. -/
def State.sendIn (s : State) (h : Fin 2) (i : Nat) (q : QueuePair) (psn : Nat) (ends : Bool) (bytes : List Byte) : State :=
  let q' : QueuePair := if ends then { q with sendBuf := [], sendOpen := false } else { q with sendBuf := bytes, sendOpen := true }
  if q.cfg.ingest then
    let s := (s.setQp h i q').ackQp h q psn
    if ends then s.modIngest h (fun x => { x with noticeBytes := x.noticeBytes ++ [(q.cfg.region, bytes)] }) else s
  else if q.cfg.slotBytes < bytes.length + 8 then s.nakError h i q psn nakInvalid
  else if ends then
    match s.fillSlot h q bytes with
    | .error f => s.rdmaFails h i q psn f
    | .ok s => (s.setQp h i { q' with filled := q'.filled + 1, slot := (q.slot + 1) % max 1 (s.recvSlots h q) }).ackQp h q psn
  else (s.setQp h i q').ackQp h q psn

/-- SEND (R476, R477, R478). -/
def execSend (host : Fin 2) (s : State) : Out :=
  match s.nextWait host RoceReq.isSend with
  | none => .next s
  | some (w, i, q, s) =>
    match sendParts w.req with
    | none => .next s
    | some (begins, ends, b) =>
      if begins = q.sendOpen then .next (s.nakError host i q w.psn nakInvalid)
      else if begins ∧ !q.cfg.ingest ∧ s.recvSlots host q ≤ (q.filled - q.consumed).toNat then
        .next (s.notReady host i q w.psn)
      else .next (s.sendIn host i q w.psn ends (q.sendBuf ++ b))

/-- Bytes of a WRITE go to memory from address a on, those kept from the packet before first; `left` bytes of its message
remain. A word that the packet only begins is kept, and written whole with the next one (R477). -/
def State.writeIn (s : State) (h : Fin 2) (i : Nat) (q : QueuePair) (psn a left : Nat) (b : List Byte) : State :=
  let bs := q.writeTail ++ b
  let n := bs.length - (if left = 0 then 0 else min bs.length ((a + bs.length) % 8))
  match s.writeChecked (.onDie (4 + h.val) (.req 6)) a (bs.take n) with
  | .error f => s.rdmaFails h i q psn f
  | .ok s =>
    (s.setQp h i { q with writeAt := if left = 0 then none else some (a + n, left), writeTail := bs.drop n }).ackQp h q psn

/-- The first packet of a WRITE. -/
def State.writeStart (s : State) (h : Fin 2) (i : Nat) (q : QueuePair) (psn rkey va n : Nat) (b : List Byte) : State :=
  if q.writeAt.isSome ∨ 2 ^ 31 < n ∨ n < b.length then s.nakError h i q psn nakInvalid
  else match s.remotePlace h q true rkey va n with
    | none => s.refuseAccess h i q psn rkey va
    | some a => s.writeIn h i q psn a (n - b.length) b

/-- RDMA_WRITE (R471, R474, R477). -/
def execRdmaWrite (host : Fin 2) (s : State) : Out :=
  match s.nextWait host RoceReq.isWrite with
  | none => .next s
  | some (w, i, q, s) =>
    match w.req, q.writeAt with
    | .writeFirst k va n b, _ => .next (s.writeStart host i q w.psn k va n b)
    | .writeOnly k va n b, _ => .next (s.writeStart host i q w.psn k va n b)
    | .writeMiddle b, some (a, left) =>
      if b.length < left then .next (s.writeIn host i q w.psn a (left - b.length) b)
      else .next (s.nakError host i q w.psn nakInvalid)
    | .writeLast b, some (a, left) =>
      if b.length = left then .next (s.writeIn host i q w.psn a 0 b) else .next (s.nakError host i q w.psn nakInvalid)
    | _, _ => .next (s.nakError host i q w.psn nakInvalid)

/-- RDMA_READ (R471, R474). -/
def execRdmaRead (host : Fin 2) (s : State) : Out :=
  match s.nextWait host RoceReq.isRead with
  | none => .next s
  | some (w, i, q, s) =>
    match w.req with
    | .read k va n =>
      if 2 ^ 31 < n then .next (s.nakError host i q w.psn nakInvalid)
      else match s.remotePlace host q false k va n with
        | none => .next (s.refuseAccess host i q w.psn k va)
        | some a =>
          match s.readChecked (.onDie (4 + host.val) (.req 6)) a n with
          | .error f => .next (s.rdmaFails host i q w.psn f)
          | .ok bs => .next ((s.noteRead a n).reply host q (.roceRead host.val q.cfg.peerQpn w.psn bs) (psnCount q.cfg.mtu w.req))
    | _ => .next s

/-- The address of RECV_CONSUMED[q] (R492). -/
def recvConsumedAddr (h : Fin 2) (q : Nat) : Nat := linkUnitBase h.val 0x10 + 0x1000 + 8 * q

/-- A write of RECV_CONSUMED (R476, R492). -/
def State.recvWrite (s : State) (h : Fin 2) (q : Nat) (v : U32) : State :=
  let refuse := s.raiseD (uidLink h.val 0x10) 0x0102 (recvConsumedAddr h q) v.toNat 0
  match tabFind s.hosts[h].qps q with
  | none => refuse
  | some x =>
    if x.cfg.ingest ∨ (x.filled - x.consumed).toNat < (v - x.consumed).toNat then refuse
    else s.setQp h q { x with consumed := v }

/-- RECV_CONSUMED (R476, R492). -/
def execRecvConsumed (host : Fin 2) (q : Fin 256) (value : U32) (s : State) : Out :=
  if s.hostLive host then .next (s.recvWrite host q.val value) else .next s

/-! ### MACsec associations (R469, R537, R538) -/

/-- Installs a key under the next association number (R537); the first installation keys the sub-port. The association before it is
still received, one older than that no longer (R538). -/
def installSak (sak : BitVec 256) (salt : BitVec 96) (rtc : Word) (x : SubPort) : SubPort :=
  let an := if x.keyed then (x.newest + 1) % 4 else 0
  { x with keys := tabSet x.keys an (sak, salt), newAn := some an, oldAn := if x.keyed then some x.newest else none,
           installedRtc := rtc, rxPn := tabSet x.rxPn an 0, txPn := tabSet x.txPn an 0, keyed := true }.tidy

/-- 2 s have passed since a sub-port's last installation. -/
def SubPort.installedOver (rtc : Word) (x : SubPort) : Bool := decide (50000000 ≤ (rtc - x.installedRtc).toNat)

/-- ASSOCIATION_SWITCH (R538): 2 s after the installation, unless a frame has come under the new association before. -/
def execAssociationSwitch (host : Fin 2) (sub : Fin 4) (s : State) : Out :=
  if s.hostLive host ∧ s.hosts[host].subs[sub].installedOver s.aon.rtc then .next (s.modSub host sub SubPort.switch) else .next s

/-- OLD_ASSOCIATION_EXPIRY (R538): 2 s after an installation the old association is no longer received. -/
def execOldAssociationExpiry (host : Fin 2) (sub : Fin 4) (s : State) : Out :=
  if s.hosts[host].subs[sub].installedOver s.aon.rtc then
    .next (s.modSub host sub (fun x => { x with oldAn := none }.tidy))
  else .next s

/-- A packet number of 2^62 has been reached on one of the sub-port's associations (R469). -/
def SubPort.worn (x : SubPort) : Bool := x.keys.any (fun k => decide (2 ^ 62 ≤ tabGet x.txPn 0 k.1 ∨ 2 ^ 62 ≤ tabGet x.rxPn 0 k.1))

/-- MACSEC_REKEY (R469): at a packet number of 2^62 the association number rotates to the key that the key establishment
gives, a free value (log entry 22). -/
def execMacsecRekey (host : Fin 2) (sub : Fin 4) (s : State) : Out :=
  if s.hostLive host ∧ s.hosts[host].subs[sub].keyed ∧ s.hosts[host].subs[sub].worn ∧ !s.rot.halted then
    let (w, s) := s.freshEntropy
    .next (s.modSub host sub (installSak (w.setWidth 256) ((w >>> 256).setWidth 96) s.aon.rtc))
  else .next s

/-- The lane map of a host port is reported once per bring-up, when it finds a lane to invert or a reversed order (R564). -/
def State.hostLanes (s : State) (host : Fin 2) (link : SubLink) : State :=
  match link with
  | .down => s
  | .up inverted reversed =>
    if s.hosts[host].laneMapped ∨ (inverted = 0 ∧ !reversed) then s
    else (s.modHost host (fun p => { p with laneMapped := true })).raiseD (uidLink host.val 0x10) 0x0906 (0x10 + host.val)
      inverted.toNat (b2n reversed)

/-- SUB_PORT_LINK_CHANGE (R564, R566, R575): no sub-port comes up without its reference clock. A bring-up of the host port ends as the
last of its sub-ports goes down. -/
def execSubPortLinkChange (host : Fin 2) (sub : Fin 4) (up : SubLink) (s : State) : Out :=
  if s.bedOn (bedHost host.val) ∧ s.subExists host sub ∧ s.hosts[host].subs[sub].link ≠ up.isUp ∧
      !(up.isUp && s.hosts[host].unclocked) then
    let s := (s.hostLanes host up).modSub host sub (fun x => { x with link := up.isUp })
    let s := s.modHost host (fun p => { p with laneMapped := p.laneMapped && p.subs.toList.any (·.link) })
    .next (s.capacityChange (uidLink host.val 0x10) 0)
  else .next s

end Sys2Proof.Machine
end

