-- ==== Sys2Proof/Machine/Ingest.lean ====
section
/-! DEFINITION. Ingest.lean: the ingest engines: notices, decoding, the shuffle buffer and the output ring (R478 to
R493). -/

namespace Sys2Proof.Machine

/-! ### Notices (R478, R479) -/

/-- The byte offset of the first field of a notice that R478 does not allow. -/
def noticeBad (w : List Nat) : Option Nat :=
  let g (i : Nat) : Nat := w.getD i 0
  if bitsOf (g 0) 33 32 = 3 then some 4
  else if bitsOf (g 0) 63 35 ≠ 0 then some 4
  else if bitsOf (g 1) 63 48 ≠ 0 then some 14
  else if bitsOf (g 2) 31 0 = 0 then some 16
  else (([3, 4, 5, 6, 7] : List Nat).find? (fun i => decide (g i ≠ 0))).map (8 * ·)

/-- A notice of a queue pair whose INGEST region is `region`; one of another length than 64 bytes is a fault of its shard (R478). -/
def noticeOf (region : Nat) (bs : List Byte) : Notice :=
  let w := (wordsOf bs 8).map (·.toNat)
  let g (i : Nat) : Nat := w.getD i 0
  { seq := bitsOf (g 0) 31 0, codec := bitsOf (g 0) 33 32, endEpoch := bitOf (g 0) 34, offset := bitsOf (g 1) 47 0,
    length := bitsOf (g 2) 31 0, records := bitsOf (g 2) 63 32, region := region,
    bad := if bs.length = 64 then noticeBad w else some 0 }

/-- The shard-format event (R560). -/
def State.shardEvent (s : State) (i : Fin 2) (seq offset cause : Nat) : State :=
  s.raiseD (uidLink i.val 0x11) 0x0A01 seq offset cause

/-- The shard in turn is dealt with; an early notice whose turn has come then follows (R479). -/
def Ingest.nextShard (x : Ingest) : Ingest :=
  let x := { x with ready := x.ready.drop 1, nextSeq := x.nextSeq + 1 }
  match x.early.find? (fun n => decide (n.seq = x.nextSeq.toNat)) with
  | none => x
  | some n => { x with ready := x.ready ++ [n], early := x.early.filter (fun m => m ≠ n) }

/-- A notice waits in its turn, is held ahead of it, or is refused (R479). -/
def State.takeNotice (s : State) (i : Fin 2) (n : Notice) : State :=
  let x := s.ingests[i]
  if n.seq = x.nextSeq.toNat ∧ x.ready = [] then s.modIngest i (fun x => { x with ready := [n] })
  else if 2 ^ 31 ≤ (n.seq + 2 ^ 32 - x.nextSeq.toNat) % 2 ^ 32 ∨ (x.ready ++ x.early).any (fun m => decide (m.seq = n.seq)) then
    s.shardEvent i n.seq 0 3
  else if 64 ≤ x.early.length then s.shardEvent i n.seq 0 2
  else s.modIngest i (fun x => { x with early := x.early ++ [n] })

/-- SHARD_NOTICE (R478, R479): the oldest notice that a queue pair has delivered. -/
def execShardNotice (ing : Fin 2) (s : State) : Out :=
  match s.ingests[ing].noticeBytes with
  | [] => .next s
  | (region, bs) :: rest =>
    if s.ingestLive ing then
      .next ((s.modIngest ing (fun x => { x with noticeBytes := rest })).takeNotice ing (noticeOf region bs))
    else .next s

/-! ### Accesses of the engine -/

/-- Bytes that the engine writes; a write that fails is not made and raises its event (log entry 30). -/
def State.ingestWrite (s : State) (i : Fin 2) (who : Who) (a : Nat) (bs : List Byte) : State :=
  match s.writeChecked who a bs with
  | .ok s => s
  | .error f => s.raiseD (uidLink i.val 0x11) f.code f.arg0 f.arg1 0

/-- The status block (R480): words 1 to 3, then word 0. -/
def State.writeStatus (s : State) (i : Fin 2) : State :=
  let x := s.ingests[i]
  match x.cfg.bind (fun c => s.regionAt i c.statusRegion) with
  | none => s
  | some r =>
    let w1 := x.recordsAdmitted
    let w2 := BitVec.ofNat 64 (x.epoch.toNat + x.slots.length % 2 ^ 32 * 2 ^ 32)
    let w0 := BitVec.ofNat 64 (x.nextSeq.toNat + x.lastFault.toNat * 2 ^ 32)
    let s := s.ingestWrite i (.onDie (4 + i.val) (.req 6)) (r.base + 8) (wordBytes w1 ++ wordBytes w2 ++ wordBytes s.aon.rtc)
    s.ingestWrite i (.onDie (4 + i.val) (.req 6)) r.base (wordBytes w0)

/-! ### Decoding (R480 to R484) -/

/-- Treluc records, PAD included, or the byte offset and cause of the first fault (R483, R484). -/
def splitRecords (slot : Nat) : Nat → Nat → List Byte → Except (Nat × Nat) (List (List Byte))
  | 0, _, _ => .ok []
  | fuel + 1, off, bs =>
    if bs = [] then .ok []
    else if bs.length < 16 then .error (off, 7)
    else
      let w := leNat (bs.take 8)
      let n := bitsOf w 23 0
      if n < 16 ∨ n % 8 ≠ 0 ∨ bs.length < n ∨ 2 ^ slot < n ∨ 0x80 ≤ bitsOf w 31 24 ∨ bitsOf w 63 32 ≠ 0 then .error (off, 6)
      else match splitRecords slot fuel (off + n) (bs.drop n) with
        | .error e => .error e
        | .ok rs => .ok (bs.take n :: rs)

/-- A record that is not PAD. -/
def notPad (r : List Byte) : Bool := decide (r.getD 3 0 ≠ 0)

/-- The registered dictionaries (R481, R494). -/
def State.zstdDicts (s : State) : List (List Byte) := ([1, 2, 3, 4] : List Nat).map (s.objBytes 0x6031)

/-- The decoded stream of a shard, or where its codec fails. -/
def State.decodeShard (s : State) (codec : Nat) (bs : List Byte) : Except Nat (List Byte) :=
  match codec with
  | 1 => zstdDecode s.zstdDicts bs
  | 2 => lz4Decode bs
  | _ => .ok bs

/-- Where a shard begins in memory, if it lies in its queue pair's INGEST region; otherwise the byte offset at which it leaves it. -/
def State.shardPlace (s : State) (i : Fin 2) (n : Notice) : Except Nat Nat :=
  match s.regionAt i n.region with
  | none => .error 0
  | some r => if r.length < n.offset + n.length then .error (r.length - n.offset) else .ok (r.base + n.offset)

/-- A failed read of a shard raises its own event too (R33, R34, R237). -/
def State.shardUnread (s : State) (i : Fin 2) (f : Fail) : State := (s.countUe f).raiseD (uidLink i.val 0x11) f.code f.arg0 f.arg1 0

/-- A shard faults (R484). An END_EPOCH of it still ends the epoch. -/
def State.shardFault (s : State) (i : Fin 2) (n : Notice) (offset cause : Nat) : State :=
  let s := s.modIngest i (fun x =>
    { x.nextShard with
      lastFault := BitVec.ofNat 32 n.seq, shardsFaulted := wrap64 x.shardsFaulted 1,
      decoded := if n.endEpoch then x.decoded ++ [({ n with bad := some 0 }, [])] else x.decoded })
  (s.shardEvent i n.seq offset cause).writeStatus i

/-- The records of a shard that lie in a staging half now. -/
def State.shardDone (s : State) (i : Fin 2) (n : Notice) (records : List (List Byte)) : State :=
  s.modIngest i (fun x =>
    { x.nextShard with decoded := x.decoded ++ [(n, records)] })

/-- A decoded stream, cut into records and checked (R483, R484). -/
def State.checkShard (s : State) (i : Fin 2) (c : IngestConfig) (n : Notice) (stream : List Byte) : State :=
  if c.stageBytes < stream.length then s.shardFault i n c.stageBytes 5
  else
    let s := s.modIngest i (fun x => { x with bytesDecoded := wrap64 x.bytesDecoded stream.length })
    match splitRecords c.slotLog2 (stream.length / 16 + 1) 0 stream with
    | .error (o, cause) => s.shardFault i n o cause
    | .ok rs =>
      let rs := rs.filter notPad
      if n.records ≠ 0 ∧ n.records ≠ rs.length then s.shardFault i n stream.length 8 else s.shardDone i n rs

/-- SHARD_DECODE (R480 to R484): the next shard in turn, into a free staging half. -/
def execShardDecode (ing : Fin 2) (s : State) : Out :=
  match s.ingests[ing].cfg, s.ingests[ing].ready with
  | some c, n :: _ =>
    if !s.ingestLive ing ∨ 2 ≤ s.ingests[ing].decoded.length then .next s
    else
      match n.bad with
      | some o => .next (s.shardFault ing n o 1)
      | none =>
        match s.shardPlace ing n with
        | .error o => .next (s.shardFault ing n o 9)
        | .ok a =>
          match s.readChecked (.onDie (4 + ing.val) (.req 6)) a n.length with
          | .error f => .next ((s.shardUnread ing f).shardFault ing n (f.arg0 - a) 9)
          | .ok bs =>
            let s := (s.noteRead a n.length).modIngest ing (fun x => { x with bytesIn := wrap64 x.bytesIn bs.length })
            match s.decodeShard n.codec bs with
            | .error o => .next (s.shardFault ing n o 4)
            | .ok stream => .next (s.checkShard ing c n stream)
  | _, _ => .next s

/-! ### The shuffle buffer (R486 to R488) -/

/-- Slots of the buffer. -/
def shuffleSlots (c : IngestConfig) : Nat := c.shuffleBytes / 2 ^ c.slotLog2

/-- The counter block of draw n (R487). -/
def ctrShuffle (unit epoch n : Nat) : Nat :=
  n / 4 % 2 ^ 48 + unit % 2 ^ 16 * 2 ^ 48 + 5 * 2 ^ 64 + epoch % 2 ^ 32 * 2 ^ 68

/-- Draw n of an epoch (R487). -/
def shuffleDraw (key : BitVec 128) (unit epoch n : Nat) : Nat := pepperWord key (ctrShuffle unit epoch n) (n % 4)

/-- The unit that an engine's draws carry. -/
def shuffleUnitOf (i : Fin 2) (c : IngestConfig) : Nat :=
  if c.shuffleUnit = 0 then (uidLink i.val 0x11).toNat else c.shuffleUnit

/-- One record enters (R488); with no slots it passes through (R486). -/
def admitOne (key : BitVec 128) (unit slots : Nat) (x : Ingest) (r : List Byte) : Ingest :=
  let x := { x with recordsAdmitted := wrap64 x.recordsAdmitted 1 }
  if slots = 0 then { x with emitQ := x.emitQ ++ [(r, false)] }
  else if x.slots.length < slots then { x with slots := x.slots ++ [r] }
  else
    let j := uniformBelow (shuffleDraw key unit x.epoch.toNat x.draws) slots
    { x with draws := x.draws + 1, emitQ := x.emitQ ++ [(x.slots.getD j [], false)], slots := listSet x.slots j r }

/-- The drain at the end of an epoch (R488). -/
def drainSlots (key : BitVec 128) (unit : Nat) : Nat → Ingest → Ingest
  | 0, x => x
  | fuel + 1, x =>
    let n := x.slots.length
    if n = 0 then x
    else
      let j := uniformBelow (shuffleDraw key unit x.epoch.toNat x.draws) n
      drainSlots key unit fuel
        { x with draws := x.draws + 1, emitQ := x.emitQ ++ [(x.slots.getD j [], decide (n = 1))],
                 slots := (listSet x.slots j (x.slots.getD (n - 1) [])).take (n - 1) }

def endEpoch (key : BitVec 128) (unit : Nat) (x : Ingest) : Ingest :=
  let y := drainSlots key unit x.slots.length x
  { y with epoch := y.epoch + 1, draws := 0 }

/-- A staged shard is admitted whole, and ends its epoch if it says so (R488). -/
def admitShard (key : BitVec 128) (unit slots : Nat) (n : Notice) (rs : List (List Byte)) (x : Ingest) : Ingest :=
  let x := rs.foldl (admitOne key unit slots) { x with decoded := x.decoded.drop 1 }
  let x := if n.bad.isSome then x else { x with shardsDone := wrap64 x.shardsDone 1 }
  if n.endEpoch then endEpoch key unit x else x

/-- ADMIT (R488, R480): the next staged shard, once every record due before it has left. -/
def execAdmitShard (ing : Fin 2) (s : State) : Out :=
  match s.ingests[ing].cfg, s.ingests[ing].decoded with
  | some c, (n, rs) :: _ =>
    if s.ingestLive ing ∧ s.ingests[ing].emitQ = [] then
      .next ((s.modIngest ing (admitShard s.job.pepper (shuffleUnitOf ing c) (shuffleSlots c) n rs)).writeStatus ing)
    else .next s
  | _, _ => .next s

/-! ### The output ring (R489, R490) -/

/-- The bytes that fill a ring to its end: a PAD record. -/
def padRecord (n : Nat) : List Byte := leBytes 8 (n % 2 ^ 24) ++ List.replicate (n - 8) 0

/-- What one record puts into the ring: bytes at its end first if it would cross it, then the record with its padding. -/
def ringPieces (c : IngestConfig) (produced : Nat) (r : List Byte) : List (Nat × List Byte) :=
  let size := 2 ^ c.outLog2
  let pos := produced % size
  let n := roundUp r.length 64
  let body := r ++ List.replicate (n - r.length) 0
  if size < pos + n then [(c.outAddr + pos, padRecord (size - pos)), (c.outAddr, body)] else [(c.outAddr + pos, body)]

/-- Free bytes of the output ring. -/
def Ingest.free (x : Ingest) (c : IngestConfig) : Nat := 2 ^ c.outLog2 - (x.outProduced - x.outConsumed).toNat

/-- A token is due after this record (R490). -/
def tokenDue (c : IngestConfig) (x : Ingest) (last : Bool) : Bool :=
  c.tokenEn && (last || decide (x.sinceToken + 1 = max 1 c.batchRecords))

/-- The counters after a record has been written. -/
def emitted (c : IngestConfig) (bytes : Nat) (x : Ingest) : Ingest :=
  { x with emitQ := x.emitQ.drop 1, outProduced := wrap64 x.outProduced bytes, recordsEmitted := wrap64 x.recordsEmitted 1,
           sinceToken := if x.sinceToken + 1 = max 1 c.batchRecords then 0 else x.sinceToken + 1 }

/-- A record and its PAD record that no free space holds together: the PAD goes first, on its own (log entry 29). -/
def State.padAlone (s : State) (i : Fin 2) (c : IngestConfig) (ps : List (Nat × List Byte)) (total : Nat) : State :=
  match ps with
  | [(a, pad), _] =>
    if 2 ^ c.outLog2 < total ∧ pad.length ≤ s.ingests[i].free c then
      (s.ingestWrite i (.onDie (4 + i.val) (.ownReq (.ingest i.val) 6)) a pad).modIngest i (fun x =>
        { x with outProduced := wrap64 x.outProduced pad.length })
    else s
  | _ => s

/-- EMIT (R489, R490): the next record, once the ring's free space holds it. -/
def execEmit (ing : Fin 2) (s : State) : Out :=
  match s.ingests[ing].cfg, s.ingests[ing].emitQ with
  | some c, (r, last) :: _ =>
    let x := s.ingests[ing]
    let ps := ringPieces c x.outProduced.toNat r
    let total := (ps.map (fun p => p.2.length)).sum
    if !s.ingestLive ing then .next s
    else if x.free c < total then .next (s.padAlone ing c ps total)
    else
      let s := ps.foldl (fun s p => s.ingestWrite ing (.onDie (4 + ing.val) (.ownReq (.ingest ing.val) 6)) p.1 p.2) s
      let s := s.modIngest ing (emitted c total)
      .next (if tokenDue c x last then
        s.postToken { source := none, cluster := fin32 c.tokenCluster, token := c.tokenNum, tag := 0, any := true, stream := 2 ^ 17 + ing.val } else s)
  | _, _ => .next s

/-- A write of OUT_CONSUMED under R158, modulo 2^64 (R489). -/
def State.outWrite (s : State) (i : Fin 2) (v : Word) : State :=
  let x := s.ingests[i]
  if (x.outProduced - x.outConsumed).toNat < (v - x.outConsumed).toNat then
    s.raiseD (uidLink i.val 0x11) 0x0102 (linkUnitBase i.val 0x11 + 0x18) v.toNat 0
  else s.modIngest i (fun x => { x with outConsumed := v })

/-- OUT_CONSUMED (R489). -/
def execOutConsumed (ing : Fin 2) (value : Word) (s : State) : Out :=
  if s.ingestLive ing then .next (s.outWrite ing value) else .next s

/-- The engine as a job starts it (R488, R491, R493). -/
def Ingest.start (c : IngestConfig) (x : Ingest) : Ingest :=
  { x.abandon with cfg := some c, nextSeq := 0, epoch := BitVec.ofNat 32 c.startEpoch, lastFault := 0xFFFFFFFF, draws := 0,
                   sinceToken := 0 }

/-- The engine as its bed comes on: with the configuration of the running job, until it has lost it (R486, R491, R493). -/
def Ingest.fresh (x : Ingest) : Ingest :=
  match x.cfg with
  | some c => Ingest.reset.start c
  | none => Ingest.reset

end Sys2Proof.Machine
end

