-- ==== Sys2Proof/Machine/Hbm.lean ====
section
/-! DEFINITION. Hbm.lean: stacks, lottery arbiters, the resource watchdog, ECC outcomes and page retirement (R217 to
R248). -/

namespace Sys2Proof.Machine

/-! ### Lottery arbiters (R224 to R231) -/

/-- One step of the LFSR (R228). -/
def lfsrStep (x : BitVec 16) : BitVec 16 :=
  let b := (x ^^^ (x >>> 2) ^^^ (x >>> 3) ^^^ (x >>> 5)) &&& 1
  (x >>> 1) ||| (b <<< 15)

def lfsrSteps : Nat → BitVec 16 → BitVec 16
  | 0, x => x
  | n + 1, x => lfsrSteps n (lfsrStep x)

/-- The LFSR's value after a load (R229). -/
def lfsrLoad (seed : BitVec 16) (n : Nat) : BitVec 16 :=
  let x := seed ^^^ BitVec.ofNat 16 n
  if x = 0 then 0xACE1 else x

def freshArb (seed : BitVec 16) (n : Nat) : Arbiter := { lfsr := lfsrLoad seed n, rr := 0, grant := none, queue := [] }

/-- Requesters that ask and their tickets, in order. -/
abbrev Asking := List (Nat × Nat)

def askTotal (as : Asking) : Nat := (as.map (·.2)).sum

/-- The walk of R228: the first requester at which the tickets pass x. -/
def askWalk (x : Nat) : Asking → Nat → Option Nat
  | [], _ => none
  | (r, t) :: rest, acc => if x < acc + t then some r else askWalk x rest (acc + t)

/-- The first member of the asking set at or after RR, wrapping. -/
def askRound (rr : Nat) (as : Asking) : Option Nat :=
  match as.find? (fun p => decide (rr ≤ p.1)) with
  | some p => some p.1
  | none => as.head?.map (·.1)

/-- The decision of R228 among n requesters: the winner and the arbiter's LFSR and RR afterwards. -/
def lottery (n : Nat) (as : Asking) (a : Arbiter) : Option (Nat × Arbiter) :=
  let t := askTotal as
  if 0 < t then
    let l := lfsrSteps 16 a.lfsr
    (askWalk (l.toNat * t / 65536) as 0).map (fun r => (r, { a with lfsr := l }))
  else
    (askRound a.rr as).map (fun r => (r, { a with rr := (r + 1) % max 8 n }))

/-- The number of requesters of an arbiter (R224, R231, R462). -/
def arbWidth : ArbId → Nat
  | .channel _ _ => 8
  | .trellis _ _ _ _ => 5
  | .egress _ _ _ => 9
  | .port _ _ => 9

/-- The key of an arbiter in its unit's table. -/
def arbKey : ArbId → Nat
  | .channel _ pc => pc.val
  | .trellis _ stop output vc => stop.val * 32 + output.val * 4 + vc.val
  | .egress _ edge vc => 4 * edge.val + vc.val
  | .port _ vc => vc.val

/-- The number XORed into an arbiter's seed (R229, R231, R462). -/
def arbSalt : ArbId → Nat
  | .channel _ pc => pc.val
  | .trellis _ stop output vc => 16 * stop.val + 4 * output.val + vc.val
  | .egress _ edge vc => 4 * edge.val + vc.val
  | .port _ vc => vc.val

/-- The bed that supplies an arbiter. -/
def arbBed : ArbId → Fin 62
  | .channel k _ => bedStack k.val
  | .trellis d _ _ _ => bedDie d.val
  | .egress l _ _ => bedHost l.val
  | .port p _ => bedPort p.val

/-- The unit of an arbiter (R39), and the fence that covers it. -/
def arbUid : ArbId → BitVec 16
  | .channel k _ => uidStack k.val
  | .trellis d _ _ _ => uidDie d.val 0
  | .egress l _ _ => uidLink l.val 0x13
  | .port p _ => uidPort p.val

def arbFence : ArbId → Option (BitVec 16)
  | .channel k _ => some (uidStack k.val)
  | .trellis d _ _ _ => some (uidDie d.val 8)
  | _ => none

/-- The registers of an arbiter are reachable and it works. -/
def State.arbLive (s : State) (a : ArbId) : Bool := s.bedOn (arbBed a) && !(arbFence a).any s.fenced

/-- TICKETS of a pseudo-channel, of a Trellis stop: 16 in every byte at reset (R226, R231). -/
def Stack.ticketsOf (k : Stack) (pc : Nat) : Word := tabGet k.tickets 0x1010101010101010 pc
def Die.ticketsOf (d : Die) (stop : Nat) : Word := tabGet d.trellisTickets 0x1010101010 stop

/-- The ticket count of a requester. -/
def State.arbTickets (s : State) (a : ArbId) (r : Nat) : Nat :=
  match a with
  | .channel k pc => bitsOf (s.hbm[k].ticketsOf pc.val).toNat (8 * r + 7) (8 * r)
  | .trellis d stop _ _ => bitsOf (s.dies[d].ticketsOf stop.val).toNat (8 * r + 7) (8 * r)
  | .egress l _ _ =>
    if r = 8 then s.pools[l].egressTickets8.toNat else bitsOf s.pools[l].egressTickets.toNat (8 * r + 7) (8 * r)
  | .port p _ =>
    if r = 8 then s.ports[p].egressTickets8.toNat else bitsOf s.ports[p].egressTickets.toNat (8 * r + 7) (8 * r)

def State.arb (s : State) (a : ArbId) : Arbiter :=
  match a with
  | .channel k _ => tabGet s.hbm[k].arbs (freshArb s.hbm[k].lfsrSeed (arbSalt a)) (arbKey a)
  | .trellis d _ _ _ => tabGet s.dies[d].trellisArbs (freshArb s.dies[d].trellisSeed (arbSalt a)) (arbKey a)
  | .egress l _ _ => tabGet s.pools[l].egressArbs (freshArb s.pools[l].egressSeed (arbSalt a)) (arbKey a)
  | .port p _ => tabGet s.ports[p].arbs (freshArb s.ports[p].egressSeed (arbSalt a)) (arbKey a)

def State.setArb (s : State) (a : ArbId) (x : Arbiter) : State :=
  match a with
  | .channel k _ => s.modStack k (fun y => { y with arbs := tabSet y.arbs (arbKey a) x })
  | .trellis d _ _ _ => s.modDie d (fun y => { y with trellisArbs := tabSet y.trellisArbs (arbKey a) x })
  | .egress l _ _ => s.modPool l (fun y => { y with egressArbs := tabSet y.egressArbs (arbKey a) x })
  | .port p _ => s.modPort p (fun y => { y with arbs := tabSet y.arbs (arbKey a) x })

/-- A requester fenced at its stack (R235). -/
def State.arbFenced (s : State) (a : ArbId) (r : Nat) : Bool :=
  match a with
  | .channel k _ => bitOf s.hbm[k].fencedReq.toNat r
  | _ => false

/-- The requesters that the table of R224 gives a unit's transfers, by its identifier: its ordinary reads and writes, and the traffic
of its own that has a requester. -/
def requesterOk (source : BitVec 16) (write : Bool) (r : Nat) : Bool :=
  let n := source.toNat
  let plain := decide (r = if write then 1 else 0)
  if n < 0x4000 then plain
  else if n < 0x8000 then
    plain || (decide (n % 16 = 2) && decide (r = 2 ∨ r = 4)) || (decide (n % 16 = 3) && decide (r = 3))
  else if n < 0xC000 then
    if n % 16 = 4 then decide (r = 3 ∨ r = 5)
    else if 5 ≤ n % 16 ∧ n % 16 ≤ 7 then decide (r = 2 ∨ r = 3 ∨ r = 4 ∨ r = 7)
    else plain
  else plain || decide (r = 6)

/-- What an arbiter can serve: at a pseudo-channel, a transfer of access units of one page that lie in it, under the requester of its
traffic (R224, R225); at a Trellis or egress output, what travels on its virtual channel (R22). -/
def transferOk (a : ArbId) (k : Ask) : Bool :=
  match a with
  | .channel stack pc =>
    k.ok && decide ((hbmPlace k.addr).stack = stack ∧ (hbmPlace k.addr).pc = pc.val) && requesterOk k.source k.write k.requester.val
  | .trellis _ _ _ vc => decide (trafficVc k.traffic = vc)
  | .egress _ _ vc => decide (trafficVc k.traffic = vc)
  | .port _ _ => true

/-- The requests that wait at an arbiter once more have come: each requester's in the order of its queue (R224). A fabric port's are
the packets that wait to leave by it. -/
def State.arbWaiting (s : State) (a : ArbId) (asks : List Ask) : List Ask :=
  match a with
  | .port _ _ => asks
  | _ => (s.arb a).queue ++ asks.filter (transferOk a)

/-- What a requester asks for: the first of its requests. -/
def askOf (asks : List Ask) (r : Nat) : Option Ask := asks.find? (fun k => decide (k.requester.val = r))

/-- The requests that wait on when a requester's first has been granted. -/
def askDrop (a : ArbId) (asks : List Ask) (r : Nat) : List Ask :=
  match a with
  | .port _ _ => []
  | _ => delFirst (fun k => decide (k.requester.val = r)) asks

/-- The asking set: requesters with a transfer ready that are not fenced (R227). -/
def State.asking (s : State) (a : ArbId) (asks : List Ask) : Asking :=
  ((List.range (arbWidth a)).filter (fun r => (askOf asks r).isSome && !s.arbFenced a r)).map (fun r => (r, s.arbTickets a r))

/-- The grant of a winner (R225, R232). -/
def State.grantOf (s : State) (asks : List Ask) (r : Nat) : Option Grant :=
  (askOf asks r).map (fun k => { ask := k, moved := 0, limitUs := s.objNum 0x5010 1 })

/-- Requests that have come join those that wait. -/
def State.arbJoin (s : State) (a : ArbId) (asks : List Ask) : State :=
  s.setArb a { s.arb a with queue := s.arbWaiting a asks }

/-- The decision of an arbiter among the requests that wait: the winner takes the grant, and a stack counts it in GRANTS (R228,
R246). -/
def State.arbDecide (s : State) (a : ArbId) (asks : List Ask) : Option (Nat × State) :=
  let q := s.arbWaiting a asks
  (lottery (arbWidth a) (s.asking a q) (s.arb a)).map (fun x =>
    let s := { s.setArb a { x.2 with grant := s.grantOf q x.1, queue := askDrop a q x.1 } with lastArb := some (a, x.1) }
    (x.1, match a with
      | .channel k _ => s.modStack k (fun y => { y with grants := y.grants.set (x.1 % 8) (wrap64 y.grants[x.1 % 8] 1) })
      | _ => s))

/-- A write of an arbiter's ticket word takes effect at once (R226). -/
def State.ticketsWrite (s : State) (a : ArbId) (v : Word) : State :=
  match a with
  | .channel k pc => s.modStack k (fun x => { x with tickets := tabSet x.tickets pc.val v })
  | .trellis d stop _ _ =>
    s.modDie d (fun x => { x with trellisTickets := tabSet x.trellisTickets stop.val (v &&& 0xFFFFFFFFFF) })
  | .egress l _ _ => s.modPool l (fun x => { x with egressTickets := v })
  | .port p _ => s.modPort p (fun x => { x with egressTickets := v })

/-- TICKETS_WRITE (R226). -/
def execTicketsWrite (arb : ArbId) (value : Word) (s : State) : Out :=
  if s.arbLive arb then .next (s.ticketsWrite arb value) else .next s

/-- A seed write reloads every LFSR and RR of the unit (R229); grants stand. -/
def reloadArbs (seed : BitVec 16) (salt : Nat → Nat) (arbs : Tab Arbiter) : Tab Arbiter :=
  arbs.map (fun p => (p.1, { p.2 with lfsr := lfsrLoad seed (salt p.1), rr := 0 }))

/-- A write of LFSR_SEED; 0 is refused (R229, R247). -/
def State.seedWrite (s : State) (k : Fin 12) (v : BitVec 16) : State :=
  if v = 0 then s.raiseD (uidStack k.val) 0x0102 (dieUnitBase (k.val / 3) (5 + k.val % 3) + 8) 0 0
  else s.modStack k (fun x => { x with lfsrSeed := v, arbs := reloadArbs v (fun n => n) x.arbs })

/-- LFSR_SEED_WRITE (R229, R247). -/
def execLfsrSeedWrite (stack : Fin 12) (value : BitVec 16) (s : State) : Out :=
  if s.bedOn (bedStack stack.val) ∧ !s.stackFenced stack then .next (s.seedWrite stack value) else .next s

/-- The unit that is fenced for a unit named as a packet's source (R233, R569): a cluster, for itself or what belongs to it, an update
unit, a host port or an ingest engine. A watchdog is no cause for which R569 fences any other unit. -/
def fenceOf (u : BitVec 16) : Option FenceKind :=
  let n := u.toNat
  if n < 0x4000 then some (.cluster (clusterOfCore (fin256 (n / 64))))
  else if n < 0x8000 then
    let g := fin32 ((n - 0x4000) / 0x800 * 8 + n / 256 % 8)
    if n % 16 = 8 then none else some (.cluster g)
  else (fenceNamed u).filter (fun k => k.watched)

/-- What the watchdog fences (R233 step 2): the requester at its stack, with the whole stack for requesters 0 and 1
(R234), or the unit named as the source of the packet. -/
def State.watchdogFence (s : State) (a : ArbId) (r : Nat) (source : BitVec 16) : State :=
  match a with
  | .channel k _ =>
    let s := s.modStack k (fun x => { x with fencedReq := x.fencedReq ||| BitVec.ofNat 8 (2 ^ r) })
    if r ≤ 1 then s.fenceUnit (.stack k) false 0x0703 else s.capacityChange (uidStack k.val) 0x0703
  | _ =>
    match fenceOf source with
    | some k => s.fenceUnit k false 0x0703
    | none => s.capacityChange (arbUid a) 0x0703

/-- The second argument of an arbiter-watchdog event (R560). -/
def arbPlace : ArbId → Nat
  | .channel _ pc => pc.val
  | .trellis _ _ output vc => 4 * output.val + vc.val
  | .egress _ edge vc => 4 * edge.val + vc.val
  | .port _ vc => vc.val

/-- The flow-control output that keeps the requesters of an arbiter from asking (R58): that of the FIFO behind a link-die egress, and,
for a Trellis output into a link edge, that of the FIFO on its far side, which then returns no credits. -/
def State.arbStopped (s : State) (a : ArbId) : Bool :=
  match a with
  | .egress l e vc => (s.fifo { kind := .linkOut, idx := 8 * l.val + 4 * e.val + vc.val }).flow
  | .trellis d stop output vc =>
    decide (stopUnit stop = .link ∧ output = 4) && (s.fifo { kind := .linkIn, idx := 8 * (d.val / 2) + 4 * (d.val % 2) + vc.val }).flow
  | _ => false

/-- The requests without those of a unit that the watchdog has fenced: at a pseudo-channel only the requester is fenced, and does not
contend any more (R233). -/
def unhung (a : ArbId) (source : BitVec 16) (asks : List Ask) : List Ask :=
  match a with
  | .channel _ _ => asks
  | _ => asks.filter (fun k => decide (k.source ≠ source))

/-- The next grant, decided among the requests that wait and those that have come, unless flow control keeps them from asking. -/
def State.arbNext (s : State) (a : ArbId) (asks : List Ask) : State :=
  if s.arbStopped a then s else ((s.arbDecide a asks).map (·.2)).getD (s.arbJoin a asks)

/-- WATCHDOG_BITE (R232, R233): a grant that has lasted the RESOURCE_WATCHDOG_US with which it was given, measured to 1 µs. The
transfer ends: its units not yet moved never are. The requester is fenced, the next grant is decided among `asks`, and the event
is raised. -/
def execWatchdogBite (arb : ArbId) (ageUs : Nat) (asks : List Ask) (s : State) : Out :=
  match (s.arb arb).grant with
  | none => .next s
  | some g =>
    if ageUs + 1 < g.limitUs then .next s
    else
      let r := g.ask.requester.val
      let s := s.setArb arb { s.arb arb with grant := none, queue := unhung arb g.ask.source (s.arb arb).queue }
      let s := s.watchdogFence arb r g.ask.source
      let s := match arb with
        | .channel k _ => s.modStack k (fun x => { x with wdBites := wrap64 x.wdBites 1 })
        | _ => s
      let s := if s.arbLive arb then s.arbNext arb (unhung arb g.ask.source asks) else s
      .next (s.raiseD (arbUid arb) 0x0703 ageUs (arbPlace arb) r)

/-! ### Page retirement (R239 to R242) -/

def retiredMax : Nat := 1024

/-- The entry limit is reached: the event of R242, and a persistent fence, which a transient one becomes (R571). -/
def State.retireLimit (s : State) (k : Fin 12) : State :=
  let n := s.hbm[k].retired.length
  let lim := s.objNum 0x5010 4
  let held := s.health.fences.any (fun f => decide (f.unit = uidStack k.val) && f.persistent)
  if (lim ≤ n ∨ retiredMax ≤ n) ∧ (!held ∨ n = lim) then
    (s.raiseD (uidStack k.val) 0x0803 k.val n lim).fenceUnit (.stack k) true 0x0803
  else s

/-- POISON of an entry as it reads (R241): a poisoned unit in its granule, or the history that the flash gave back. -/
def Stack.poisonBit (x : Stack) (e : Retired) : Bool := e.history || x.poisoned.any (fun u => decide (u / 4096 * 4096 = e.addr))

/-- A retired-page list as the flash gives it back (R241): the entries that reached it, POISON as history. -/
def restoredList (xs : List Retired) : List Retired :=
  xs.filterMap (fun e => e.flashed.map (fun b => { e with history := b }))

/-- Retires a granule (R239, R241, R242). -/
def State.retire (s : State) (gran cause : Nat) : State :=
  let k := stackOf gran
  let xs := s.hbm[k].retired
  if xs.any (fun e => decide (e.addr = gran)) then s
  else if retiredMax ≤ xs.length then s.raiseD (uidStack k.val) 0x0802 gran cause retiredMax
  else
    let e : Retired := { addr := gran, cause := cause, rtc := s.aon.rtc, history := false, flashed := none }
    ((s.modStack k (fun x => { x with retired := x.retired ++ [e] })).raiseD (uidStack k.val) 0x0802 gran cause
      (xs.length + 1)).retireLimit k

/-- A corrected read of a unit (R237, R239). -/
def State.corrected (s : State) (unit : Nat) : State :=
  let k := stackOf unit
  let gran := unit / 4096 * 4096
  let s := s.modStack k (fun x => { x with ceCount := wrap64 x.ceCount 1, ceEvents := countCe gran x.ceEvents })
  let n := ((s.hbm[k].ceEvents.find? (fun x => decide (x.1 = gran))).map (·.2)).getD 0
  if s.objNum 0x5010 3 ≤ n then s.retire gran 0 else s

/-- An uncorrectable read of a unit poisons it and retires its granule (R239, R240). -/
def State.poisonUnit (s : State) (unit : Nat) : State :=
  (s.modStack (stackOf unit) (fun x => { x with
    poisoned := if x.poisoned.contains unit then x.poisoned else x.poisoned ++ [unit] })).retire (unit / 4096 * 4096) 1

/-- What the reads of engines have left to retire: granules whose corrected events have come to the threshold, and those of poisoned
units (R239, R240). -/
def State.retireDue (s : State) : State :=
  (List.finRange 12).foldl (fun s k =>
    if s.hbm[k].toRetire = [] then s
    else
      (s.hbm[k].toRetire.filter (fun x =>
          x.2 = 1 || s.hbm[k].ceEvents.any (fun e => decide (e.1 = x.1 ∧ s.objNum 0x5010 3 ≤ e.2)))).foldl
        (fun s x => s.retire x.1 x.2) (s.modStack k (fun x => { x with toRetire := [] }))) s

/-- An uncorrectable read of a unit, counted (R237). -/
def State.uncorrected (s : State) (unit : Nat) : State := (s.poisonUnit unit).countUe (failUncorr unit)

/-- A stack whose base die works. -/
def State.stackReady (s : State) (k : Fin 12) : Bool :=
  s.bedOn (bedStack k.val) && decide (s.hbm[k].state = .ready) && !s.stackFenced k

/-- One more change of a stored byte; a difference of zero is no error. -/
def addUpset (t : Tab Byte) (u : Fin 72 × Byte) : Tab Byte :=
  let d := tabGet t 0 u.1.val ^^^ u.2
  if d = 0 then tabDel t u.1.val else tabSet t u.1.val d

/-- The errors that a unit holds, after what has happened to it by now. -/
def State.upsetUnit (s : State) (unit : Nat) (u : Upset) : State :=
  s.modStack (stackOf unit) (fun x =>
    let t := u.bytes.foldl addUpset (tabGet x.errors [] unit)
    { x with errors := if t = [] then tabDel x.errors unit else tabSet x.errors unit t })

/-- The errors of a unit. -/
def State.errorsAt (s : State) (unit : Nat) : Tab Byte := tabGet s.hbm[stackOf unit].errors [] unit

/-- What a read finds (R236, R240): a poisoned unit, and one of another address, is uncorrectable; the errors of any other decide. -/
def State.eccOf (s : State) (unit : Nat) (misplaced : Bool) : EccOutcome :=
  if s.hbm[stackOf unit].poisoned.contains unit ∨ misplaced then .uncorrectable else eccOfErrors unit (s.errorsAt unit)

/-- The data of a read that is not uncorrectable: what was written, but for a unit with errors beyond the code's reach. -/
def State.unitData (s : State) (unit : Nat) : List Byte :=
  let e := s.errorsAt unit
  if e.length ≤ 5 then s.readMem unit 64 else (List.range 64).map (Config.eccData unit e)

/-- A unit written back with new check bytes: it holds no error any more, and reads as it was read. -/
def State.settleUnit (s : State) (unit : Nat) : State :=
  let s := if (s.errorsAt unit).length ≤ 5 then s else s.writeMem unit (s.unitData unit)
  s.modStack (stackOf unit) (fun x => { x with errors := tabDel x.errors unit })

/-- Scrubbing: each unit once in a period of SCRUB_PERIOD_H (R238). -/
def State.scrubStart (s : State) (k : Fin 12) : State :=
  if s.objNum 0x5010 2 * 3600 * 25000000 ≤ (s.aon.rtc - s.hbm[k].scrubSince).toNat then
    s.modStack k (fun x => { x with scrubbed := [], scrubSince := s.aon.rtc })
  else s

/-- What follows the scrubber's read of a unit: another requester's write, if one came first; else the rewrite of a unit that was
corrected (R238). -/
def State.afterScrub (s : State) (addr : Nat) (corrected : Bool) (rewritten : Option (List Byte)) : State :=
  match rewritten with
  | some bs => if bs.length = 64 then s.writeMem addr bs else s
  | none => if corrected then s.settleUnit addr else s

/-- SCRUB (R238): the scrubber reads, as requester 7, a unit that it has not read in this period, and rewrites it where it corrects
it. `rewritten` holds the unit as another requester wrote it since the scrubber's read, if one did: the rewrite is then skipped. -/
def execScrub (stack : Fin 12) (addr : Nat) (upset : Upset) (rewritten : Option (List Byte)) (s : State) : Out :=
  if stackOf addr = stack ∧ addr < hbmEnd ∧ addr % 64 = 0 ∧ s.stackReady stack ∧ !s.reqFenced (.req 7) stack ∧
      s.objNum 0x5010 2 ≠ 0 then
    let s := s.scrubStart stack
    if s.hbm[stack].scrubbed.contains addr then .next s
    else
      let s := (s.upsetUnit addr upset).modStack stack (fun x => { x with scrubbed := addr :: x.scrubbed })
      match s.eccOf addr upset.misplaced with
      | .clean => .next (s.afterScrub addr false rewritten)
      | .corrected => .next ((s.corrected addr).afterScrub addr true rewritten)
      | .uncorrectable =>
        .next (((s.uncorrected addr).raiseD (uidStack stack.val) 0x0203 addr stack.val 0).afterScrub addr false rewritten)
  else .next s

/-- STACK_READY (R219, R624): training ends; every unit has been written with zero. A failure names its step. -/
def execStackReady (stack : Fin 12) (failStep : Option Nat) (s : State) : Out :=
  if s.bedOn (bedStack stack.val) ∧ s.hbm[stack].state = .training then
    match failStep with
    | none => .next ((s.setMem (s.mem.zero stack.val)).modStack stack (fun x => { x with state := .ready }))
    | some k => .next ((s.raiseD (uidStack stack.val) 0x0801 stack.val k 0).fenceUnit (.stack stack) true 0x0801)
  else .next s

/-- RETIRED_LIST_FLASH_COPY (R241): the root of trust copies the first entry not yet on the flash. -/
def execRetiredListFlashCopy (stack : Fin 12) (s : State) : Out :=
  if s.bedOn bedRot then
    .next (s.modStack stack (fun x => { x with
      retired := modFirst (fun e => e.flashed.isNone) (fun e => { e with flashed := some (x.poisonBit e) }) x.retired }))
  else .next s

end Sys2Proof.Machine
end

