-- ==== Sys2Proof/Machine/Sha3.lean ====
section
/-! DEFINITION. Sha3.lean: SHA3-512 and KMAC's sponge (PRESUMED: FIPS 202, log entry 5). -/

namespace Sys2Proof.Machine

/-! ### What the permutation's tables are made of -/

/-- The shift register behind the round constants: x^8 + x^6 + x^5 + x^4 + 1. -/
def rcShift (r : Nat) : Nat := if r < 128 then 2 * r else (2 * r) % 256 ^^^ 0x71

/-- The register after so many shifts, from 1. -/
def rcRegister : Nat → Nat
  | 0 => 1
  | t + 1 => rcShift (rcRegister t)

/-- The constant of round i: bit 2^j - 1 is the register's low bit after 7i + j shifts. -/
def roundConst (i : Nat) : Word :=
  BitVec.ofNat 64 (((List.range 7).map (fun j => rcRegister (7 * i + j) % 2 * 2 ^ (2 ^ j - 1))).sum)

/-- Where the walk of the rotations stands after t moves from (1, 0): its row and column as one lane number. -/
def rhoLane : Nat → Nat
  | 0 => 1
  | t + 1 =>
    let k := rhoLane t
    k / 5 + 5 * ((2 * (k % 5) + 3 * (k / 5)) % 5)

/-- How far a lane turns: the triangular number of its place on the walk; the first lane stays. -/
def rhoTurn (k : Nat) : Nat :=
  match (List.range 24).find? (fun t => decide (rhoLane t = k)) with
  | some t => (t + 1) * (t + 2) / 2 % 64
  | none => 0

/-- The turns of all lanes. -/
def rhoTurns : List Nat := (List.range 25).map rhoTurn

/-! ### The permutation -/

/-- Lane x + 5y of a state. -/
def laneAt (a : List Word) (x y : Nat) : Word := a.getD (x % 5 + 5 * (y % 5)) 0

/-- A state from what it holds at each column and row. -/
def lanesOf (f : Nat → Nat → Word) : List Word := (List.range 25).map (fun k => f (k % 5) (k / 5))

/-- The parity of a column. -/
def columnParity (a : List Word) (x : Nat) : Word := ((List.range 5).map (laneAt a x)).foldl (· ^^^ ·) 0

/-- Theta: each lane takes the parities of two neighbouring columns. -/
def theta (a : List Word) : List Word :=
  let p := (List.range 5).map (columnParity a)
  lanesOf (fun x y => laneAt a x y ^^^ laneAt p (x + 4) 0 ^^^ (laneAt p (x + 1) 0).rotateLeft 1)

/-- Rho: each lane turns. -/
def rho (a : List Word) : List Word := List.zipWith (fun w n => w.rotateLeft n) a rhoTurns

/-- Pi: the lanes change places. -/
def piLanes (a : List Word) : List Word := lanesOf (fun x y => laneAt a (x + 3 * y) x)

/-- Chi: each lane with the two after it in its row. -/
def chi (a : List Word) : List Word := lanesOf (fun x y => laneAt a x y ^^^ ((~~~ laneAt a (x + 1) y) &&& laneAt a (x + 2) y))

/-- Iota: the first lane takes the round's constant. -/
def iota (i : Nat) : List Word → List Word
  | [] => []
  | w :: t => (w ^^^ roundConst i) :: t

/-- The 24 rounds. -/
def keccakF (a : List Word) : List Word := (List.range 24).foldl (fun a i => iota i (chi (piLanes (rho (theta a))))) a

/-! ### The sponge -/

/-- A message with its domain byte and the last bit of its last block, as blocks of `rate` bytes. -/
def spongeBlocks (rate : Nat) (dom : Byte) (m : List Byte) : List (List Byte) :=
  let n := m.length / rate + 1
  let fill : List Byte := dom :: List.replicate (n * rate - m.length - 1) 0
  let bs := m ++ fill
  (List.range n).map (fun i =>
    let b := (bs.drop (i * rate)).take rate
    if i + 1 = n then b.dropLast ++ [b.getLastD 0 ||| 0x80] else b)

/-- One block goes into the state. -/
def absorb (a : List Word) (block : List Byte) : List Word :=
  keccakF (a.mapIdx (fun k w => w ^^^ BitVec.ofNat 64 (leNat ((block.drop (8 * k)).take 8))))

/-- The first bytes of the state that a message leaves. -/
def sponge (rate : Nat) (dom : Byte) (m : List Byte) (n : Nat) : List Byte :=
  let a := (spongeBlocks rate dom m).foldl absorb (List.replicate 25 0)
  (a.flatMap (fun w => leBytes 8 w.toNat)).take n

/-- SHA3-512. -/
def sha3_512 (m : List Byte) : List Byte := sponge 72 0x06 m 64

/-- SHA3-512 as one number, first byte lowest. -/
def sha3w (m : List Byte) : BitVec 512 := BitVec.ofNat 512 (leNat (sha3_512 m))

/-- SHAKE256 of up to 136 bytes. -/
def shake256 (m : List Byte) (n : Nat) : List Byte := sponge 136 0x1F m (min n 136)

end Sys2Proof.Machine
end

