-- ==== Sys2Proof/Machine/Kdf.lean ====
section
/-! DEFINITION. Kdf.lean: key derivation, digests of certificates, signatures made by the device (R518 to R523). -/

namespace Sys2Proof.Machine

def asciiBytes (t : String) : List Byte := t.toList.map (fun c => BitVec.ofNat 8 c.toNat)

/-- KDF of R520. -/
def kdf (label : String) (secret context : List Byte) : List Byte :=
  sha3_512 (asciiBytes label ++ 0 :: secret ++ context)

/-- Output bytes lo to lo + n - 1 as a number, first byte lowest. -/
def kdfPart (out : List Byte) (lo n : Nat) : Nat := leNat ((out.drop lo).take n)

def keyBytes (k : BitVec 256) : List Byte := leBytes 32 k.toNat

/-! ### The sizes and contexts of ML-DSA-87 and ML-KEM-1024 (R518, R519) -/

/-- A message as the pure signing mode of FIPS 204 frames it with its context (R519; PRESUMED: FIPS 204, log entry 5). -/
def dsaFramed (context : String) (m : List Byte) : List Byte :=
  let c := asciiBytes context
  0 :: BitVec.ofNat 8 c.length :: (c ++ m)

/-- A signature of 4,627 bytes by a private key. -/
def dsaSign (key : List Byte) (context : String) (m : List Byte) : List Byte :=
  (List.range 4627).map (Config.dsaSignByte key (dsaFramed context m))

/-- A signature of 4,627 bytes verifies under a public key of 2,592 bytes and a context. -/
def dsaVerify (key : List Byte) (context : String) (m sig : List Byte) : Bool :=
  decide (key.length = 2592 ∧ sig.length = 4627) && Config.dsaCheck key (dsaFramed context m) sig

/-- The encapsulation key of a draw, 1,568 bytes. -/
def kemKey (draw : Nat) : List Byte := (List.range 1568).map (Config.kemKeyByte draw)

/-- The shared secret and the ciphertext, 1,568 bytes, for an encapsulation key and a draw. -/
def encaps (ek : List Byte) (draw : Nat) : BitVec 256 × List Byte :=
  (Config.kemShared ek draw, (List.range 1568).map (Config.kemCipherByte ek draw))

/-! ### Identity (R522, R523; PRESUMED: the DER of X.509, log entry 5) -/

/-- A DER element: its tag, its length, its content. -/
def der (tag : Byte) (content : List Byte) : List Byte :=
  let n := content.length
  let k := if n < 256 then 1 else if n < 65536 then 2 else 3
  tag :: (if n < 128 then [BitVec.ofNat 8 n] else BitVec.ofNat 8 (128 + k) :: (leBytes k n).reverse) ++ content

/-- SERIAL: 16 characters (R514). -/
def serialBytes : List Byte := (List.range 16).map Config.serialChar

/-- The identity public key, 2,592 bytes. -/
def identityPublic : List Byte := (List.range 2592).map Config.identityByte

/-- The algorithm identifier id-ml-dsa-87, 2.16.840.1.101.3.4.3.19. -/
def mlDsaId : List Byte := der 0x30 (der 0x06 [0x60, 0x86, 0x48, 0x01, 0x65, 0x03, 0x04, 0x03, 0x13])

/-- The device certificate: X.509 v3, with SERIAL as its subject's serialNumber, the identity public key, and notAfter
99991231235959Z. -/
def deviceCert : List Byte :=
  let validity := der 0x30 (Config.certPart 2 ++ der 0x18 (asciiBytes "99991231235959Z"))
  let subject := der 0x30 (der 0x31 (der 0x30 (der 0x06 [0x55, 0x04, 0x05] ++ der 0x13 serialBytes)) ++ Config.certPart 3)
  let keyInfo := der 0x30 (mlDsaId ++ der 0x03 (0 :: identityPublic))
  let body := der 0x30 (der 0xA0 (der 0x02 [2]) ++ der 0x02 (Config.certPart 0) ++ mlDsaId ++ Config.certPart 1 ++ validity ++ subject ++
    keyInfo ++ Config.certPart 4)
  der 0x30 (body ++ mlDsaId ++ der 0x03 (0 :: Config.certPart 5))

/-- IDENTITY_CERT: the device certificate, then the intermediate one that issued it (R523). -/
def identityCert : List Byte := deviceCert ++ Config.intermediateCert

/-- The first DER element of a string of bytes. -/
def firstDer (bs : List Byte) : List Byte :=
  let n := (bs.getD 1 0).toNat
  if n < 128 then bs.take (2 + n)
  else
    let k := n % 128
    bs.take (2 + k + (((bs.drop 2).take k).foldl (fun v b => 256 * v + b.toNat) 0))

/-- The identity digest of a device from its IDENTITY_CERT: that of the device certificate (R523). -/
def identityDigest (cert : List Byte) : BitVec 512 := sha3w (firstDer cert)

/-- The device's own identity digest. -/
def ownDigestW : BitVec 512 := sha3w deviceCert
def ownDigest : List Byte := leBytes 64 ownDigestW.toNat

/-- The private key that unwrapping with the fuse key gives, 4,896 bytes (R522). -/
def unwrapIdentity : List Byte := (List.range 4896).map (Config.unwrapByte Config.fuseKey Config.wrappedIdentity)

/-- An identity signature under a context (R519): the private key is there once boot has unwrapped it. -/
def State.signUnder (s : State) (context : String) (m : List Byte) : List Byte := dsaSign (s.rot.identityKey.getD []) context m

/-- Unix time, once WALL_BASE_S is set (R592). -/
def State.unixTime (s : State) : Option Nat :=
  if s.aon.wallBase = 0 then none else some (s.aon.wallBase.toNat + s.aon.rtc.toNat / 25000000)

/-- A peer's certificates chain to the root whose digest the ROM holds, and are valid now (R539, R592). -/
def State.certOk (s : State) (cert : List Byte) : Bool :=
  Config.certChains Config.romRoot cert &&
    s.unixTime.all (fun t => (Config.certDates cert).all (fun d => decide (d.1 ≤ t ∧ t ≤ d.2)))

end Sys2Proof.Machine
end

