-- ==== Sys2Proof/Machine/Transport.lean ====
section
/-! DEFINITION. Transport.lean: the transport layer of the fabric: packets as bytes, delivery in order, acknowledgement and
retransmission, and what each packet type does where it arrives (R449 to R458, R212). -/

namespace Sys2Proof.Machine

/-! ### Packets as bytes (R449) -/

/-- The four words of a transport header. -/
def packetHeader (p : Packet) : List Word :=
  [BitVec.ofNat 64 (p.dst % 2 ^ 15 + p.src % 2 ^ 15 * 2 ^ 16 + ptypeCode p.ptype * 2 ^ 32 + p.fvc % 4 * 2 ^ 36 +
     p.payload.length % 2 ^ 13 * 2 ^ 48),
   BitVec.ofNat 64 (p.psn % 2 ^ 32 + p.step % 2 ^ 32 * 2 ^ 32), p.key0, p.key1]

def packetBytes (p : Packet) : List Byte := (packetHeader p).flatMap wordBytes ++ p.payload

/-- The bytes that a packet's header announces, header included. -/
def packetLength (bs : List Byte) : Nat := 32 + bitsOf (leNat (bs.take 8)) 60 48

/-- The packet that bytes spell; `none` for a reserved type. -/
def packetOf (bs : List Byte) : Option Packet :=
  let w0 := leNat (bs.take 8)
  let w1 := leNat ((bs.drop 8).take 8)
  (ptypeOfCode (bitsOf w0 35 32)).map (fun t =>
    { dst := bitsOf w0 14 0, src := bitsOf w0 30 16, ptype := t, fvc := bitsOf w0 37 36, psn := bitsOf w1 31 0,
      step := bitsOf w1 63 32, key0 := BitVec.ofNat 64 (leNat ((bs.drop 16).take 8)),
      key1 := BitVec.ofNat 64 (leNat ((bs.drop 24).take 8)), payload := (bs.drop 32).take (bitsOf w0 60 48) })

/-! ### Recovery (R112, R446, R453) -/

/-- Nothing re-routed is left in this device and nothing waits out of order. -/
def State.routesQuiet (s : State) : Bool :=
  s.rxFlows.all (fun f => f.held.isEmpty) &&
    s.ports.toList.all (fun p => p.txQueue.all (fun e => !e.rerouted) && p.replay.all (fun f => !f.entry.rerouted))

def State.retriesQuiet (s : State) : Bool := s.ports.toList.all (fun p => p.retryRx.isNone && p.retryTx.isNone)

/-- Closes what has ended of a recovery, and releases what it withheld. No command ends the retry of a die-to-die or link edge:
it ends with the next crystal cycle or fabric event that finds no fabric port retrying (DESIGN CHOICE, log entry 47). -/
def State.settleRecovery (s : State) : State :=
  let old := s.health.recovery
  let s := if old.contains .route && s.routesQuiet then s.closeRecovery .route else s
  let s := if old.contains .retry && s.retriesQuiet then s.closeRecovery .retry else s
  if s.health.recovery = old then s else s.settleBarriers

/-! ### What a packet that cannot be delivered does at its source (R441) -/

/-- Answers for a row request: an item, a staged row or a pooled member of a cluster's Rake, by tag (R450). -/
def State.rakeAnswer (s : State) (g : Fin 32) (tag : Nat) (ans : Except Fail (List Byte)) : State :=
  match (s.rakeItems g).find? (fun x => decide (x.2.tag = some tag)), ans with
  | some (j, i), .ok rec => s.itemArrived g j i rec
  | some (j, i), .error f => s.itemFailed g j i f
  | none, _ =>
    match (s.stagedRows g (fun st => decide (st = .asked tag ∨ st = .reading tag))).head?, ans with
    | some (x, r), .ok bs => if r.status = .asked tag then s.versionAnswer g x r (leNat bs) else s.stagedWrite g x r (.ofCluster g .any) bs
    | some (x, _), .error f => s.failStaged g x f
    | none, _ =>
      match s.clusters[g].rake.jobs.find? (fun j => j.bag.any (fun b => decide (b.tag = some tag))), ans with
      | some j, .ok rec => s.setRakeJob g j.run { j with bag := j.bag.map (fun b => { b with reply := some rec }) }
      | some j, .error f =>
        match s.table (rakeCtl j.run.q.desc).table with
        | some td => s.settleJob g (rakeCtl j.run.q.desc) td (faultJob f { j with bag := none })
        | none => s
      | none, _ => s

/-- The cluster whose Rake a request names (R450 REQ_UNIT). -/
def rakeOfUnit (u : Nat) : Option (Fin 32) := (List.finRange 32).find? (fun g => decide ((uidCluster g.val 2).toNat = u))

/-- Faults the Sprinkler command that a partial belongs to. -/
def State.scatterFails (s : State) (dst psn : Nat) (f : Fail) : State :=
  (List.finRange 32).foldl (fun s g =>
    if s.clusters[g].sprinkler.sending.contains (dst, psn) then
      let s := s.modSprinkler g (fun x => { x with sending := x.sending.filter (fun y => decide (y ≠ (dst, psn))) })
      match s.activeDesc g .sprinkler with
      | some r => (s.modSprinkler g (fun x => { x with job := none })).failDesc g .sprinkler r f
      | none => s.raiseC g (uidCluster g.val 3) f.code f.arg0 f.arg1 0
    else s) s

/-- Faults the COMMITs that still wait for writes or column sums. -/
def State.commitFails (s : State) (f : Fail) : State :=
  (List.finRange 4).foldl (fun s d =>
    match s.dies[d].upd.commit with
    | some c =>
      if c.settled ∧ !c.finished then
        (s.modUpd d (fun u => { u with commit := u.commit.map (fun c => { c with finished := true }) })).failDesc
          (fin32 c.cluster) .update c.run f
      else s
    | none => s) s

/-- Faults the GRAD_SENDs that a chunk came from. -/
def State.gradFails (s : State) (group first : Nat) (f : Fail) : State :=
  (List.finRange 32).foldl (fun s g =>
    match (s.queue g .update).running.find? (fun r => decide (r.phase = .working ∧ r.q.desc.opcode = 1) &&
        inRange (gradCtl r.q.desc) group first) with
    | some r => s.failDesc g .update r f
    | none => s) s

/-- A copied record that came back never reaches the new owner: its shard's move stays unrecorded (R212 step 4, R441). -/
def State.copyLost (s : State) (p : Packet) : State :=
  let held (m : MoveJob) : Bool := (s.table m.table).any (fun td => (List.range m.nextRow).any (fun i =>
    decide (recordAddr td m.newSlot (m.shard * 2 ^ td.shardLog2 + i) = p.key0.toNat)))
  { s with moves := s.moves.map (fun m => { m with lost := m.lost || (decide (m.newDevice = p.dst) && held m) }) }

/-- A value on its way up goes to the parent of the device that cannot be reached; `none` where no device above can (R455). -/
def State.sendAbove (s : State) (root : Nat) (p : Packet) : Option State :=
  (s.effParent root treeDepth s.devNumber).map (fun m =>
    s.trySend m p.ptype p.step p.key0.toNat p.key1.toNat p.payload)

/-- What goes down the tree goes to the children of the device that cannot be reached (R455). -/
def State.sendBelow (s : State) (root : Nat) (p : Packet) : State :=
  (s.effChildren root treeDepth p.dst).foldl (fun s m =>
    s.trySend m p.ptype p.step p.key0.toNat p.key1.toNat p.payload) s

/-- The root of the tree that a packet climbs or comes down. -/
def State.rootOf (s : State) (p : Packet) : Nat :=
  if p.ptype = .reduce then bitsOf p.key1.toNat 14 0 else s.treeRoot

/-- The source's descriptor faults with an unreachable-device event, and the device counts as gone; what went up or down the tree
takes the way past it (R441, R455). -/
def State.sourceFails (s : State) (p : Packet) : State :=
  let f := failUnreachable p.dst (ptypeCode p.ptype)
  let s := { s with gone := p.dst :: s.gone.filter (fun n => n ≠ p.dst) }
  match p.ptype with
  | .rowReq =>
    match rakeOfUnit (p.key1.toNat % 2 ^ 16) with
    | some g => s.rakeAnswer g (bitsOf p.key1.toNat 47 16) (.error f)
    | none => s
  | .scatterAdd => s.scatterFails p.dst p.psn f
  | .reduce =>
    if bitsOf p.key1.toNat 17 16 = 2 then s.sendBelow (s.rootOf p) p
    else match s.sendAbove (s.rootOf p) p with
      | some s => s
      | none =>
        if bitsOf p.key1.toNat 17 16 = 0 then s.gradFails (bitsOf p.key0.toNat 7 0) (bitsOf p.key0.toNat 47 8) f
        else s.commitFails f
  | .write => (s.copyLost p).commitFails f
  | .barrierArrive => (s.sendAbove (s.rootOf p) p).getD s
  | .barrierRelease => s.sendBelow (s.rootOf p) p
  | _ => s

/-! ### Acknowledgement at the sender (R452) -/

/-- How far a PSN lies ahead of another, modulo 2^32. -/
def psnAhead (a b : Nat) : Nat := (a + 2 ^ 32 - b % 2 ^ 32) % 2 ^ 32

/-- Frees the cells that a packet of this device holds. -/
def State.freeKept (s : State) (p : Packet) : State :=
  let mine (k : KeptPacket) : Bool := decide (k.dst = p.dst ∧ k.fvc = p.fvc ∧ k.psn = p.psn)
  { s with pools := s.pools.map (fun x =>
      let n := cellsOf p
      { (x.kept.filter mine).foldl (fun y k => poolGive y (fin9 k.channel) n) x with kept := x.kept.filter (fun k => !mine k) }) }

/-- Drops the packets of a flow that a test names. -/
def State.dropUnacked (s : State) (f : TxFlow) (gone : Packet → Bool) : State :=
  (f.unacked.filter gone).foldl State.freeKept (s.setTxFlow { f with unacked := f.unacked.filter (fun p => !gone p) })

/-- What waits for acknowledgements goes on: barrier arrivals, GRAD_SENDs, COMMITs and the advances they hold. -/
def State.settleAcks (s : State) : State :=
  (((((List.finRange 32).foldl State.settle s).settleGrads).settleCommits).stepWaited).settleRecovery

/-- Retransmits a flow from its oldest unacknowledged packet, in order and by the present route (R452). -/
def State.retransmit (s : State) (f : TxFlow) : State :=
  let side := flowSide s.devNumber f.dst f.fvc
  f.unacked.foldl (fun s p =>
    match s.queueEntry (ownEntry p) side false with
    | some s => s.modPool (fin2 side) (fun x => { x with e2eRetransmits := wrap64 x.e2eRetransmits 1 })
    | none => (((s.countNoRoute f.dst p.ptype).dropUnacked (s.txFlow f.dst f.fvc) (fun q => decide (q = p)))).sourceFails p) s

/-! ### Delivery at the receiver (R451 to R453) -/

def State.rxFlow (s : State) (src fvc : Nat) : RxFlow :=
  (s.rxFlows.find? (fun f => decide (f.src = src ∧ f.fvc = fvc))).getD
    { src := src, fvc := fvc, expect := 0, sinceAck := 0, held := [] }

def State.setRxFlow (s : State) (f : RxFlow) : State :=
  if s.rxFlows.any (fun x => decide (x.src = f.src ∧ x.fvc = f.fvc)) then
    { s with rxFlows := modFirst (fun x => decide (x.src = f.src ∧ x.fvc = f.fvc)) (fun _ => f) s.rxFlows }
  else { s with rxFlows := s.rxFlows ++ [f] }

/-- A cumulative E2E_ACK of a flow. -/
def State.ackFlow (s : State) (f : RxFlow) : State :=
  (s.setRxFlow { f with sinceAck := 0 }).trySend f.src .e2eAck 0 ((f.expect + 2 ^ 32 - 1) % 2 ^ 32 + f.fvc * 2 ^ 32) 0 []

/-- A barrier's two halves of KEY1. -/
def sumOf (w : Word) : U32 := w.setWidth 32
def orOf (w : Word) : U32 := (w >>> 32).setWidth 32

/-- The payload bytes that the packets of one message carry together: a row's partial, or its record (R449, log entry 12). -/
def State.wholeBytes (s : State) (p : Packet) : Nat :=
  let k := p.key0.toNat
  match p.ptype with
  | .scatterAdd => ((s.table (bitsOf k 43 40)).map (fun td => 4 * td.dim)).getD 0
  | .rowResp => if bitOf k 48 ∨ bitsOf k 51 50 ≠ 0 then 0 else ((s.table (bitsOf k 3 0)).map (·.stride)).getD 0
  | _ => 0

/-- A packet whose message goes on in the next one of its flow. -/
def State.goesOn (s : State) (p : Packet) : Bool :=
  decide (p.payload ≠ [] ∧ p.payload.length % maxPayload = 0 ∧ p.payload.length < s.wholeBytes p)

/-- Joins a packet to one that it goes on from: the last of its flow. -/
def joinPacket (p : Packet) : List Packet → List Packet
  | [] => [p]
  | q :: t =>
    if q.src = p.src ∧ q.fvc = p.fvc ∧ !t.any (fun x => decide (x.src = p.src ∧ x.fvc = p.fvc)) then
      { q with psn := p.psn, payload := q.payload ++ p.payload } :: t
    else q :: joinPacket p t

/-- A delivered packet joins the others, or the one that it goes on from. -/
def State.deliver (s : State) (p : Packet) : State :=
  match s.delivered.reverse.find? (fun q => decide (q.src = p.src ∧ q.fvc = p.fvc)) with
  | some q =>
    if s.goesOn q ∧ q.ptype = p.ptype ∧ q.key0 = p.key0 ∧ q.key1 = p.key1 then { s with delivered := joinPacket p s.delivered }
    else { s with delivered := s.delivered ++ [p] }
  | none => { s with delivered := s.delivered ++ [p] }

/-- A packet is handed to the unit that takes it: barrier messages join those on their way inside the device. -/
def State.handOver (s : State) (p : Packet) : State :=
  match p.ptype with
  | .barrierArrive =>
    { s with arrivals := s.arrivals ++ [{ scope := .system, season := p.key0.toNat % 2 ^ 48, sender := .device p.src,
                                          sum := sumOf p.key1, orBits := orOf p.key1 }] }
  | .barrierRelease =>
    { s with releases := s.releases ++ [{ scope := .system, season := p.key0.toNat % 2 ^ 48, die := none, payload := p.key1 }] }
  | _ => s.deliver p

/-- Delivers the held packets of a flow that are now in order, freeing their cells. -/
def State.drainHeld : Nat → State → RxFlow → State × RxFlow
  | 0, s, f => (s, f)
  | n + 1, s, f =>
    match f.held.find? (fun x => decide (x.1.psn = f.expect)) with
    | none => (s, f)
    | some x =>
      let s := (s.modPool (fin2 x.2.1) (fun y => poolGive y (fin9 x.2.2) (cellsOf x.1))).handOver x.1
      State.drainHeld n s { f with expect := (f.expect + 1) % 2 ^ 32, sinceAck := f.sinceAck + 1,
                                   held := delFirst (fun y => decide (y = x)) f.held }

/-- A numbered packet arrives for this device through a channel (R451 to R453). -/
def State.receiveNumbered (s : State) (die ch : Nat) (p : Packet) : State :=
  let f := s.rxFlow p.src p.fvc
  let d := psnAhead p.psn f.expect
  let pool := s.pools[fin2 die]
  if d = 0 then
    let (s, f) := State.drainHeld f.held.length (s.handOver p)
      { f with expect := (f.expect + 1) % 2 ^ 32, sinceAck := f.sinceAck + 1 }
    (if 64 ≤ f.sinceAck then s.ackFlow f else s.setRxFlow f).settleRecovery
  else if 2 ^ 31 ≤ d then
    (s.modPool (fin2 die) (fun x => { x with duplicates := wrap64 x.duplicates 1 })).ackFlow f
  else if f.held.any (fun x => decide (x.1.psn = p.psn)) then s
  else if poolCanTake pool (fin9 ch) (cellsOf p) then
    (((s.modPool (fin2 die) (fun x =>
      { poolTake x (fin9 ch) (cellsOf p) with reseqHeld := wrap64 x.reseqHeld 1 })).setRxFlow
      { f with held := f.held ++ [(p, die, ch)] })).openRecovery .route
  else
    ((s.modPool (fin2 die) (fun x => { x with reseqDropped := wrap64 x.reseqDropped 1 }))).trySend p.src .e2eNak 0
      (f.expect + p.fvc * 2 ^ 32) 0 []

/-- A packet for this device: its source can be reached. -/
def State.receiveHere (s : State) (die ch : Nat) (p : Packet) : State :=
  { s with gone := s.gone.filter (fun n => n ≠ p.src) }.receiveNumbered die ch p

/-! ### Taking a delivered packet -/

/-- The first delivered packet of a type that is the oldest of its flow and that a test accepts. -/
def pickFrom (t : PType) (ok : Packet → Bool) : List Packet → List Packet → Option Packet
  | _, [] => none
  | before, p :: rest =>
    if p.ptype = t ∧ ok p ∧ !before.any (fun q => decide (q.src = p.src ∧ q.fvc = p.fvc)) then some p
    else pickFrom t ok (before ++ [p]) rest

def State.pick (s : State) (t : PType) (ok : Packet → Bool) : Option (Packet × State) :=
  (pickFrom t (fun p => ok p && !s.goesOn p) [] s.delivered).map (fun p => (p, { s with delivered := delFirst (fun q => decide (q = p)) s.delivered }))

def anyPacket (_ : Packet) : Bool := true

/-! ### WRITE (R450, R212) -/

/-- The unit that reports an access to an address on behalf of another device. -/
def unitAt (a : Nat) : BitVec 16 := if a < hbmEnd then uidStack (stackOf a).val else uidDie 0 8

def oneMore (x : Incoming) : Incoming := { x with arrived := x.arrived + 1 }

/-- A copy's record has arrived: the rows of its shard that are here count up (R212 step 3). -/
def State.copyArrived (s : State) (a : Nat) : State :=
  if s.incoming.any (s.awaits a) then
    { s with incoming := s.incoming.map (fun x => if s.awaits a x then oneMore x else x) }
  else match s.armedShards.find? (s.awaits a) with
    | some x =>
      { s with early := oneMore x :: s.early.filter (fun e => decide (¬ (e.table = x.table ∧ e.shard = x.shard))) }
    | none => s

/-- The requester of a WRITE: 4 for a Transplant copy, 1 for any other (R224). -/
def State.writeRequester (s : State) (a : Nat) : Nat :=
  if s.incoming.any (s.awaits a) || s.armedShards.any (s.awaits a) then 4 else 1

/-- WRITE (R450). -/
def execWrite (s : State) : Out :=
  match s.pick .write anyPacket with
  | none => .next s
  | some (p, s) =>
    let a := p.key0.toNat
    match s.writeChecked (.req (s.writeRequester a)) a p.payload with
    | .error f => .next (s.raiseD (unitAt a) f.code f.arg0 f.arg1 0)
    | .ok s => .next (s.copyArrived a)

/-! ### ROW_REQ and ROW_RESP (R212, R213, R222, R450) -/

/-- The fields of a row request or response. -/
structure RowKeys where
  table : Nat
  row : Nat
  versionOnly : Bool
  forwarded : Bool
  status : Nat
  unit : Nat
  tag : Nat
  deriving DecidableEq, Repr

def rowKeys (p : Packet) : RowKeys :=
  let k := p.key0.toNat
  { table := bitsOf k 3 0, row := bitsOf k 47 8, versionOnly := bitOf k 48, forwarded := bitOf k 49, status := bitsOf k 51 50,
    unit := bitsOf p.key1.toNat 15 0, tag := bitsOf p.key1.toNat 47 16 }

/-- Answers a row request. -/
def State.answerRow (s : State) (p : Packet) (status : Nat) (payload : List Byte) : State :=
  s.trySend p.src .rowResp 0 (p.key0.toNat % 2 ^ 50 + status * 2 ^ 50) p.key1.toNat payload

/-- Passes a request for a moved shard to its new owner, remembering the requester (R212 step 3). -/
def State.forwardRow (s : State) (p : Packet) (dev : Nat) (unit : BitVec 16) : State :=
  let tag := s.nextRelay + (if tagSpec ≤ (rowKeys p).tag then tagSpec else 0)
  match s.sendPacket dev .rowReq 0 (p.key0.toNat ||| 2 ^ 49) (unit.toNat + tag * 2 ^ 16) [] with
  | .error f => (s.noRoute f).answerRow p 2 []
  | .ok s => { s with
      nextRelay := (s.nextRelay + 1) % tagSpec
      relays := s.relays ++ [{ tag := tag, requester := p.src, key0 := p.key0.toNat, key1 := p.key1.toNat }] }

/-- A row request at the device that its sender takes for the owner. -/
def State.serveRow (s : State) (p : Packet) (k : RowKeys) : State :=
  match s.table k.table with
  | none => s.answerRow p 2 []
  | some td =>
    match s.locate .any k.table td 0 k.row with
    | .error _ => s.answerRow p 2 []
    | .ok (dev, slot, addr) =>
      if dev = s.devNumber then
        match s.readChecked (.req 2) addr (if k.versionOnly then 16 else td.stride) with
        | .error f => (s.countUe f).answerRow p 2 []
        | .ok rec =>
          let s := s.noteRead addr (if k.versionOnly then 16 else td.stride)
          let s := if k.versionOnly then s.addSlots (stackOf addr) 1 else s.countSlots addr td.stride
          let s := if tagSpec ≤ k.tag then s else s.countRead k.table slot addr
          s.answerRow p 0 (if k.versionOnly then leBytes 2 (recVersion rec) else rec)
      else
        match s.movingShard k.table td k.row with
        | some m => s.forwardRow p m.newDevice (uidStack (stackOf (recordAddr td m.oldSlot k.row)).val)
        | none => s.answerRow p 1 []

/-- A request for a row whose copy has not arrived waits, as one does that comes before this device has entered the Season in which
it takes the shard (R212 step 3). -/
def State.rowWaits (s : State) (p : Packet) : Bool :=
  let k := rowKeys p
  match s.table k.table with
  | some td => s.rowComing k.table td k.row || s.shardAwaited k.table td k.row
  | none => false

/-- ROW_REQ (R450, R222). -/
def execRowReq (s : State) : Out :=
  match s.pick .rowReq (fun p => !s.rowWaits p) with
  | none => .next s
  | some (p, s) => .next (s.serveRow p (rowKeys p))

/-- What a response's status means to the requester. -/
def State.rowAnswer (s : State) (k : RowKeys) (payload : List Byte) : Except Fail (List Byte) :=
  if k.status = 0 then .ok payload
  else if k.status = 1 then .error (failStale k.row k.table)
  else
    match s.table k.table with
    | none => .error (failStale k.row k.table)
    | some td =>
      match s.locate .any k.table td 0 k.row with
      | .ok (_, _, addr) => .error (failAddress addr 2)
      | .error f => .error f

/-- A row asked of another device under a tag for confirmed or ordinary work: a staged row, or the member of a bag. -/
def State.asksFor (s : State) (g : Fin 32) (tag : Nat) : Bool :=
  !(s.stagedRows g (fun st => decide (st = .asked tag ∨ st = .reading tag))).isEmpty ||
    s.clusters[g].rake.jobs.any (fun j => j.bag.any (fun b => decide (b.tag = some tag)))

/-- A request of a cluster's Rake was forwarded (R212, R214): one for a read not yet confirmed counts once its gather is, and one
that has been discarded never. -/
def State.countForwarded (s : State) (g : Fin 32) (tag : Nat) : State :=
  let one := s.modRake g (fun x => { x with forwarded := wrap64 x.forwarded 1 })
  match (s.rakeItems g).find? (fun x => decide (x.2.tag = some tag)) with
  | some (j, _) =>
    if (rakeCtl j.run.q.desc).spec && !j.confirmed then s.setRakeJob g j.run { j with forwarded := j.forwarded + 1 } else one
  | none => if s.asksFor g tag then one else s

/-- ROW_RESP (R450): to the Rake that asked, or back to the device whose request was passed on. -/
def execRowResp (s : State) : Out :=
  match s.pick .rowResp anyPacket with
  | none => .next s
  | some (p, s) =>
    let k := rowKeys p
    match rakeOfUnit k.unit with
    | some g =>
      let s := if k.forwarded then s.countForwarded g k.tag else s
      .next (s.rakeAnswer g k.tag (s.rowAnswer k p.payload))
    | none =>
      match s.relays.find? (fun r => decide (r.tag = k.tag)) with
      | none => .next s
      | some r =>
        .next ({ s with relays := delFirst (fun x => decide (x = r)) s.relays }.trySend r.requester .rowResp 0
          (r.key0 % 2 ^ 49 + 2 ^ 49 + k.status * 2 ^ 50) r.key1 p.payload)

/-! ### SCATTER_ADD and REDUCE (R197, R414, R422, R450, R457) -/

/-- SCATTER_ADD (R450): a partial reaches this device's back ends. -/
def execScatterAdd (s : State) : Out :=
  match s.pick .scatterAdd anyPacket with
  | none => .next s
  | some (p, s) =>
    let k := p.key0.toNat
    .next { s with partials := s.partials ++
      [{ cluster := none, source := p.src, table := bitsOf k 43 40, row := bitsOf k 39 0, mb := bitsOf k 63 48, step := p.step,
         elems := f32s p.payload (p.payload.length / 4), free := s.modeFree }] }

def chunkOfPacket (p : Packet) : ChunkPart :=
  { group := bitsOf p.key0.toNat 7 0, first := bitsOf p.key0.toNat 47 8, root := bitsOf p.key1.toNat 14 0,
    kind := bitsOf p.key1.toNat 17 16, sender := p.src, step := p.step, elems := f32s p.payload (p.payload.length / 4) }

/-- REDUCE (R457, R458): a value on its way up waits in the staging region; a sum on its way down is taken and passed on. -/
def execReduce (s : State) : Out :=
  match s.pick .reduce anyPacket with
  | none => .next s
  | some (p, s) =>
    let c := chunkOfPacket p
    if c.kind = 2 then .next ((((s.deliverCol c.group c.first c.elems).sendDown c c.elems c.step).settleCommits).stepWaited)
    else .next ({ s with chunks := s.chunks ++ [c] }.learnGone c.root p.src)

/-! ### E2E_ACK, E2E_NAK, UNREACHABLE and the timers (R441, R452) -/

/-- E2E_ACK (R452): every packet of the flow up to ACK_PSN is acknowledged. -/
def execE2eAck (s : State) : Out :=
  match s.pick .e2eAck anyPacket with
  | none => .next s
  | some (p, s) =>
    let a := bitsOf p.key0.toNat 31 0
    let f := s.txFlow p.src (bitsOf p.key0.toNat 33 32)
    .next ((s.dropUnacked f (fun q => decide (psnAhead a q.psn < 2 ^ 31))).settleAcks)

/-- E2E_NAK (R452). -/
def execE2eNak (s : State) : Out :=
  match s.pick .e2eNak anyPacket with
  | none => .next s
  | some (p, s) => .next (s.retransmit (s.txFlow p.src (bitsOf p.key0.toNat 33 32)))

/-- The packet that an UNREACHABLE returns, with its flow. -/
def State.returned (s : State) (psn code : Nat) : Option (TxFlow × Packet) :=
  firstSome (fun f => (f.unacked.find? (fun q => decide (q.psn = psn ∧ ptypeCode q.ptype = code))).map (fun q => (f, q))) s.txFlows

/-- UNREACHABLE (R441). -/
def execUnreachable (s : State) : Out :=
  match s.pick .unreachable anyPacket with
  | none => .next s
  | some (p, s) =>
    match s.returned (bitsOf p.key0.toNat 31 0) (bitsOf p.key0.toNat 35 32) with
    | none => .next s
    | some (f, q) => .next (((s.dropUnacked f (fun x => decide (x = q))).sourceFails q).settleAcks)

/-- E2E_ACK_TIMER (R452): the i-th flow with packets not yet acknowledged. -/
def execE2eAckTimer (i : Nat) (s : State) : Out :=
  match (s.rxFlows.filter (fun f => decide (0 < f.sinceAck)))[i]? with
  | none => .next s
  | some f => .next (s.ackFlow f)

/-- E2E_TIMEOUT (R452): the i-th flow with packets unacknowledged. -/
def execE2eTimeout (i : Nat) (s : State) : Out :=
  match (s.txFlows.filter (fun f => decide (f.unacked ≠ [])))[i]? with
  | none => .next s
  | some f => .next (s.retransmit f)

end Sys2Proof.Machine
end

