-- ==== Sys2Proof/Machine/Link.lean ====
section
/-! DEFINITION. Link.lean: the fabric ports: bring-up, link keys, flits, link-level retry, transit and the egress lottery
(R432 to R448, R453, R459, R462, R539 to R541). -/

namespace Sys2Proof.Machine

/-! ### Flits (R444, R448) -/

/-- A link header. -/
def linkHeader (ftype vc : Nat) (cls : Bool) (seq ack sel credits txCount : Nat) : Word :=
  BitVec.ofNat 64 (ftype % 16 + vc % 4 * 2 ^ 4 + b2n cls * 2 ^ 6 + seq % 2 ^ 12 * 2 ^ 8 + ack % 2 ^ 12 * 2 ^ 20 +
    sel % 8 * 2 ^ 32 + credits % 2 ^ 10 * 2 ^ 35 + txCount % 2 ^ 19 * 2 ^ 45)

/-- The payloads of a packet's flits: 256 bytes each, the last padded with zero. -/
def flitPayloads : Nat → List Byte → List (List Byte)
  | 0, _ => []
  | n + 1, bs =>
    if bs.length ≤ 256 then [bs ++ List.replicate (256 - bs.length) 0] else bs.take 256 :: flitPayloads n (bs.drop 256)

def flitsOf (p : Packet) : List (List Byte) :=
  let bs := packetBytes p
  flitPayloads (bs.length / 256 + 1) bs

/-- The reduction staging regions are full (R458): the values that wait take all of their bytes. Where the manifest places
none, the least that R458 allows for each die. -/
def State.stagingFull (s : State) : Bool :=
  let rs := s.closedRegions.filter (fun r => match r.owner with
    | .reduce _ => true
    | _ => false)
  let size : Nat := if rs.isEmpty then 4 * 2 ^ 26 else (rs.map (fun r => r.length)).sum
  decide (size ≤ (s.chunks.map (fun c => 4 * c.elems.length)).sum)

/-- The credits that the next flit of a port returns (R447, R458, R460): none while its receive FIFO asserts FLOW or its channel can
take no cell, and none for VC3 while the staging region is full. -/
def State.creditsBack (s : State) (port : Fin 16) : Nat × Nat :=
  if (s.fifo { kind := .fabRx, idx := port.val }).flow || !poolCanTake s.pools[portDie port] (portChannel port) 1 then (0, 0)
  else
    match s.ports[port].owed.find? (fun x => decide (0 < x.2) && !(decide (6 ≤ x.1) && s.stagingFull)) with
    | some (sel, n) => (sel, min n 1023)
    | none => (0, 0)

/-- The IV of a port's next flit: SALT, then TX_COUNT (R448). -/
def Port.iv (x : Port) : List Byte := leBytes 4 x.salts.1.toNat ++ wordBytes x.txCount

/-- A payload as it leaves, with its tag: under the link key, once there is one (R448). -/
def Port.sealed (x : Port) (header : Word) (payload : List Byte) : List Byte × List Byte :=
  match x.keys with
  | none => (payload, [])
  | some k => gcmSeal k.1 x.iv (wordBytes header) payload

/-- TYPE of a flit (R444). -/
def flitIdle : Nat := 0
def flitHead : Nat := 1
def flitBody : Nat := 2
def flitNak : Nat := 3
def flitHello : Nat := 4
def flitKeyex : Nat := 5
def flitKeyupdate : Nat := 6

/-- A payload of 256 bytes. -/
def fullPayload (bs : List Byte) : List Byte := bs ++ List.replicate (256 - bs.length) 0

/-- Sends one flit: every flit carries acknowledgement and credits, and counts in TX_COUNT (R444, R448). `as_` says what the flit is
from its header, its payload as it leaves, and its tag. -/
def State.emitAs (s : State) (port : Fin 16) (ftype vc : Nat) (cls : Bool) (seq : Nat) (payload : List Byte)
    (as_ : Word → List Byte → List Byte → Sent) : State :=
  let x := s.ports[port]
  let c := s.creditsBack port
  let h := linkHeader ftype vc cls seq ((x.expectSeq + 4095) % 4096) c.1 c.2 x.txCount.toNat
  let y := x.sealed h payload
  (s.send (as_ h y.1 y.2)).modPort port (fun x =>
    { x with flitsTx := wrap64 x.flitsTx 1, txCount := wrap64 x.txCount 1, owed := tabSet x.owed c.1 (tabGet x.owed 0 c.1 - c.2) })

/-- The next key of a direction (R540). -/
def nextLinkKey (k : BitVec 256) : BitVec 256 := BitVec.ofNat 256 (kdfPart (kdf "WVT9-LINK-UPD" (keyBytes k) []) 0 32)

/-- Each direction's key advances and TX_COUNT restarts (R540). -/
def updateKeys (x : Port) : Port := { x with keys := x.keys.map (fun k => (nextLinkKey k.1, nextLinkKey k.2)), txCount := 0 }

/-- TX_COUNT has reached 2^46: the port rekeys, and at no later point (R448). -/
def Port.worn (x : Port) : Bool := x.keys.isSome && decide (2 ^ 46 ≤ x.txCount.toNat)

/-- The rekeying of a port is due. After a health-test failure of the entropy source no key is generated (R521). -/
def State.portWorn (s : State) (port : Fin 16) : Bool := s.ports[port].worn && !s.rot.halted

/-- KEYUPDATE goes out and the keys advance (R448, R540). -/
def State.rekey (s : State) (port : Fin 16) : State :=
  (s.emitAs port flitKeyupdate 0 false 0 (fullPayload []) (fun h _ t => .keyupdate port.val h t)).modPort port updateKeys

/-- Sends a flit, after the rekeying that is due. -/
def State.emit (s : State) (port : Fin 16) (ftype vc : Nat) (cls : Bool) (seq : Nat) (payload : List Byte)
    (as_ : Word → List Byte → List Byte → Sent) : State :=
  (if s.portWorn port then s.rekey port else s).emitAs port ftype vc cls seq payload as_

/-- Sends a HEAD or BODY flit. -/
def State.emitFlit (s : State) (port : Fin 16) (head : Bool) (vc : Nat) (cls : Bool) (seq : Nat) (payload : List Byte) : State :=
  s.emit port (if head then flitHead else flitBody) vc cls seq payload (.flit port.val)

/-- Sends an IDLE flit, which carries acknowledgement and credits alone. -/
def State.emitIdle (s : State) (port : Fin 16) : State := s.emit port flitIdle 0 false 0 (fullPayload []) (.flit port.val)

/-- Sends the NAK that names the SEQ expected (R445). -/
def State.emitNak (s : State) (port : Fin 16) : State :=
  let seq := s.ports[port].expectSeq
  s.emit port flitNak 0 false 0 (fullPayload (leBytes 2 seq)) (fun h _ t => .nakFlit port.val seq h t)

/-- Sends a payload of the key exchange (R539). -/
def State.emitKeyex (s : State) (port : Fin 16) (payload : List Byte) : State :=
  s.emit port flitKeyex 0 false 0 payload (fun h _ _ => .keyex port.val payload h)

/-! ### What leaves a port (R446) -/

/-- The flits that an ACK_SEQ acknowledges: those up to it, if it is among them. -/
def ackedFlits (seq : Nat) (fs : List TxFlit) : List TxFlit :=
  match fs.findIdx? (fun f => decide (f.seq = seq)) with
  | some i => fs.take (i + 1)
  | none => []

/-- Acknowledged flits leave the replay buffer; a transit packet whose last flit is acknowledged frees its cells. -/
def State.linkAck (s : State) (port : Fin 16) (seq : Nat) : State :=
  let x := s.ports[port]
  let gone := ackedFlits seq x.replay
  let open_ := x.retryTx.any (fun q => !gone.any (fun f => decide (f.seq = q)))
  let s := s.modPort port (fun y => { y with replay := y.replay.drop gone.length, retryTx := if open_ then y.retryTx else none })
  (gone.filter (fun f => decide (f.idx + 1 = (flitsOf f.entry.packet).length))).foldl (fun s f => s.giveEntry f.entry) s

/-- The acknowledgement and the credits that a received flit carries (R444). -/
def State.carryIn (s : State) (port : Fin 16) (c : LinkCarry) : State :=
  (s.modPort port (fun x =>
    { x with credits := tabSet x.credits c.creditSel.val (tabGet x.credits 0 c.creditSel.val + c.credits) })).linkAck port c.ackSeq

/-- A flit of the link itself is accepted: it counts, with the codewords corrected in it and what it carries. -/
def State.takeCarry (s : State) (rx : LinkRx) : State :=
  (s.modPort rx.port (fun x =>
    { x with flitsRx := wrap64 x.flitsRx 1, fecCorrected := wrap64 x.fecCorrected rx.fixed })).carryIn rx.port rx.carry

/-- Sends flits again, in their order (R445, R446). -/
def State.resend (s : State) (port : Fin 16) (fs : List TxFlit) : State :=
  fs.foldl (fun s f =>
    (s.emitFlit port (decide (f.idx = 0)) f.entry.packet.fvc f.entry.cls f.seq ((flitsOf f.entry.packet).getD f.idx [])).modPort
      port (fun x => { x with replays := wrap64 x.replays 1 })) s

/-! ### Packets with no route, and ports that go down (R441, R453) -/

/-- The packet sent last to a device counts as re-routed: recovery stays open while this device holds it (R441, R453). -/
def State.markMoved (s : State) (dst : Nat) : State :=
  let psn := s.lastPsn dst 1
  { s with ports := s.ports.map (fun x => { x with txQueue := x.txQueue.map (fun e =>
      if e.packet.dst = dst ∧ e.packet.src = s.devNumber ∧ e.packet.fvc = 1 ∧ e.packet.psn = psn then { e with rerouted := true } else e) }) }

/-- A packet that has no route left goes back to its source as UNREACHABLE, a route change (R112). -/
def State.returnPacket (s : State) (die : Fin 2) (e : TxEntry) : State :=
  let s := ((s.giveEntry e).modPool die (fun x => { x with unreachable := wrap64 x.unreachable 1 })).openRecovery .route
  let p := e.packet
  if p.src = s.devNumber then (s.dropUnacked (s.txFlow p.dst p.fvc) (fun q => decide (q = p))).sourceFails p
  else (s.trySend p.src .unreachable 0 (p.psn % 2 ^ 32 + ptypeCode p.ptype * 2 ^ 32) 0 []).markMoved p.src

/-- The packets of a replay buffer, each once, in order. -/
def replayEntries (fs : List TxFlit) : List TxEntry :=
  fs.foldl (fun es f => if es.getLast? = some f.entry ∧ f.idx ≠ 0 then es else es ++ [f.entry]) []

/-- Re-routes every packet queued for a port or not acknowledged at link level, in order (R453). -/
def State.reroute (s : State) (port : Fin 16) : State :=
  let x := s.ports[port]
  let es := replayEntries x.replay ++ x.txQueue
  let s := s.modPort port (fun y => { y with replay := [], txQueue := [] })
  es.foldl (fun s e =>
    let side := if e.inRole.isSome then port.val / 8 else flowSide e.packet.src e.packet.dst e.packet.fvc
    match s.queueEntry e side true with
    | some s => s
    | none => s.returnPacket (portDie port) e) s

/-- Causes outside the device, which call for no replacement: no light, swapped fibres, a missing clock (R576). -/
def darkCode (code : Nat) : Bool := decide (code = 0x0901 ∨ code = 0x0902 ∨ code = 0x0907)

/-- A port goes DOWN; `code` is the event that says why. -/
def State.portDown (s : State) (port : Fin 16) (code : Nat) : State :=
  let was := s.ports[port].width
  let s := s.modPort port (fun x =>
    { x with state := .down, step := .none, lanesUp := 0, width := 0, keyex := .none, keys := none, keepKeys := false,
             retryRx := none, retryTx := none, failures := 0, failuresTx := 0, narrow := x.narrow || (x.wasUp && !darkCode code) })
  let s := (s.reroute port).settleRecovery
  if was = 0 then s else s.capacityChange (uidPort port.val) (BitVec.ofNat 16 code)

/-- Steps 2, 3 and 6 again, with the keys kept (R443). -/
def State.retrain (s : State) (port : Fin 16) : State :=
  s.modPort port (fun x => { x with state := .training, step := .pma, keepKeys := true, failures := 0, failuresTx := 0 })

/-- A port is MISWIRED (R442, R541); `why`: 0 HELLO, 1 identity. -/
def State.miswire (s : State) (port : Fin 16) (dev peerPort why : Nat) : State :=
  ((s.modPort port (fun x => { x with state := .miswired, step := .none })).raiseD (uidPort port.val) 0x0903 port.val
    (dev % 2 ^ 15 + peerPort % 16 * 2 ^ 16) why).capacityChange (uidPort port.val) 0x0903

/-! ### Bring-up (R442, R443) -/

/-- A fabric port whose bed is on. -/
def State.portOn (s : State) (port : Fin 16) : Bool := s.bedOn (bedPort port.val)

/-- A port that waits at a step of its bring-up. -/
def State.portAt (s : State) (port : Fin 16) (st : PortStep) : Bool :=
  s.portOn port && decide (s.ports[port].state = .training) && decide (s.ports[port].step = st)

/-- NO_LIGHT (R442 step 1, R567). -/
def execNoLight (port : Fin 16) (onTransmitFibre : Bool) (s : State) : Out :=
  if s.portAt port .pma then
    let code := if onTransmitFibre then 0x0902 else 0x0901
    .next ((s.portDown port code).raiseD (uidPort port.val) code port.val 0 0)
  else .next s

/-- The number of lanes in a mask. -/
def laneCount (m : Byte) : Nat := ((List.range 8).map (fun i => b2n (bitOf m.toNat i))).sum

/-- A change of width (R443): its count, its event and a change of capacity. -/
def State.setWidth (s : State) (port : Fin 16) (lanes : Byte) : State :=
  let w := laneCount lanes
  let was := s.ports[port].width
  let fell := decide (w < 8)
  let s := s.modPort port (fun x =>
    { x with lanesUp := lanes, width := w, narrow := x.narrow || (x.wasUp && fell), widthChanges := if w ≠ was ∧ fell then wrap64 x.widthChanges 1 else x.widthChanges })
  if w = was then s
  else
    let s := if fell then s.raiseD (uidPort port.val) 0x0905 port.val w lanes.toNat else s
    s.capacityChange (uidPort port.val) 0x0905

/-- PMA_TRAINING_DONE (R433, R442 step 2, R564): the lane map is reported once per bring-up. -/
def execPmaTrainingDone (port : Fin 16) (lanes : BitVec 8) (inverted : BitVec 8) (reversed : Bool) (s : State) : Out :=
  if s.portAt port .pma then
    let again := s.ports[port].keepKeys
    let good := if again then lanes &&& s.ports[port].lanesGood else lanes
    let s := if !again ∧ (inverted ≠ 0 ∨ reversed) then
        s.raiseD (uidPort port.val) 0x0906 port.val inverted.toNat (b2n reversed) else s
    let s := s.modPort port (fun x => { x with lanesGood := good, step := .fec })
    if good ≠ 0 then .next s
    else if s.ports[port].width = 0 then .next ((s.portDown port 0x0905).raiseD (uidPort port.val) 0x0905 port.val 0 0)
    else .next ((s.setWidth port 0).portDown port 0x0905)
  else .next s

/-- The reservation of a port's channel (R447). -/
def State.portReserve (s : State) (port : Fin 16) : Nat := (s.pools[portDie port]).reserve[portChannel port]

/-- Credits are granted and the port is UP (R442 step 6, R447); after a retrain the unacknowledged flits go out again. -/
def State.portUpNow (s : State) (port : Fin 16) : State :=
  let again := s.ports[port].keepKeys
  let s := { s with gone := [] }
  let n := s.portReserve port / 8
  let s := s.modPort port (fun x =>
    { x with state := .up, step := .none, wasUp := true, narrow := decide (x.width < 8), keepKeys := false, failures := 0, failuresTx := 0,
             credits := (List.range 8).map (fun i => (i, n)), owed := [] })
  if again then (s.resend port s.ports[port].replay) else s.modPort port (fun x =>
    { x with nextSeq := 0, expectSeq := 0, replay := [], rxParts := [] })

/-- The role of a port and the neighbour that R434 requires. -/
def portRole (port : Fin 16) : Nat := port.val % 8
/-- DEV_NUMBER and SHAPE as the port's FAB bed took them (R464). -/
def State.portDev (s : State) (port : Fin 16) : Nat := s.ports[port].fab.1
def State.portShape (s : State) (port : Fin 16) : Nat := s.ports[port].fab.2.1
def State.neighbour (s : State) (port : Fin 16) : Nat := roleNeighbour (s.portShape port) (s.portDev port) (portRole port)

/-- The manifest in force lists a device's identity digest (R541). -/
def State.peerListed (s : State) (dev : Nat) (digest : BitVec 512) : Bool :=
  (s.job.inForce.map (·.peers)).getD [] |>.any (fun x => decide (x.1 = dev ∧ x.2 = digest))

/-- A peer that a running job does not list (R541). -/
def State.peerBarred (s : State) (dev : Nat) (digest : BitVec 512) : Bool := s.jobRuns && !s.peerListed dev digest

/-- FEC_LOCK (R442 step 3, R443). -/
def execFecLock (port : Fin 16) (s : State) : Out :=
  if s.portAt port .fec then
    let s := s.setWidth port s.ports[port].lanesGood
    let x := s.ports[port]
    if x.keepKeys then
      if s.peerBarred x.peerDev x.peerDigest then .next (s.miswire port x.peerDev x.peerPort 1) else .next (s.portUpNow port)
    else
      let s := s.modPort port (fun x => { x with step := .hello })
      let digest := ownDigestW
      .next (s.emit port flitHello 0 false 0 [] (fun h _ _ =>
        .hello port.val (s.portDev port) (portRole port) (s.portShape port) digest h))
  else .next s

/-- HELLO (R442 step 4, R434): the peer is the required neighbour, at the opposite role on the same side, under the same
shape. -/
def execHello (rx : LinkRx) (dev : Nat) (peerPort : Fin 16) (role : Nat) (shape : Nat) (digest : BitVec 512) (s : State) : Out :=
  let port := rx.port
  if s.portAt port .hello then
    let s := (s.takeCarry rx).modPort port (fun x => { x with peerDev := dev, peerPort := peerPort.val, peerDigest := digest })
    let opp := roleOpposite (portRole port)
    if dev = s.neighbour port ∧ role = opp ∧ peerPort.val = opp + 8 * (port.val / 8) ∧ shape = s.portShape port then
      if s.peerBarred dev digest then .next (s.miswire port dev peerPort.val 1)
      else .next ((s.modPort port (fun x => { x with state := .keying, step := .none, keyex := .none })).emitKeyex port
        identityCert)
    else .next (s.miswire port dev peerPort.val 0)
  else .next s

/-! ### Link keys (R539, R540) -/

/-- The end with the lower DEV_NUMBER initiates. -/
def State.initiates (s : State) (port : Fin 16) : Bool := decide (s.portDev port < s.ports[port].peerDev)

/-- The transcript of steps 1 to 3, the initiator's payload first. -/
def State.transcript (s : State) (port : Fin 16) : List Byte :=
  let k := s.ports[port].keyex
  let own := identityCert
  let peer := k.cert.getD []
  (if s.initiates port then own ++ peer else peer ++ own) ++ k.ek.getD [] ++ k.ct.getD []

/-- This device's signature over them (step 4). -/
def State.linkSignature (s : State) (port : Fin 16) : List Byte := s.signUnder "WVT9-LINK" (s.transcript port)

/-- The keys of R540: sent key, received key, sent salt, received salt. -/
def State.linkKeys (s : State) (port : Fin 16) (secret : BitVec 256) (peerSig : List Byte) :
    (BitVec 256 × BitVec 256) × (U32 × U32) :=
  let own := s.linkSignature port
  let t := s.transcript port ++ (if s.initiates port then own ++ peerSig else peerSig ++ own)
  let out := kdf "WVT9-LINK" (keyBytes secret) (sha3_512 t)
  let salt := kdf "WVT9-LINK-SALT" (keyBytes secret) (sha3_512 t)
  let ir : BitVec 256 := BitVec.ofNat 256 (kdfPart out 0 32)
  let ri : BitVec 256 := BitVec.ofNat 256 (kdfPart out 32 32)
  let si : U32 := BitVec.ofNat 32 (kdfPart salt 0 4)
  let sr : U32 := BitVec.ofNat 32 (kdfPart salt 4 4)
  if s.initiates port then ((ir, ri), (si, sr)) else ((ri, ir), (sr, si))

/-- The exchange fails at a step (R539). -/
def State.keyexFail (s : State) (port : Fin 16) (step : Nat) : State :=
  (s.portDown port 0x0904).raiseD (uidPort port.val) 0x0904 port.val step 0

def State.modKeyex (s : State) (port : Fin 16) (f : Keyex → Keyex) : State :=
  s.modPort port (fun x => { x with keyex := f x.keyex })

/-- The peer's certificate (step 1); the initiator then sends its key (step 2). -/
def State.takeCert (s : State) (port : Fin 16) (bytes : List Byte) : State :=
  if s.ports[port].keyex.cert.isSome then s
  else if !s.certOk bytes ∨ identityDigest bytes ≠ s.ports[port].peerDigest then s.keyexFail port 1
  else
    let s := s.modKeyex port (fun k => { k with cert := some bytes })
    if s.initiates port then
      let n := s.free
      let ek := kemKey n
      ({ s with free := n + 1 }.modKeyex port (fun k => { k with ek := some ek, draw := n })).emitKeyex port ek
    else s

/-- The initiator's key at the responder (step 3): the ciphertext goes out, and the signature after it. -/
def State.takeEk (s : State) (port : Fin 16) (bytes : List Byte) : State :=
  let k := s.ports[port].keyex
  if s.initiates port ∨ k.cert.isNone ∨ k.ek.isSome then s
  else
    let n := s.free
    let x := encaps bytes n
    let s := { s with free := n + 1 }.modKeyex port (fun k => { k with ek := some bytes, ct := some x.2, secret := some x.1 })
    (s.emitKeyex port x.2).emitKeyex port (s.linkSignature port)

/-- The ciphertext at the initiator; its signature goes out. -/
def State.takeCt (s : State) (port : Fin 16) (bytes : List Byte) : State :=
  let k := s.ports[port].keyex
  if !s.initiates port ∨ k.ek.isNone ∨ k.ct.isSome then s
  else
    let s := s.modKeyex port (fun k => { k with ct := some bytes, secret := some (Config.decaps k.draw bytes) })
    s.emitKeyex port (s.linkSignature port)

/-- The peer's signature over the transcript, by the key of its certificate (step 4). -/
def State.peerSigned (s : State) (port : Fin 16) (sig : List Byte) : Bool :=
  dsaVerify (Config.certKey (s.ports[port].keyex.cert.getD [])) "WVT9-LINK" (s.transcript port) sig

/-- The peer's signature (step 4): the keys are installed and the port is UP, unless the running job bars the peer (R541). -/
def State.takeSig (s : State) (port : Fin 16) (bytes : List Byte) : State :=
  match s.ports[port].keyex.secret with
  | none => s
  | some ss =>
    if !s.peerSigned port bytes then s.keyexFail port 4
    else
      let x := s.ports[port]
      if s.peerBarred x.peerDev x.peerDigest then s.miswire port x.peerDev x.peerPort 1
      else
        let k := s.linkKeys port ss bytes
        (s.modPort port (fun x => { x with keys := some k.1, salts := k.2, txCount := 0, keyex := .none })).portUpNow port

/-- KEYEX (R539, R540, R442 steps 5 and 6). -/
def execKeyex (rx : LinkRx) (msg : KeyexMsg) (s : State) : Out :=
  let port := rx.port
  if s.portOn port ∧ s.ports[port].state = .keying ∧ !s.rot.halted then
    let s := s.takeCarry rx
    match msg with
    | .cert bytes => .next (s.takeCert port bytes)
    | .encapKey bytes => .next (s.takeEk port bytes)
    | .ciphertext bytes => .next (s.takeCt port bytes)
    | .signature bytes => .next (s.takeSig port bytes)
  else .next s

/-- A port that is UP. -/
def State.portLive (s : State) (port : Fin 16) : Bool := s.portOn port && decide (s.ports[port].state = .up)

/-- REKEY (R448): at a TX_COUNT of 2^46 KEYUPDATE goes out and the keys advance. -/
def execRekey (port : Fin 16) (s : State) : Out :=
  if s.portLive port ∧ s.portWorn port then .next (s.rekey port) else .next s

/-- KEYUPDATE (R540). -/
def execKeyupdate (rx : LinkRx) (s : State) : Out :=
  if s.portLive rx.port then
    let s := s.takeCarry rx
    .next ((if s.rot.halted then s else s.modPort rx.port updateKeys).settleRecovery)
  else .next s

/-! ### Lanes lost and the retry limit (R443, R445) -/

/-- LANE_LOSS (R443). -/
def execLaneLoss (port : Fin 16) (lost : BitVec 8) (s : State) : Out :=
  let left := s.ports[port].lanesUp &&& ~~~lost
  if !s.portLive port ∨ left = s.ports[port].lanesUp then .next s
  else
    let s := s.setWidth port left
    let s := s.modPort port (fun x => { x with lanesGood := left })
    .next (if left = 0 then s.portDown port 0x0905 else s.retrain port)

/-- LINK_RETRY_LIMIT (R445). -/
def execLinkRetryLimit (port : Fin 16) (s : State) : Out :=
  if s.portLive port ∧ s.objNum 0x6010 2 ≤ max s.ports[port].failures s.ports[port].failuresTx then .next (s.retrain port) else .next s

/-- NAK (R445, R446): what the peer has is acknowledged, and the rest goes out again. -/
def execNak (rx : LinkRx) (seq : Nat) (s : State) : Out :=
  let port := rx.port
  if s.portLive port then
    let s := (s.takeCarry rx).linkAck port ((seq + 4095) % 4096)
    let x := s.ports[port]
    let fs := x.replay.dropWhile (fun f => decide (f.seq ≠ seq % 4096))
    if fs = [] then .next s.settleRecovery
    else
      let n := if x.retryTx = some (seq % 4096) then x.failuresTx + 1 else 1
      let s := (s.modPort port (fun x => { x with retryTx := some (seq % 4096), failuresTx := n })).openRecovery .retry
      .next (s.resend port fs)
  else .next s

/-! ### FLIT_RECEIVE (R438 to R441, R445 to R447, R451, R453, R459) -/

/-- A damaged flit is discarded, and NAK names the SEQ expected (R445, R448). -/
def State.badFlit (s : State) (port : Fin 16) (tag : Bool) : State :=
  let s := s.modPort port (fun x =>
    { x with tagFails := wrap64 x.tagFails (b2n tag), fecUncorrected := wrap64 x.fecUncorrected (b2n (!tag)),
             failures := x.failures + 1, retryRx := some (x.retryRx.getD x.expectSeq) })
  (s.openRecovery .retry).emitNak port

/-- A packet in transit leaves by the link die it arrived on (R439). -/
def State.transit (s : State) (port : Fin 16) (cls : Bool) (p : Packet) : State :=
  let n := cellsOf p
  let s := s.modPool (portDie port) (fun x => poolTake x (portChannel port) n)
  let charged := some (16 * (portDie port).val + (portChannel port).val)
  let e : TxEntry :=
    { packet := p, inRole := some (portRole port), inCls := cls, cls := cls, charged := charged, crossed := false, rerouted := false }
  match s.queueEntry e (port.val / 8) false with
  | some s => s
  | none => s.returnPacket (portDie port) e

/-- A packet for this device passes through the pool (R459). -/
def State.arriveHere (s : State) (port : Fin 16) (cls : Bool) (p : Packet) : State :=
  let n := cellsOf p
  let s := s.modPool (portDie port) (fun x => poolTake x (portChannel port) n)
  let s := s.giveCells (some (16 * (portDie port).val + (portChannel port).val)) true (creditSel p.fvc cls) n
  s.receiveHere (portDie port).val (portChannel port).val p

/-- A whole packet has arrived. -/
def State.packetIn (s : State) (port : Fin 16) (cls : Bool) (p : Packet) : State :=
  if p.dst = s.portDev port then s.arriveHere port cls p else s.transit port cls p

/-- The bytes of a packet that a flit joins, its own included; `none` where it belongs to no packet. -/
def Port.joined (x : Port) (f : Flit) : Option (List Byte) :=
  match f.ftype with
  | .head => some f.payload
  | _ => (tabFind x.rxParts (creditSel f.vc.val f.cls)).map (· ++ f.payload)

/-- The packet that a flit ends. -/
def Port.ends (x : Port) (f : Flit) : Option Packet :=
  ((x.joined f).filter (fun bs => decide (packetLength bs ≤ bs.length))).bind packetOf

/-- The pool takes the packet that a flit ends: a sender that keeps to its credits always finds room (R447, R460). -/
def State.roomFor (s : State) (port : Fin 16) (f : Flit) : Bool :=
  ((s.ports[port].ends f).filter (fun p => decide (cellsOf p ≠ 0))).all (fun p =>
    poolCanTake s.pools[portDie port] (portChannel port) (cellsOf p))

/-- A flit in order of a packet (R444): its payload joins those before it. -/
def State.flitIn (s : State) (port : Fin 16) (f : Flit) : State :=
  let key := creditSel f.vc.val f.cls
  let y := s.ports[port]
  let s := s.modPort port (fun x =>
    { x with expectSeq := (x.expectSeq + 1) % 4096, failures := 0, retryRx := if x.retryRx = some f.seq then none else x.retryRx })
  match y.joined f with
  | none => s
  | some bs =>
    if packetLength bs ≤ bs.length then
      let s := s.modPort port (fun x => { x with rxParts := tabDel x.rxParts key })
      match y.ends f with
      | some p => s.packetIn port f.cls p
      | none => s
    else s.modPort port (fun x => { x with rxParts := tabSet x.rxParts key bs })

/-- What a flit carried besides its purpose, and its count once it is accepted. -/
def flitCarry (f : Flit) : LinkCarry := { ackSeq := f.ackSeq, creditSel := f.creditSel, credits := f.credits }
def State.countFlit (s : State) (port : Fin 16) : State := s.modPort port (fun x => { x with flitsRx := wrap64 x.flitsRx 1 })

/-- A flit that passed its checks: its acknowledgement and its credits, then what it carries. One for whose packet the channel can
take no cell is not accepted: the sender had no credits for it (R460). -/
def State.goodFlit (s : State) (port : Fin 16) (f : Flit) (fixed : Nat) : State :=
  let s := (s.modPort port (fun x => { x with fecCorrected := wrap64 x.fecCorrected fixed })).carryIn port (flitCarry f)
  match f.ftype with
  | .idle => s.countFlit port
  | _ => if f.seq = s.ports[port].expectSeq ∧ s.roomFor port f then (s.countFlit port).flitIn port f else s

/-- FLIT_RECEIVE (R445). -/
def execFlitReceive (port : Fin 16) (flit : Flit) (s : State) : Out :=
  if s.portLive port ∧ s.bedOn (bedHost (port.val / 8)) then
    match flit.check with
    | .fecBad => .next (s.badFlit port false)
    | .tagBad => .next (s.badFlit port true)
    | .clean => .next ((s.goodFlit port flit 0).settleRecovery)
    | .corrected n => .next ((s.goodFlit port flit n).settleRecovery)
  else .next s

/-! ### The egress of a port (R440, R447, R452, R459, R460, R462) -/

/-- The requester of a port's arbiter that an entry belongs to: the channel it came through on the port's own link die, or
8 for what comes from the compute dies. -/
def entryRequester (port : Fin 16) (e : TxEntry) : Nat :=
  match e.charged with
  | some x => if x / 16 = port.val / 8 then x % 16 else 8
  | none => 8

/-- The pool keeps a packet of this device already. -/
def Pool.keeps (x : Pool) (p : Packet) : Bool := x.kept.any (fun k => decide (k.dst = p.dst ∧ k.fvc = p.fvc ∧ k.psn = p.psn))

def State.keptAnywhere (s : State) (p : Packet) : Bool := s.pools.toList.any (fun x => x.keeps p)

/-- A packet that takes cells of the channel it leaves by: one of this device, or one that crossed the compute dies (R459). -/
def State.needsCells (s : State) (e : TxEntry) : Bool :=
  e.charged.isNone && decide (cellsOf e.packet ≠ 0) && (e.crossed || !s.keptAnywhere e.packet)

/-- Whether an entry can leave: credits, room for replay, cells. -/
def State.entryReady (s : State) (port : Fin 16) (e : TxEntry) : Bool :=
  let x := s.ports[port]
  let n := (flitsOf e.packet).length
  (decide (e.packet.fvc = 2) || decide (n ≤ tabGet x.credits 0 (creditSel e.packet.fvc e.cls))) &&
    decide (x.replay.length + n ≤ 2048) &&
    (!s.needsCells e || poolCanTake (s.pools[portDie port]) (portChannel port) (cellsOf e.packet))

/-- The oldest entry of a requester on a virtual channel and in a class: each pair has its own buffer (R440). -/
def State.headOf (s : State) (port : Fin 16) (vc r : Nat) (cls : Bool) : Option TxEntry :=
  s.ports[port].txQueue.find? (fun e => decide (e.packet.fvc = vc ∧ entryRequester port e = r ∧ e.cls = cls))

/-- The entry that a requester can send on a virtual channel. -/
def State.firstEntry (s : State) (port : Fin 16) (vc r : Nat) : Option TxEntry :=
  firstSome (fun cls => (s.headOf port vc r cls).filter (s.entryReady port)) [false, true]

/-- The requesters that can send on a virtual channel, none while the transmit FIFO asserts FLOW (R58); the others wait for VC2
(R447). -/
def State.portAsking (s : State) (port : Fin 16) (vc : Nat) (asks : List Ask) : List Ask :=
  if (s.fifo { kind := .fabTx, idx := port.val }).flow ∨
     (vc ≠ 2 ∧ (List.range 9).any (fun r => (s.firstEntry port 2 r).isSome)) then []
  else asks.filter (fun k => (s.firstEntry port vc k.requester.val).isSome)

/-- Sends a packet's flits, which stay for replay. -/
def State.transmit (s : State) (port : Fin 16) (e : TxEntry) : State :=
  let fs := flitsOf e.packet
  let sel := creditSel e.packet.fvc e.cls
  let out : TxEntry := if s.needsCells e && e.crossed then
      { e with charged := some (16 * (portDie port).val + (portChannel port).val) } else e
  let s := if s.needsCells e then s.modPool (portDie port) (fun x =>
      { poolTake x (portChannel port) (cellsOf e.packet) with kept := if e.crossed then x.kept else x.kept ++
          [{ dst := e.packet.dst, fvc := e.packet.fvc, psn := e.packet.psn, channel := (portChannel port).val }] }) else s
  let s := s.modPort port (fun x =>
    { x with txQueue := delFirst (fun y => decide (y = e)) x.txQueue,
             credits := if e.packet.fvc = 2 then x.credits else tabSet x.credits sel (tabGet x.credits 0 sel - fs.length) })
  fs.zipIdx.foldl (fun s f =>
    let seq := s.ports[port].nextSeq
    (s.emitFlit port (decide (f.2 = 0)) e.packet.fvc e.cls seq f.1).modPort port (fun x =>
      { x with nextSeq := (seq + 1) % 4096, replay := x.replay ++ [{ seq := seq, entry := out, idx := f.2 }] })) s

/-- LOTTERY_DECISION (R225 to R228, R231, R462). At a fabric port the winner's packet leaves, and the grant ends with it; where
there is none the link carries an IDLE flit (R444). A pseudo-channel decides once its transfer has ended (R227). -/
def execLotteryDecision (arb : ArbId) (asks : List Ask) (s : State) : Out :=
  if !s.arbLive arb then .next s
  else
    match arb with
    | .port p vc =>
      if !s.portLive p then .next s
      else
        match s.arbDecide arb (s.portAsking p vc.val asks) with
        | none => .next (s.emitIdle p)
        | some (r, s) =>
          match s.firstEntry p vc.val r with
          | none => .next s
          | some e => .next ((s.transmit p e).setArb arb { s.arb arb with grant := none })
    | .channel _ _ =>
      if (s.arb arb).grant.isSome then .next s else .next (s.arbNext arb asks)
    | _ => .next (s.arbNext arb asks)

end Sys2Proof.Machine
end

