-- ==== Sys2Proof/Machine/Oscillator.lean ====
section
/-! DEFINITION. Oscillator.lean: trim, retrim and the rate monitor (R50 to R56, R629). -/

namespace Sys2Proof.Machine

/-- The count of step 3 at zero error: 65,536 crystal cycles of 40 ticks. -/
def trimNominal : Nat := 2621440

/-- The count of step 2 at zero error: 4,096 crystal cycles of 40 ticks. -/
def windowNominal : Nat := 163840

/-- The magnitude of the error of a count is at most 30 ppm: |count - 2,621,440| / 2.62144 ≤ 30. -/
def trimWithin30 (count : Nat) : Bool :=
  decide (((count : Int) - 2621440).natAbs * 100000 ≤ 30 * 262144)

/-- The error is below -30 ppm. -/
def trimBelow (count : Nat) : Bool := decide (count < 2621440) && !trimWithin30 count

/-- ERROR for a count (R55): units of 0.1 ppm, saturating, 0x8000 for a count of zero. The direction of rounding is
open (log entry 9): `up` is a free choice, used only where the quotient is not whole. -/
def trimError (count : Nat) (up : Bool) : BitVec 16 :=
  if count = 0 then 0x8000
  else
    let n : Int := ((count : Int) - 2621440) * 1000000
    let q : Int := n.fdiv 262144
    let v : Int := if up ∧ n.fmod 262144 ≠ 0 then q + 1 else q
    if 32767 ≤ v then 0x7FFF else if v ≤ -32767 then 0x8001 else BitVec.ofInt 16 v

/-- Sets or clears a bit of TRIM_CODE. -/
def trimBit (code : BitVec 12) (b : Nat) (v : Bool) : BitVec 12 :=
  if v then code ||| (1#12 <<< b) else code &&& ~~~(1#12 <<< b)

/-- The trim begins (R51 step 1): TRIM_CODE 0x800 has the first bit under test set. -/
def trimStart (o : Osc) : Osc :=
  { o with trimCode := 0x800, trimState := .trimming, phase := .window 11, trimmed := false }

/-- A window of step 2 ends: the bit under test is cleared if the count exceeds 163,840, and the next bit is set. -/
def trimWindowOsc (count : Nat) (b : Fin 12) (o : Osc) : Osc :=
  let kept := trimBit o.trimCode b (decide (count ≤ windowNominal))
  match h : b.val with
  | 0 => { o with trimCode := kept, phase := .measure true }
  | n + 1 => { o with trimCode := trimBit kept n true, phase := .window ⟨n, by omega⟩ }

/-- Step 4 asks for one more measurement (R51). -/
def trimRepeats (count : Nat) (mayRepeat : Bool) (o : Osc) : Bool :=
  mayRepeat && trimBelow count && decide (count ≠ 0) && decide (o.trimCode.toNat < 0xFFF)

/-- Steps 4 and 5 without a repeat: LOCKED or FAILED, and the anchors. -/
def trimEndOsc (count : Nat) (up : Bool) (rtc : Word) (o : Osc) : Osc :=
  { o with error := trimError count up, trimState := if trimWithin30 count then .locked else .failed,
           phase := .idle, anchorTick := o.tick, anchorRtc := rtc, trimmed := true }

/-- TRIM_WINDOW_END (R51). -/
def execTrimWindowEnd (cluster : Fin 32) (count : Nat) (s : State) : Out :=
  if s.clusterOn cluster then
    match s.clusters[cluster].osc.phase with
    | .window b => .next (s.modOsc cluster (trimWindowOsc count b))
    | _ => .next s
  else .next s

/-- TRIM_MEASURE_END (R51 steps 3 to 6, R56). -/
def execTrimMeasureEnd (cluster : Fin 32) (count : Nat) (s : State) : Out :=
  if s.clusterOn cluster then
    match s.clusters[cluster].osc.phase with
    | .measure again =>
      let (w, s) := s.freshWord
      let up := w.getLsbD 0
      if trimRepeats count again s.clusters[cluster].osc then
        .next (s.modOsc cluster (fun o => { o with error := trimError count up, trimCode := o.trimCode + 1,
                                                   phase := .measure false }))
      else
        let s := s.modOsc cluster (trimEndOsc count up s.aon.rtc)
        let o := s.clusters[cluster].osc
        if trimWithin30 count then .next s
        else .next (s.raiseC cluster (uidCluster cluster 7) 0x0701 o.trimCode.toNat o.error.toNat cluster.val)
    | _ => .next s
  else .next s

/-- One step of TRIM_CODE toward zero error (R54, R629: a higher code is a higher frequency). -/
def retrimCode (count : Nat) (c : BitVec 12) : BitVec 12 :=
  if trimWithin30 count then c
  else if trimBelow count then (if c.toNat < 0xFFF then c + 1 else c)
  else if 0 < c.toNat then c - 1 else c

/-- AUTO_RETRIM (R54): with auto-retrim enabled and no trim under way. -/
def execAutoRetrim (cluster : Fin 32) (count : Nat) (s : State) : Out :=
  let o := s.clusters[cluster].osc
  if s.clusterOn cluster ∧ s.objNum 0x4021 1 ≠ 0 ∧ o.trimmed ∧ o.phase = .idle then
    let (w, s) := s.freshWord
    .next (s.modOsc cluster (fun o => { o with error := trimError count (w.getLsbD 0),
                                               trimCode := retrimCode count o.trimCode }))
  else .next s

/-- A write of 1 to TRIM_REQ (R54, R56). -/
def trimRequest (cluster : Fin 32) (s : State) : State :=
  if s.clusters[cluster].osc.trimState = .trimming then s
  else s.modOsc cluster (fun o => { o with trimState := .trimming, phase := .measure true })

/-- TRIM_REQ (R56): the register is reached only while the cluster's bed is on and it is not fenced (R33, R34). -/
def execTrimReq (cluster : Fin 32) (s : State) : Out :=
  if s.clusterOn cluster ∧ !s.clusterFenced cluster then .next (trimRequest cluster s) else .next s

/-- RATE_MON_UPDATE (R55). -/
def execRateMonUpdate (cluster : Fin 32) (f : BitVec 16) (s : State) : Out :=
  if s.clusterOn cluster then .next (s.modOsc cluster (fun o => { o with rateMon := f })) else .next s

end Sys2Proof.Machine
end

