-- ==== Sys2Proof/Machine/Beds.lean ====
section
/-! DEFINITION. Beds.lean: power beds, the bed sequencer, what a bed's units lose and take, measurement of firmware parts,
and CLUSTER resets (R579 to R589, R601 to R604, R525 step 7, R529). -/

namespace Sys2Proof.Machine

/-! ### Beds (R41, R579) -/

/-- What a bed supplies. -/
inductive BedKind where
  | aon
  | rot
  | host (h : Fin 2)
  | die (d : Fin 4)
  | stack (k : Fin 12)
  | cluster (g : Fin 32)
  | fab (p : Fin 16) (q : Fin 16)
  | ing (i : Fin 2)
  deriving DecidableEq, Repr

def bedKind (b : Fin 62) : BedKind :=
  let n := b.val
  if n = 0 then .aon
  else if n = 1 then .rot
  else if n < 4 then .host (fin2 n)
  else if n < 8 then .die (fin4 n)
  else if n < 20 then .stack (fin12 (n - 8))
  else if n < 52 then .cluster (fin32 (n - 20))
  else if n < 60 then .fab (fin16 (2 * (n - 52))) (fin16 (2 * (n - 52) + 1))
  else .ing (fin2 n)

def bedParent (b : Fin 62) : Fin 62 :=
  match bedKind b with
  | .aon => 0
  | .rot => 0
  | .host _ => bedRot
  | .die _ => bedRot
  | .stack k => bedDie (k.val / 3)
  | .cluster g => bedDie (g.val / 8)
  | .fab p _ => bedHost (p.val / 8)
  | .ing i => bedHost i.val

/-- The switched beds under a bed, one level down. -/
def bedChildren (b : Fin 62) : List (Fin 62) := (List.finRange 62).filter (fun c => decide (c ≠ 0 ∧ bedParent c = b))

/-- The beds under a bed, all levels. -/
def bedBelow (b : Fin 62) : List (Fin 62) := (bedChildren b).flatMap (fun c => c :: (bedChildren c).flatMap (fun x => x :: bedChildren x))

/-- The unit whose persistent fence holds a bed (R573). -/
def bedHolder (b : Fin 62) : Option (BitVec 16) :=
  match bedKind b with
  | .cluster g => some (uidCluster g.val 0)
  | .die d => some (uidDie d.val 8)
  | .stack k => some (uidStack k.val)
  | .ing i => some (uidLink i.val 0x11)
  | _ => none

/-- A bed that a persistent fence holds (R573). -/
def State.bedHeld (s : State) (b : Fin 62) : Bool :=
  (bedHolder b).any (fun u => s.health.fences.any (fun f => decide (f.unit = u) && f.persistent))

/-- A bed's parent is on, and does not wait for its children to stop (R580, R584). -/
def State.parentReady (s : State) (b : Fin 62) : Bool := s.bedOn (bedParent b) && s.beds[bedParent b].target

/-- An ING bed whose ingest engine is fenced with its host port, since the HOST bed failed, waits for that bed (R586). -/
def State.hostFailed (s : State) (b : Fin 62) : Bool :=
  match bedKind b with
  | .ing i => !s.bedOn (bedHost i.val) && s.health.fences.any (fun f => decide (f.unit = uidLink i.val 0x10) && f.persistent)
  | _ => false

/-- STATE (R581). -/
def State.bedState (s : State) (b : Fin 62) : Nat :=
  let x := s.beds[b]
  match x.phase with
  | .on => 2
  | .starting => if x.target then 1 else 4
  | .stopping => if x.target then 4 else 3
  | .off => if !x.target then 0 else if s.bedHeld b && !s.hostFailed b then 6 else if !s.parentReady b then 5 else 0

/-- TRANSITIONS saturates at its 24 bits (R606). -/
def Bed.count (x : Bed) : Bed := { x with transitions := satAt (2 ^ 24 - 1) (x.transitions + 1) }

/-! ### Measurements (R529, R525 step 7) -/

/-- An extend of a measurement register (R529). -/
def State.extend (s : State) (i : Fin 16) (data : List Byte) : State :=
  s.modRot (fun r => { r with mr := r.mr.set i (sha3w (leBytes 64 r.mr[i].toNat ++ sha3_512 data)) })

/-- The image that runs. -/
def State.fwInForce (s : State) : Option FwImage :=
  if s.rot.recovery then none else if s.rot.slot then s.rot.fwSlots.2 else s.rot.fwSlots.1

/-- The firmware part of a bed is extended before its reset is released (R580). -/
def State.measurePart (s : State) (i : Fin 16) : State :=
  match s.fwInForce with
  | none => s
  | some f => (s.extend i (Config.firmwarePart f.body i.val)).modRot (fun r => { r with stage := 7 })

def State.measureBed (s : State) (b : Fin 62) : State :=
  match bedKind b with
  | .host _ => s.measurePart 3
  | .fab _ _ => s.measurePart 3
  | .ing _ => s.measurePart 3
  | .die _ => s.measurePart 4
  | .stack _ => s.measurePart 5
  | _ => s

/-! ### At reset (R585 step 4, R604) -/

/-- A core as its bed comes on: the ballast parameters as its array takes them (R83), and its finished-tile queue as the
manifest in force sets it (R365). -/
def State.freshCore (s : State) (n : Fin 256) : Core :=
  { Core.reset with
    mtx := { Matrix.reset with gapNs := s.objNum 0x4020 1, rampNs := s.objNum 0x4020 2 }
    vec := { Vec.reset with ftqSlots := (s.job.inForce.map (fun m => ftqSlotsOf m n)).getD 0 } }

def State.vcoreEffective (s : State) (d : Fin 4) : Nat :=
  min (s.objNum 0x2010 (d.val + 1)) (min s.aon.packageMv s.dies[d].thermal)

/-- The partitions that a manifest gives a cluster, whether it can work now or only after its fence is cleared (R28). -/
def Cluster.partition (c : Cluster) (x : ClusterConfig) : Cluster :=
  { c with scratchKib := x.scratchKib, clocheKib := x.clocheKib, topoKib := x.topoKib }

/-- Partitions of a cluster under the manifest in force (R28). -/
def State.setPartitions (s : State) (g : Fin 32) (c : Cluster) : Cluster :=
  match s.job.inForce with
  | some m => c.partition (clusterConfigOf m g)
  | none => c

/-- A cluster's units as its bed comes on: the trim begins (R51), and the partitions are those of the manifest in force (R28). -/
def State.freshCluster (s : State) (g : Fin 32) : State :=
  let s := s.modCluster g (fun _ => s.setPartitions g { Cluster.reset with osc := trimStart Osc.reset })
  (coresOf g).foldl (fun s n => s.modCore n (fun _ => s.freshCore n)) s

/-- A die's units: the regulator stands at its effective VCORE, in units of 0.1 mV (R47, R598); STEP_NUMBER is START_STEP of the
manifest in force (R430). -/
def State.freshDie (s : State) (d : Fin 4) : State :=
  let thermal := s.dies[d].thermal
  let s := s.modDie d (fun _ => { Die.reset with thermal := thermal })
  let s := s.modDie d (fun x => { x with vcore := 10 * s.vcoreEffective d })
  match s.job.inForce with
  | some m => s.modUpd d (fun u => { u with stepNumber := BitVec.ofNat 32 m.startStep })
  | none => s

/-- A stack in training; its retired-page list comes back from the flash (R241). -/
def freshStack (x : Stack) : Stack := { Stack.reset with state := .training, retired := restoredList x.retired }

/-- A stack's bed comes on: the base die draws a key of its own, and uses it unless a job's key is installed (R244). -/
def State.freshStackOf (s : State) (k : Fin 12) : State :=
  let (e, s) := s.freshEntropy
  let s := s.modStack k (fun x => { freshStack x with bedKey := e, jobKey := s.job.memKey.isSome })
  s.setMem (s.mem.setKey k (s.job.memKey.getD e))

/-- A link die's host port and pool, with the objects that its bed latches (R464, R494). -/
def State.freshHost (s : State) (h : Fin 2) : State :=
  let s := s.modHost h (fun p =>
    { HostPort.reset with
      qps := p.qps, regions := p.regions
      subs := Vector.ofFn (fun (i : Fin 4) => { SubPort.reset with mac := Config.subPortMac h.val i.val })
      breakout := s.objNum 0x6030 (h.val + 1), ingestPrio := s.objNum 0x6030 3
      unclocked := if h = 0 then s.aon.refclkMissing.1 else s.aon.refclkMissing.2 })
  s.modPool h (fun _ => { Pool.reset with reserve := Vector.ofFn (fun (i : Fin 9) => s.objNum 0x6020 (i.val + 1)),
                                          cap := Vector.ofFn (fun (i : Fin 9) => s.objNum 0x6021 (i.val + 1)) })

/-- The values of 0x6001 that a FAB bed takes (R464). -/
def State.latchFabric (s : State) : State :=
  { s with fabInForce := (s.objNum 0x6001 1, s.objNum 0x6001 2, s.objNum 0x6001 3, s.objNum 0x6001 4) }

/-- The object that puts DEV_NUMBER or TREE_ROOT outside the SHAPE in force (R436). -/
def State.fabricBad (s : State) : Option (Nat × Nat) :=
  if shapeSize s.shape ≤ s.devNumber then some (0x600101, s.devNumber)
  else if shapeSize s.shape ≤ s.treeRoot then some (0x600104, s.treeRoot)
  else none

/-- A port as its bed comes on: it trains, unless its numbers are out of range, it is not in use or its reference clock is
missing (R436, R437, R442, R566). -/
def State.freshPort (s : State) (p : Fin 16) : State :=
  let missing := if p.val < 8 then s.aon.refclkMissing.1 else s.aon.refclkMissing.2
  let used := roleInUse s.shape s.expressEn (p.val % 8)
  let up := s.fabricBad.isNone && used && !missing
  s.modPort p (fun x => { Port.reset with
    state := if up then .training else .off, step := if up then .pma else .none, wasUp := x.wasUp, narrow := x.narrow, inUse := used,
    role := if used then p.val % 8 else 15, fab := s.fabInForce })

/-- Both ports of a FAB bed; a number out of range raises its configuration event, and the descriptor shows the ports at width 0. -/
def State.freshFab (s : State) (p q : Fin 16) : State :=
  let s := (s.latchFabric.freshPort p).freshPort q
  match s.fabricBad with
  | some (obj, v) =>
    ((s.raiseD (uidPort p.val) 0x0102 obj v 0).capacityChange (uidPort p.val) 0x0102).capacityChange (uidPort q.val) 0x0102
  | none => s

/-- The registers of a bed's units take their At reset values and the units begin their bring-up (R585). -/
def State.freshUnits (s : State) (b : Fin 62) : State :=
  let s := s.forgetFifosOfBed b
  match bedKind b with
  | .cluster g => s.freshCluster g
  | .die d => s.freshDie d
  | .stack k => s.freshStackOf k
  | .host h => (s.freshHost h).syncPause h
  | .fab p q => s.freshFab p q
  | .ing i => (s.modIngest i Ingest.fresh).syncPause i
  | .rot => s.modAon (fun a => { a with rotRetry := none, rotFaultLow := false })
  | .aon => s

/-- A ramp to on may begin: none has begun in the last 100 µs (R587). -/
def State.rampFree (s : State) : Bool := s.aon.rampRtc.all (fun t => decide (2500 ≤ (s.aon.rtc - t).toNat))

/-- A bed begins its ramp to on. -/
def State.beginRamp (s : State) (b : Fin 62) : State :=
  (s.modBed b (fun x => { x with phase := .starting })).modAon (fun a => { a with rampRtc := some a.rtc })

/-- Transient fences of a bed's units are lifted (R568, R583). -/
def State.liftBed (s : State) (b : Fin 62) : State :=
  match bedKind b with
  | .cluster g => s.liftFence (uidCluster g.val 0)
  | .die d => (s.liftFence (uidDie d.val 8)).liftFence (uidDie d.val 4)
  | .stack k => s.liftFence (uidStack k.val)
  | .host h => s.liftFence (uidLink h.val 0x10)
  | .ing i => s.liftFence (uidLink i.val 0x11)
  | _ => s

/-! ### Stopping (R583) -/

/-- A fabric port switched off: its packets are re-routed; bit 3 of REPLACE_REASONS stays as it was (R575, R576). -/
def State.portOff (s : State) (p : Fin 16) : State :=
  let s := s.modPort p (fun x => { x with state := .off, step := .none, lanesUp := 0, width := 0, keys := none, keepKeys := false,
                                          retryRx := none, retryTx := none })
  (s.reroute p).settleRecovery

/-- Every sub-port of a host port goes down, and its keys are gone. -/
def State.subPortsDown (s : State) (h : Fin 2) : State :=
  let any_ := s.hosts[h].subs.toList.any (·.link)
  let s := (s.modHost h (fun p =>
    { p with subs := Vector.ofFn (fun (i : Fin 4) => { SubPort.reset with mac := p.subs[i].mac }) })).flushHost
  if any_ then s.capacityChange (uidLink h.val 0x10) 0 else s

/-- What the units of a bed that leaves the on state drop (R583 step 1). -/
def State.dropUnits (s : State) (b : Fin 62) : State :=
  match bedKind b with
  | .cluster g => ((s.dropCluster g).modSeq g (fun x => { x with state := .halted })).emptyFtqs g 0
  | .die d => s.dropUpdate d
  | .stack k => (s.dropStack k).modStack k (fun x => { x with state := .off })
  | .host h => (s.errorQps h).subPortsDown h
  | .fab p q => (s.portOff p).portOff q
  | .ing i => (s.dropIngestRequests i).modIngest i Ingest.abandon
  | _ => s

/-- Steps 1 and 2 of R583; the bed has left the on state. -/
def State.stopUnits (s : State) (b : Fin 62) : State :=
  let s := ((s.dropUnits b).resetFifosOfBed b 0).liftBed b
  match bedKind b with
  | .host h => s.syncPause h
  | .ing i => s.syncPause i
  | _ => s

/-- Step 3 of R583: the contents of the bed's memories are lost. -/
def State.loseUnits (s : State) (b : Fin 62) : State :=
  match bedKind b with
  | .cluster g =>
    (coresOf g).foldl (fun s n => s.modThr n (fun t => { t with orphans := [] })) (s.setMem (s.mem.lose (12 + g.val)))
  | .stack k =>
    (s.setMem (s.mem.lose k.val)).modStack k (fun x => { x with
      poisoned := [], errors := [], ceEvents := [], toRetire := [], fencedReq := 0, jobKey := false })
  | _ => s

/-! ### Targets (R582, R584, R588, R589) -/

/-- Ballast of a bed's arrays stops at an off request (R81). -/
def State.stopBallast (s : State) (b : Fin 62) : State :=
  match bedKind b with
  | .cluster g => (coresOf g).foldl (fun s n =>
      if s.cores[n].mtx.ballast = .ballast then s.modMatrix n (fun m => { m with ballast := ballastStop m.ballast }) else s) s
  | _ => s

/-- A bed's target becomes off. -/
def State.targetOff (s : State) (b : Fin 62) : State := (s.modBed b (fun x => { x with target := false })).stopBallast b

/-- The job holds a bed on (R589). -/
def State.jobHolds (s : State) (b : Fin 62) : Bool :=
  decide (s.job.state = .verifying ∨ s.job.state = .running ∨ s.job.state = .ending) && decide (b.val < 52)

/-- A write of a bed's target: its status and the state after it. -/
def State.writeTarget (s : State) (b : Fin 62) (on : Bool) : Nat × State :=
  if b.val < 2 then (statusAccess, s)
  else if on then
    if s.bedHeld b then (statusState, s)
    else (statusOk, s.modBed b (fun x => { x with target := true, barred := false }))
  else if s.jobHolds b then (statusState, s)
  else
    let below := if (bedChildren b).any (fun c => decide (s.beds[c].phase ≠ .off)) then bedBelow b else []
    (statusOk, (b :: below).foldl State.targetOff s)

/-- A write that arrives as a command of its own: taken while the agent answers, its status kept. -/
def State.direct (s : State) (w : State → Nat × State) : State :=
  if s.agentUp then
    let (st, s) := w s
    s.modAgent (fun a => { a with lastStatus := st })
  else s

/-- BED_TARGET (R582, R584, R588, R589). -/
def execBedTarget (bed : Fin 62) (on : Bool) (s : State) : Out :=
  if s.rot.recovery then .next s else .next (s.direct (fun s => s.writeTarget bed on))

/-! ### The sequencer (R583 to R587) -/

/-- A bed that may begin its ramp now, but for the spacing and the count (R580, R586, R587, R600). -/
def State.mayStart (s : State) (b : Fin 62) : Bool :=
  let x := s.beds[b]
  decide (b ≠ 0) && decide (x.phase = .off) && x.target && !x.barred && s.parentReady b && !s.bedHeld b &&
    (if b = bedRot then s.aon.powerSteps && s.aon.rotRetry.isNone else decide (6 ≤ s.rot.stage) && !s.rot.recovery)

def State.nextStart (s : State) : Option (Fin 62) := (List.finRange 62).find? (fun b => s.mayStart b)

/-- How many beds are in STARTING. -/
def State.startingCount (s : State) : Nat := (s.beds.toList.filter (fun x => decide (x.phase = .starting))).length

/-- BED_START (R587): the lowest-numbered eligible bed, at most 8 at once, and one ramp in 100 µs. -/
def execBedStart (s : State) : Out :=
  match s.nextStart with
  | none => .next s
  | some b => if s.startingCount < 8 ∧ s.rampFree then .next (s.beginRamp b) else .next s

/-- SHUT clears once step 6 of R600 has ended: no bed is starting or may start. -/
def State.settleShut (s : State) : State :=
  if s.aon.shut ∧ 6 ≤ s.rot.stage ∧ s.startingCount = 0 ∧ s.nextStart = none then s.modAon (fun a => { a with shut := false })
  else s

/-- A bed whose firmware part the root of trust measures before its reset is released (R525 step 7). -/
def bedMeasured (b : Fin 62) : Bool :=
  match bedKind b with
  | .aon => false
  | .rot => false
  | .cluster _ => false
  | _ => true

/-- BED_ON (R580, R585): power is good, the firmware part is measured, reset is released. A root of trust that has halted
measures no part and makes no key (R521). -/
def execBedOn (bed : Fin 62) (s : State) : Out :=
  if s.beds[bed].phase = .starting ∧ s.bedOn (bedParent bed) ∧ !(s.rot.halted && bedMeasured bed) then
    let s := (s.measureBed bed).modBed bed (fun x => { x.count with phase := .on })
    .next ((s.freshUnits bed).liftBed bed).settleShut
  else .next s

/-- A port in use whose bed failed power-good counts as degraded until it is UP at width 8 (R576). -/
def State.portFailed (s : State) (p : Fin 16) : State := if s.portInUse p.val then s.modPort p (fun x => { x with narrow := true }) else s

/-- POWER_GOOD_FAIL (R585, R586). -/
def execPowerGoodFail (bed : Fin 62) (s : State) : Out :=
  if s.beds[bed].phase = .starting then
    let again := decide (bed = bedRot) && s.aon.rotRetry.isSome
    let s := s.modBed bed (fun x => { x.count with phase := .off })
    let s := (if bed = bedRot then s else s.loseUnits bed).raiseD uidAon 0x0B07 bed.val (if again then 2 else 1) 0
    let bar := s.modBed bed (fun x => { x with barred := true })
    let s := match bedKind bed with
      | .cluster g => s.fenceUnit (.cluster g) true 0x0B07
      | .die d => s.fenceUnit (.die d) true 0x0B07
      | .stack k => s.fenceUnit (.stack k) true 0x0B07
      | .host h => bar.fenceWith (.host h) true 0x0B07 [.ingest h]
      | .fab p q => ((bar.portFailed p).portFailed q).capacityChange (uidPort p.val) 0x0B07
      | .ing i => s.fenceUnit (.ingest i) true 0x0B07
      | .rot => s.modAon (fun a => { a with rotFaultLow := true, rotRetry := some (!again) })
      | .aon => s
    .next s.settleShut
  else .next s

/-- ROT_RETRY (R586): one more ramp of the ROT bed. -/
def execRotRetry (s : State) : Out :=
  if s.aon.rotRetry = some true ∧ s.beds[bedRot].phase = .off ∧ s.aon.powerSteps then
    .next (s.beginRamp bedRot)
  else .next s

/-- A bed whose parent goes off stops after the higher-numbered children of that parent that are to stop (R584). -/
def State.stopsInTurn (s : State) (b : Fin 62) : Bool :=
  s.beds[bedParent b].target || (bedChildren (bedParent b)).all (fun c =>
    decide (c ≤ b) || s.beds[c].target || decide (s.beds[c].phase = .off ∨ s.beds[c].phase = .stopping))

/-- A bed that may enter STOPPING: its target is off, no child has power, and its turn has come (R584). -/
def State.mayStop (s : State) (b : Fin 62) : Bool :=
  decide (b ≠ 0) && decide (s.beds[b].phase = .on) && !s.beds[b].target &&
    (bedChildren b).all (fun c => decide (s.beds[c].phase = .off)) && s.stopsInTurn b

/-- BED_OFF (R583 step 3). -/
def execBedOff (bed : Fin 62) (s : State) : Out :=
  if s.beds[bed].phase = .stopping then
    .next ((s.modBed bed (fun x => { x.count with phase := .off })).loseUnits bed)
  else .next s

/-! ### CLUSTER resets (R602 to R604) -/

/-- What a CLUSTER reset does to a cluster's logic: sequencer block, tokens, launch table, IMEM, summaries and queues. Counters,
trim and ticks are kept. -/
def Cluster.resetLogic (c : Cluster) : Cluster :=
  let w := c.dropWork
  { Cluster.reset with
    osc := w.osc, harrow := w.harrow, rake := { w.rake with cloche := [] }, sprinkler := w.sprinkler, stalls := w.stalls,
    scratchKib := w.scratchKib, clocheKib := w.clocheKib, topoKib := w.topoKib }

/-- A CLUSTER reset: the logic, the finished-tile queues, memories written with zero. -/
def State.resetCluster (s : State) (g : Fin 32) : State :=
  let s := (s.dropCluster g).emptyFtqs g 2
  let s := (coresOf g).foldl (fun s n => s.modMatrix n (fun m => { m with ballast := .woundDown })) s
  let s := s.modCluster g Cluster.resetLogic
  let s := s.modHarrow g (fun h => { h with topo := [] })
  s.setMem (s.mem.zero (12 + g.val))

/-- A write of CLUSTER_RESET (R603). -/
def State.writeClusterReset (s : State) (c : Nat) : Nat × State :=
  if 31 < c then (statusRange, s)
  else if s.job.state = .verifying ∨ s.job.state = .running ∨ s.job.state = .ending ∨ !s.clusterOn (fin32 c) then (statusState, s)
  else
    let s := s.setObjNum 0x2022 3 c
    (statusOk, (s.resetCluster (fin32 c)).modCluster (fin32 c) (fun x => { x with resetting := true }))

/-- CLUSTER_RESET (R603). -/
def execClusterReset (cluster : Nat) (s : State) : Out :=
  if s.rot.recovery then .next s else .next (s.direct (fun s => s.writeClusterReset cluster))

/-- CLUSTER_RESET_END (R603). -/
def execClusterResetEnd (cluster : Fin 32) (s : State) : Out :=
  .next (s.modCluster cluster (fun c => { c with resetting := false }))

end Sys2Proof.Machine
end

