-- ==== Sys2Proof/Machine/Aon.lean ====
section
/-! DEFINITION. Aon.lean: the always-on domain: comparators, emergency shutdown, restarts, power-on, boot, the sideband
outputs, reference clocks, and the power manager (R519 to R530, R564 to R567, R590 to R605). -/

namespace Sys2Proof.Machine

/-! ### What a shutdown or a restart leaves (R594, R602, R604) -/

/-- A bed without power; a transition that ends so counts. -/
def Bed.down (x : Bed) : Bed :=
  let y := if x.phase = .off then x else x.count
  { y with phase := .off, target := false, barred := false }

/-- What flash and AON keep of the health state: fences and the log; the latch is AON's (R557, R604). -/
def Health.restart (h : Health) : Health :=
  { Health.reset with latch := h.latch, log := h.log, fences := h.fences.filter (fun f => f.persistent && f.flashed) }

/-- What flash and fuses keep of the root of trust. -/
def Rot.restart (r : Rot) : Rot := { Rot.reset with fwSlots := r.fwSlots, minSvn := r.minSvn }

/-- Objects as flash gives them back; RW objects return to their defaults (R505, R604). -/
def Objects.restart (o : Objects) : Objects :=
  { nums := o.flashNums, blobs := o.flashBlobs, flashNums := o.flashNums, flashBlobs := o.flashBlobs }

/-- A stack without power: its retired-page list as the flash holds it. -/
def downStack (x : Stack) : Stack := { Stack.reset with retired := restoredList x.retired }

/-- Every bed but AON loses its power: registers and contents are lost, and what was in flight. -/
def State.deviceDown (s : State) : State :=
  { State.reset with
    mem := { cells := [], zeroed := [], eras := (List.range 44).foldl nextEra s.mem.eras, keys := [], first := [], under := [] }
    aon := s.aon
    beds := (s.beds.map Bed.down).set 0 s.beds[0]
    hbm := s.hbm.map downStack
    health := s.health.restart
    objs := s.objs.restart
    rot := s.rot.restart
    sent := s.sent
    free := s.free
    pending := s.pending }

/-- AON begins step 4 of the power-up order (R600). -/
def State.startRot (s : State) : State :=
  (s.modAon (fun a => { a with powerSteps := true, rotRetry := none })).modBed bedRot (fun x => { x with target := true })

/-- A RESTART with its cause (R602, R605). -/
def State.restart (s : State) (cause : Nat) : State :=
  (s.modAon (fun a => { a with
    resetKind := 1, resetCause := cause, shutCause := none, wakeSeen := false, packageMv := 800, arrayLimit := 100,
    pinW := 0, overMs := 0, rotFaultLow := false })).startRot

/-! ### Power-on (R590, R600, R602) -/

/-- AON after its own power-up: WALL_BASE_S and the counter start again. -/
def aonUp (standby vin : Bool) : Aon :=
  { Aon.reset with powered := true, stbyOk := standby, standbyLow := !standby, vinOk := vin, underV := !vin, onVin := !standby }

/-- The input comparators all read released. -/
def Aon.inputsOk (a : Aon) : Bool := !a.reversed && !a.underV && !a.overV

/-- AON_POWER_UP (R600): from neither input being present. With the 48 V input present the order goes on to step 4. -/
def execAonPowerUp (standby : Bool) (vin : Bool) (s : State) : Out :=
  if standby ∨ vin then
    let d := s.deviceDown
    let d := { d with aon := aonUp standby vin
                      beds := State.reset.beds
                      health := { d.health with latch := [] } }
    .next (if vin then d.startRot else d)
  else .next s

/-! ### Emergency shutdown (R564, R593 to R597) -/

/-- An emergency shutdown: a thermal cause outlasts the others, since it holds every bed off until its release (R597). -/
def State.shutdown (s : State) (c : ShutCause) : State :=
  let s := if s.aon.powerSteps then s.deviceDown else s
  s.modAon (fun a => { a with
    shut := true, powerSteps := false, rotRetry := none
    shutCause := if a.shutCause = some .thermal ∧ a.shut then some .thermal else some c })

/-- An input comparator trips: VIN_OK clears, everything but AON goes off, and AON latches the event (R557, R564). -/
def State.inputTrip (s : State) (c : ShutCause) (code mv : Nat) (f : Aon → Aon) : State :=
  ((s.shutdown c).modAon (fun a => { f a with vinOk := false })).raiseD uidAon code mv 0 0

/-- INPUT_REVERSED (R564). -/
def execInputReversed (s : State) : Out :=
  if s.aon.powered ∧ !s.aon.reversed then .next (s.inputTrip .reversal 0x0B01 0 (fun a => { a with reversed := true }))
  else .next s

/-- INPUT_UNDER_VOLTAGE (R593). -/
def execInputUnderVoltage (mv : Nat) (s : State) : Out :=
  if s.aon.powered ∧ !s.aon.underV then .next (s.inputTrip .underV 0x0B02 mv (fun a => { a with underV := true }))
  else .next s

/-- INPUT_OVER_VOLTAGE (R593). -/
def execInputOverVoltage (mv : Nat) (s : State) : Out :=
  if s.aon.powered ∧ !s.aon.overV then .next (s.inputTrip .overV 0x0B03 mv (fun a => { a with overV := true }))
  else .next s

/-- STANDBY_LOW (R564, R593): AON goes over to the 48 V input, where that input is there. -/
def execStandbyLow (mv : Nat) (s : State) : Out :=
  if s.aon.powered ∧ !s.aon.standbyLow then
    .next ((s.modAon (fun a => { a with standbyLow := true, stbyOk := false, onVin := a.inputsOk })).raiseD uidAon 0x0B04 mv 0 0)
  else .next s

/-- THERMAL_TRIP (R593). -/
def execThermalTrip (i : Fin 8) (s : State) : Out :=
  if s.aon.powered ∧ !bitOf s.aon.therm.toNat i.val then
    let s := s.shutdown .thermal
    .next ((s.modAon (fun a => { a with therm := a.therm ||| BitVec.ofNat 8 (2 ^ i.val) })).raiseD uidAon 0x0B05 i.val 0 0)
  else .next s

/-- A comparator reads released. -/
def Aon.release (c : Comparator) (a : Aon) : Aon :=
  let b := match c with
    | .reversal => { a with reversed := false }
    | .underV => { a with underV := false }
    | .overV => { a with overV := false }
    | .standby => { a with standbyLow := false, stbyOk := true, onVin := false }
    | .thermal i => { a with therm := a.therm &&& ~~~(BitVec.ofNat 8 (2 ^ i.val)) }
    | .wake => a
  { b with vinOk := b.inputsOk }

/-- COMPARATOR_RELEASE (R593). A device not yet started, and not shut down, goes on to step 4 of R600. -/
def execComparatorRelease (c : Comparator) (s : State) : Out :=
  if s.aon.powered then
    let s := s.modAon (Aon.release c)
    .next (if s.aon.vinOk ∧ !s.aon.shut ∧ !s.aon.powerSteps ∧ s.aon.shutCause = none then s.startRot else s)
  else .next s

/-- CAUSE of a supply restart (R605). -/
def supplyCause : ShutCause → Nat
  | .underV => 1
  | .overV => 2
  | .reversal => 3
  | .thermal => 4

/-- SUPPLY_RESTART (R596). -/
def execSupplyRestart (s : State) : Out :=
  match s.aon.shutCause with
  | some .thermal => .next s
  | some c => if s.aon.shut ∧ s.aon.inputsOk then .next (s.restart (supplyCause c)) else .next s
  | none => .next s

/-- A thermal shutdown whose comparators have all released (R597). -/
def State.cooled (s : State) : Bool :=
  s.aon.shut && decide (s.aon.shutCause = some .thermal) && decide (s.aon.therm = 0) && s.aon.inputsOk

/-- THERMAL_RESTART (R597): by itself with THERMAL_RESTART at 0, otherwise by a wake that was kept. -/
def execThermalRestart (s : State) : Out :=
  if s.cooled then
    if s.objNum 0x2040 9 = 0 then .next (s.restart 4)
    else if s.aon.wakeSeen then .next (s.restart 5) else .next s
  else .next s

/-- MANAGEMENT_WAKE (R593, R597): kept during a thermal shutdown until the release, acted on after it. -/
def execManagementWake (s : State) : Out :=
  if s.aon.shut ∧ s.aon.shutCause = some .thermal then
    if s.cooled ∧ s.objNum 0x2040 9 = 1 then .next (s.restart 5)
    else .next (s.modAon (fun a => { a with wakeSeen := true }))
  else .next s

/-- Stops every bed in descending number and restarts (R602 DEVICE_RESTART). -/
def State.orderlyRestart (s : State) : State := s.deviceDown.restart 6

/-- DEVICE_RESTART (R602): once the response to the write has been sent. -/
def execDeviceRestart (s : State) : Out :=
  if s.rot.recovery then .next s else .next (if s.agentUp then s.orderlyRestart else s)

/-! ### The crystal and the supplies (R591, R606) -/

/-- CRYSTAL_FAIL (R591). -/
def execCrystalFail (s : State) : Out := .next (s.modAon (fun a => { a with xtalOk := false }))

/-- CRYSTAL_RETURN (R591, R600 step 2). -/
def execCrystalReturn (s : State) : Out :=
  if s.aon.powered then .next (s.modAon (fun a => { a with xtalOk := true })) else .next s

/-- SUPPLY_MEASURE (R606). -/
def execSupplyMeasure (vinMv : Nat) (stbyMv : Nat) (s : State) : Out :=
  if s.aon.powered then .next (s.modAon (fun a => { a with vinMv := vinMv % 65536, stbyMv := stbyMv % 65536 })) else .next s

/-! ### Sideband outputs (R565) -/

def sidebandCode : Sideband → Nat
  | .xoffA => 0
  | .xoffB => 1
  | .replace => 2
  | .rotFault => 3

def sidebandStateCode : SidebandState → Nat
  | .good => 0
  | .openLine => 1
  | .shortGround => 2
  | .shortSupply => 3

/-- An output that is driven low (R74 to R76, R576, R586, R618): ROT_FAULT_n also in RECOVERY. -/
def State.sidebandLow (s : State) : Sideband → Bool
  | .xoffA => s.ingestPaused 0
  | .xoffB => s.ingestPaused 1
  | .replace => decide (s.health.replaceReasons ≠ 0)
  | .rotFault => s.aon.rotFaultLow || s.rot.recovery

def Aon.sidebandOf (a : Aon) (o : Sideband) : SidebandState :=
  ((a.sideband.find? (fun x => decide (x.1 = o))).map (·.2)).getD .good

def Aon.setSideband (o : Sideband) (x : SidebandState) (a : Aon) : Aon :=
  let rest := a.sideband.filter (fun y => decide (y.1 ≠ o))
  { a with sideband := if x = .good then rest else (rest ++ [(o, x)]).insertionSort (fun p q => sidebandCode p.1 ≤ sidebandCode q.1) }

/-- A sideband fault is found; its event is raised when it is new. -/
def State.sidebandFound (s : State) (o : Sideband) (x : SidebandState) : State :=
  if s.aon.sidebandOf o = x then s
  else (s.modAon (Aon.setSideband o x)).raiseD uidAon 0x0B06 (sidebandCode o) (sidebandStateCode x) 0

/-- SIDEBAND_PROBE (R565): a released output that falls under the pull-down is open. -/
def execSidebandProbe (out : Sideband) (falls : Bool) (s : State) : Out :=
  if s.sidebandLow out then .next s
  else if falls then .next (s.sidebandFound out .openLine)
  else if s.aon.sidebandOf out = .openLine then .next (s.modAon (Aon.setSideband out .good))
  else .next s

/-- SIDEBAND_FAULT (R565): a released output that reads low is shorted to ground, one driven low that meets its current limit
is shorted to supply. -/
def execSidebandFault (out : Sideband) (fault : SidebandState) (s : State) : Out :=
  match fault with
  | .shortGround => if s.sidebandLow out then .next s else .next (s.sidebandFound out .shortGround)
  | .shortSupply => if s.sidebandLow out then .next (s.sidebandFound out .shortSupply) else .next s
  | .openLine => if s.sidebandLow out then .next s else .next (s.sidebandFound out .openLine)
  | .good => .next s

/-- SIDEBAND_FAULT_CLEARED (R565). -/
def execSidebandFaultCleared (out : Sideband) (s : State) : Out := .next (s.modAon (Aon.setSideband out .good))

/-! ### Reference clocks (R566) -/

def State.refclkIs (s : State) (l : Fin 2) : Bool := if l = 0 then s.aon.refclkMissing.1 else s.aon.refclkMissing.2

def State.setRefclk (s : State) (l : Fin 2) (missing : Bool) : State :=
  s.modAon (fun a => { a with
    refclkMissing := if l = 0 then (missing, a.refclkMissing.2) else (a.refclkMissing.1, missing) })

/-- The fabric ports of a link die. -/
def portsOf (l : Fin 2) : List (Fin 16) := (List.finRange 16).filter (fun p => decide (p.val / 8 = l.val))

/-- A port that loses its clock is OFF. -/
def State.unclock (s : State) (p : Fin 16) : State :=
  if s.ports[p].state = .off then s
  else
    let s := s.portDown p 0x0907
    s.modPort p (fun x => { x with state := .off, keys := none })

/-- REFCLK_MISSING (R566): the ports of the link die are OFF, and the capacity descriptor changes. -/
def execRefclkMissing (link : Fin 2) (s : State) : Out :=
  if s.aon.powered ∧ !s.refclkIs link then
    let s := (s.setRefclk link true).raiseD (uidLink link.val 0x12) 0x0907 link.val 0 0
    let s := (portsOf link).foldl State.unclock s
    .next (((s.subPortsDown link).modHost link (fun p => { p with unclocked := true })).capacityChange (uidLink link.val 0x12) 0x0907)
  else .next s

/-- REFCLK_RETURN (R566, R575): the clock is used when each bed next comes on. -/
def execRefclkReturn (link : Fin 2) (s : State) : Out :=
  if s.refclkIs link then .next ((s.setRefclk link false).capacityChange (uidLink link.val 0x12) 0x0907) else .next s

/-! ### The power manager (R598, R599) -/

/-- One level of the array limit down or up (R599). -/
def limitDown (l : Nat) : Nat := if l = 100 then 75 else if l = 75 then 50 else 25
def limitUp (l : Nat) : Nat := if l = 25 then 50 else if l = 50 then 75 else 100

/-- A finite FP32 number of watts, times `den`, against `num`: the two sides as whole numbers. -/
def wattSides (p : U32) (num den : Nat) : Nat × Nat :=
  let e := bitsOf p.toNat 30 23
  let m := if e = 0 then bitsOf p.toNat 22 0 else 2 ^ 23 + bitsOf p.toNat 22 0
  (den * m * 2 ^ max e 1, num * 2 ^ 150)

def wattsNan (p : U32) : Bool := decide (bitsOf p.toNat 30 23 = 255 ∧ bitsOf p.toNat 22 0 ≠ 0)

/-- PIN_W exceeds a limit in units of 1/40,000 W (R598). -/
def pinOver (limit : Nat) (p : U32) : Bool :=
  !wattsNan p && !bitOf p.toNat 31 && decide ((wattSides p limit 40000).2 < (wattSides p limit 40000).1)

/-- PIN_W is below 95 % of a limit in units of 1/40,000 W (R598). -/
def pinBelow (limit : Nat) (p : U32) : Bool :=
  !wattsNan p && (bitOf p.toNat 31 || decide ((wattSides p (19 * limit) 800000).1 < (wattSides p (19 * limit) 800000).2))

/-- The limit in force, in units of 1/40,000 W: POWER_LIMIT_W (R515), and between 38.0 V and 40.0 V, POWER_LIMIT_W × VIN /
40.0 V by the last VIN_MV (R614). -/
def State.powerLimit (s : State) : Nat :=
  s.objNum 0x2001 3 * (if 38000 ≤ s.aon.vinMv ∧ s.aon.vinMv < 40000 then s.aon.vinMv else 40000)

/-- The array limit after a measurement (R599). -/
def Aon.measured (pinW : U32) (overLimit below95 : Bool) (a : Aon) : Aon :=
  let a := { a with pinW := pinW }
  if overLimit ∧ a.packageMv = 600 then
    { a with overMs := a.overMs + 1, arrayLimit := if 0 < a.overMs then limitDown a.arrayLimit else a.arrayLimit }
  else if below95 then { a with overMs := 0, arrayLimit := limitUp a.arrayLimit }
  else { a with overMs := 0 }

/-- POWER_MEASURE (R599). -/
def execPowerMeasure (pinW : U32) (s : State) : Out :=
  if s.bedOn bedRot then
    .next (s.modAon (Aon.measured pinW (pinOver s.powerLimit pinW) (pinBelow s.powerLimit pinW)))
  else .next s

/-- One step of 5 mV between 600 and 800 mV. -/
def vcoreStep (up : Bool) (mv : Nat) : Nat := if up then min 800 (mv + 5) else max 600 (mv - 5)

/-- VCORE_THROTTLE_STEP (R598, R599): the package value falls while the last PIN_W is over the limit, and rises while it is
below 95 % and the arrays have their full rate. -/
def execVcoreThrottleStep (die : Option (Fin 4)) (up : Bool) (s : State) : Out :=
  if !s.bedOn bedRot then .next s
  else match die with
    | some d => .next (s.modDie d (fun x => { x with thermal := vcoreStep up x.thermal }))
    | none =>
      if up ∧ (s.aon.arrayLimit < 100 ∨ !pinBelow s.powerLimit s.aon.pinW) then .next s
      else if !up ∧ !pinOver s.powerLimit s.aon.pinW then .next s
      else .next (s.modAon (fun a => { a with packageMv := vcoreStep up a.packageMv }))

/-! ### Boot (R524 to R527, R542, R557) -/

/-- Bytes lo to lo + n - 1 of a string. -/
def slice (b : List Byte) (lo n : Nat) : List Byte := (b.drop lo).take n

/-- The fields of a firmware header (R524). -/
def imgMagic (f : FwImage) : Nat := leNat (slice f.header 0 4)
def imgVersion (f : FwImage) : Nat := leNat (slice f.header 4 4)
def imgSvn (f : FwImage) : Nat := leNat (slice f.header 8 4)
def imgBodyLen (f : FwImage) : Nat := leNat (slice f.header 12 4)
def imgDigest (f : FwImage) : List Byte := slice f.header 16 64
def imgKey (f : FwImage) : List Byte := slice f.header 80 2592
def imgSignature (f : FwImage) : List Byte := slice f.header 2672 4627
def imgReserved (f : FwImage) : List Byte := slice f.header 7299 893

/-- An image from its bytes: the header of 8 KiB, then the body. -/
def imageOf (b : List Byte) : FwImage := { header := b.take 8192, body := b.drop 8192 }

/-- The checks of R525 step 3, as the number of the first that fails under R560: the header's form, SVN, the digest of SIGNER_KEY against
the ROM's, the signature over bytes 0 to 2,671 under "WVT9-FW", BODY_DIGEST against the body. -/
def imageFails (minSvn : Nat) (f : FwImage) : Option Nat :=
  if f.header.length ≠ 8192 ∨ imgMagic f ≠ 0x57463954 ∨ imgReserved f ≠ List.replicate 893 0 ∨ imgBodyLen f = 0 ∨
      16769024 < imgBodyLen f then some 1
  else if imgSvn f < minSvn then some 2
  else if sha3w (imgKey f) ≠ Config.romFirmwareKey then some 3
  else if !dsaVerify (imgKey f) "WVT9-FW" (slice f.header 0 2672) (imgSignature f) then some 4
  else if f.body.length ≠ imgBodyLen f ∨ sha3_512 f.body ≠ imgDigest f then some 5
  else none

def slotOk (minSvn : Nat) : Option FwImage → Bool
  | some f => (imageFails minSvn f).isNone
  | none => false

/-- FW_PREF. -/
def State.fwPref (s : State) : Bool := decide (s.objNum 0x7004 2 = 1)

/-- Owner keys (R533). -/
def keyList : Nat → List Byte → List (List Byte)
  | 0, _ => []
  | n + 1, bs => if bs = [] then [] else bs.take 2592 :: keyList n (bs.drop 2592)

def State.ownerKeys (s : State) : List (List Byte) := keyList 4 (s.objBytes 0x7005 1)

/-- The data of MR2: OWNER_KEYS and the other kept RWS values of 0x7000 to 0x7FFF (R530). -/
def State.mr2Values (s : State) : List Byte × List Nat × List Byte :=
  (s.objBytes 0x7005 1, [s.objNum 0x7004 2, s.objNum 0x7004 4], s.objBytes 0x7006 1)

def State.extendMr2 (s : State) : State :=
  s.extend 2 (Config.mr2Data s.mr2Values.1 s.mr2Values.2.1 s.mr2Values.2.2)

/-- MR2 is extended where one of those values has changed since an earlier state. -/
def State.mr2Since (s before : State) : State := if s.mr2Values = before.mr2Values then s else s.extendMr2

/-- BOOT_RESULT of a boot: the slot booted, if any, and which slots failed (R550). -/
def bootResult (pref prefOk otherOk : Bool) : Nat :=
  let a := if pref then !prefOk && !otherOk else !prefOk
  let b := if pref then !prefOk else !prefOk && !otherOk
  b2n a + 2 * b2n b + 4 * b2n (!prefOk && !otherOk) + (if prefOk then 0 else 3 * 2 ^ 8)

/-- Steps 1 to 5 (R525). -/
def State.bootSlot (s : State) : State :=
  let m := s.rot.minSvn
  let s := (s.modRot (fun r => { r with mr := Vector.replicate 16 0 })).extend 0 (Config.fuseImage m)
  let slot (b : Bool) : Option FwImage := if b then s.rot.fwSlots.2 else s.rot.fwSlots.1
  let pref := s.fwPref
  let ok := slotOk m (slot pref)
  let okOther := slotOk m (slot (!pref))
  let res := bootResult pref ok okOther
  let s := s.modRot (fun r => { r with slot := if ok then pref else if okOther then !pref else false,
                                       recovery := !ok && !okOther, bootResult := res })
  let s := match s.fwInForce with
    | some f => s.extend 1 (imgDigest f ++ leBytes 4 (imgSvn f))
    | none => s
  if res = 0 then s else s.raiseD uidRot 0x0C01 res 0 0

/-- Step 6 (R525, R526, R542, R557): the identity key is unwrapped, the KEM key pair drawn, MR2 extended, the agent started; AON's
latched events enter. -/
def State.bootAgent (s : State) : State :=
  let s := { s with free := s.free.succ }.modRot (fun r => { r with kemDraw := some s.free, identityKey := some unwrapIdentity, stage := 6 })
  let s := s.extendMr2
  let s := s.modHealth (fun h => { h with raised := h.latch ++ h.raised, latch := [] })
  s.modAgent (fun a => { a with addrInForce := s.staticAddr })

/-- Targets as step 6 of R600 begins (R601). -/
def State.bootTargets (s : State) : State :=
  if s.rot.recovery ∨ s.objNum 0x2022 1 = 1 then s
  else (List.finRange 62).foldl (fun s b => if 2 ≤ b.val then s.modBed b (fun x => { x with target := true }) else s) s

/-- BOOT (R525, R526, R601). -/
def execBoot (s : State) : Out :=
  if s.bedOn bedRot ∧ s.rot.stage = 0 ∧ !s.rot.halted then
    .next s.bootSlot.bootAgent.bootTargets.settleShut
  else .next s

/-- ENTROPY_HEALTH_FAIL (R521): the root of trust halts with its fault output low. -/
def execEntropyHealthFail (s : State) : Out :=
  if s.bedOn bedRot then
    .next ((s.modRot (fun r => { r with halted := true })).modAon (fun a => { a with rotFaultLow := true }))
  else .next s

end Sys2Proof.Machine
end

