-- ==== Sys2Proof/Machine/Transcend.lean ====
section
/-! DEFINITION. Transcend.lean: EXP, LOG, TANH and SIGMOID correctly rounded, and GELU and SILU (R382, R383). Each
function is worked out to 256 fraction bits and given a last bit that says "inexact"; its values at non-zero FP32
arguments other than LOG(1) are irrational, so rounding that number rounds the function (log entry 8). -/

namespace Sys2Proof.Machine

/-- Fraction bits of the working precision. -/
def tP : Nat := 256

/-- Σ z^(2i+1) / (2i+1) for i below the fuel, from power `p` = z^(2i+1) at fixed point, with z² = `z2`. -/
def atanhSum : Nat → Int → Int → Nat → Int
  | 0, _, _, _ => 0
  | fuel + 1, p, z2, k => p / (k : Int) + atanhSum fuel (p * z2 / 2 ^ tP) z2 (k + 2)

/-- ln 2 = 2 atanh(1/3) at fixed point. -/
def ln2Fix : Int :=
  let z : Int := 2 ^ tP / 3
  2 * atanhSum 90 z (z * z / 2 ^ tP) 1

/-- Σ r^i / i! from the term `t` = r^i / i!. -/
def expSum : Nat → Int → Int → Nat → Int
  | 0, _, _, _ => 0
  | fuel + 1, t, r, i => t + expSum fuel (t * r / 2 ^ tP / ((i : Int) + 1)) r (i + 1)

/-- A finite value as a fixed-point number; exact for FP32 values, whose last bit weighs 2^-149 or more. -/
def fixOf (neg : Bool) (n : Nat) (e : Int) : Int :=
  let m : Int := if 0 ≤ e + tP then (n : Int) * 2 ^ (e + tP).toNat else (n : Int) / 2 ^ (-(e + tP)).toNat
  if neg then -m else m

/-- e^x for a fixed-point x: mantissa at fixed point in [1, 2) and binary exponent. -/
def expFix (x : Int) : Nat × Int :=
  let k := x / ln2Fix
  ((expSum 70 (2 ^ tP) (x - k * ln2Fix) 0).toNat, k)

/-- A magnitude above `n` and below n + 1 in units of 2^e. -/
def sticky (neg : Bool) (n : Nat) (e : Int) : Val := .fin neg (2 * n + 1) (e - 1)

/-- A positive number smaller than any FP32 rounding step, and one larger than any FP32 number. -/
def tinyVal : Val := .fin false 1 (-400)
def hugeVal : Val := .fin false 1 400

/-- A value just below a magnitude n * 2^e. -/
def justBelow (neg : Bool) (n : Nat) (e : Int) : Val := .fin neg (n * 2 ^ 64 - 1) (e - 64)

def expVal (v : Val) : Val :=
  match v with
  | .nan => .nan
  | .inf true => .fin false 0 0
  | .inf false => .inf false
  | .fin neg n e =>
    if n = 0 then .fin false 1 0
    else if cmpFin false n e false 120 0 = .gt then (if neg then tinyVal else hugeVal)
    else
      let (m, k) := expFix (fixOf neg n e)
      sticky false m (k - tP)

/-- ln of n * 2^e, n > 0, as a signed fixed-point number: n scaled to [2/3, 4/3). -/
def lnFix (n : Nat) (e : Int) : Int :=
  let b := Nat.log2 n
  let (m, k) : Int × Int :=
    if 3 * n < 4 * 2 ^ b then ((n : Int) * 2 ^ tP / 2 ^ b, e + b) else ((n : Int) * 2 ^ tP / 2 ^ (b + 1), e + b + 1)
  let one : Int := 2 ^ tP
  let z := (m - one) * one / (m + one)
  2 * atanhSum 90 z (z * z / 2 ^ tP) 1 + k * ln2Fix

def lnVal (v : Val) : Val :=
  match v with
  | .nan => .nan
  | .inf true => .nan
  | .inf false => .inf false
  | .fin neg n e =>
    if n = 0 then .inf true
    else if neg then .nan
    else if cmpFin false n e false 1 0 = .eq then .fin false 0 0
    else
      let t := lnFix n e
      sticky (decide (t < 0)) t.natAbs (-tP)

/-- n / d as a value with 300 quotient bits and a last bit that says "inexact". -/
def ratioSticky (neg : Bool) (n d : Nat) : Val := sticky neg (n * 2 ^ 512 / d) (-512)

def tanhVal (v : Val) : Val :=
  match v with
  | .nan => .nan
  | .inf neg => .fin neg 1 0
  | .fin neg n e =>
    if n = 0 then v
    else if cmpFin false n e false 1 (-30) = .lt then justBelow neg n e
    else if cmpFin false n e false 40 0 = .gt then .fin neg (2 ^ 300 - 1) (-300)
    else
      -- E = e^(-2|x|) = m 2^(k - P); tanh = (1 - E) / (1 + E)
      let (m, k) := expFix (-(2 * fixOf false n e))
      let one := 2 ^ ((tP : Int) - k).toNat
      ratioSticky neg (one - m) (one + m)

def sigmoidVal (v : Val) : Val :=
  match v with
  | .nan => .nan
  | .inf true => .fin false 0 0
  | .inf false => .fin false 1 0
  | .fin neg n e =>
    if n = 0 then .fin false 1 (-1)
    else if cmpFin false n e false 120 0 = .gt then (if neg then tinyVal else .fin false (2 ^ 300 - 1) (-300))
    else
      let (m, k) := expFix (-(fixOf false n e))
      let one := 2 ^ ((tP : Int) - k).toNat
      ratioSticky false (if neg then m else one) (one + m)

def fexp (a : Arith) (x : U32) : U32 := wr32 a (expVal (rd32 a x))
def fln (a : Arith) (x : U32) : U32 := wr32 a (lnVal (rd32 a x))
def ftanh (a : Arith) (x : U32) : U32 := wr32 a (tanhVal (rd32 a x))
def fsigmoid (a : Arith) (x : U32) : U32 := wr32 a (sigmoidVal (rd32 a x))
def frcp (a : Arith) (x : U32) : U32 := fdiv a one32 x

/-- A copy of a value in which saturate mode has replaced an infinity (R288, R302); NaN becomes canonical. -/
def fmov (a : Arith) (x : U32) : U32 := wr32 a (rd32 a x)

/-- |a| and -a. -/
def fabs (a : Arith) (x : U32) : U32 :=
  match rd32 a x with
  | .fin _ n e => wr32 a (.fin false n e)
  | .inf _ => wr32 a (.inf false)
  | .nan => nan32

def fneg (a : Arith) (x : U32) : U32 := wr32 a (negVal (rd32 a x))

/-- R383. -/
def fgelu (a : Arith) (x : U32) : U32 :=
  let t1 := fmul a x x
  let t2 := ffma a t1 0x3D372713 one32
  let t3 := fmul a x t2
  let t4 := fmul a t3 0x3F4C422A
  let t5 := ftanh a t4
  let h := fmul a x 0x3F000000
  ffma a h t5 h

def fsilu (a : Arith) (x : U32) : U32 := fmul a x (fsigmoid a x)

end Sys2Proof.Machine
end

