-- ==== Sys2Proof/Machine/Vector.lean ====
section
/-! DEFINITION. Vector.lean: the vector engine (R363 to R390): chains, reductions through the lane tree, summaries,
TILE_DROP. -/

namespace Sys2Proof.Machine

/-! ### The lane tree (R386) -/

/-- One level of the tree: neighbours combined in pairs. -/
def pairUp {α : Type} (comb : α → α → α) : List α → List α
  | x :: y :: t => comb x y :: pairUp comb t
  | xs => xs

/-- A lane of a segment of 128 columns. -/
def laneOf {α : Type} (id : α) (step : α → Nat → α) (cols seg j : Nat) : α :=
  let c := 128 * seg + j
  let l := if c < cols then step id c else id
  if c + 64 < cols then step l (c + 64) else l

/-- lane[0] of a segment after six levels. -/
def segAcc {α : Type} (id : α) (step : α → Nat → α) (comb : α → α → α) (cols seg : Nat) : α :=
  let lanes := (List.range 64).map (laneOf id step cols seg)
  let up := pairUp comb
  (up (up (up (up (up (up lanes)))))).headD id

/-- `row_acc` of R386; `step lane c` leaves the lane as it is where column c takes no part. -/
def rowAcc {α : Type} (id : α) (step : α → Nat → α) (comb : α → α → α) (cols : Nat) : α :=
  (List.range (cdiv cols 128)).foldl (fun acc seg => comb acc (segAcc id step comb cols seg)) id

/-- fp32_rne(1 / n). -/
def rcpNat (n : Nat) : U32 := BitVec.ofNat 32 (roundTo fp32 .rne false false 1 n 0).code

/-! ### The fields of a CHAIN (R375) -/

structure Source32 where
  loc : Nat
  fmt : Nat
  shape : Nat
  deriving DecidableEq, Repr

structure ChainCtl where
  src : List Source32
  dloc : Nat
  dfmt : Nat
  rows : Nat
  cols : Nat
  ld : Nat
  arith : Nat
  stages : Nat
  pair : Bool
  kind : Nat
  axis : Bool
  summary : Bool
  mask : Bool
  ftq : Bool
  chain : Nat
  mloc : Nat
  rloc : Nat
  drop : Nat
  deriving DecidableEq, Repr

def chainCtl (d : Desc) : ChainCtl :=
  let x0 : Source32 := { loc := d.bits 2 25 0, fmt := d.bits 2 29 26, shape := d.bits 2 31 30 }
  let x1 : Source32 := { loc := d.bits 2 57 32, fmt := d.bits 2 61 58, shape := d.bits 2 63 62 }
  let x2 : Source32 := { loc := d.bits 3 25 0, fmt := d.bits 3 29 26, shape := d.bits 3 31 30 }
  { src := [x0, x1, x2], dloc := d.bits 3 57 32, dfmt := d.bits 3 61 58, rows := d.bits 4 15 0,
    cols := d.bits 4 31 16, ld := d.bits 4 47 32, arith := d.bits 4 51 48, stages := d.bits 4 54 52 + 1,
    pair := d.bit 4 55, kind := d.bits 4 59 56, axis := d.bit 4 60, summary := d.bit 4 61, mask := d.bit 4 62,
    ftq := d.bit 4 63, chain := d.bits 5 25 0, mloc := d.bits 5 57 32, rloc := d.bits 6 25 0, drop := d.bits 6 47 32 }

/-- Reserved fields of a CHAIN, some of them by what the other fields say (R375, R376). -/
def chainSpans (c : ChainCtl) : List Span :=
  let f (i : Nat) : Nat := (c.src.getD i { loc := 0, fmt := 0, shape := 0 }).fmt
  [(3, 63, 62), (5, 31, 26), (5, 63, 58), (6, 31, 26), (6, 63, 48), (7, 63, 0)] ++
  (if c.ftq then [(2, 29, 26)] else []) ++
  (if c.ftq ∨ f 0 = 0 then [(2, 25, 0), (2, 31, 30)] else []) ++
  (if f 1 = 0 then [(2, 57, 32), (2, 63, 62)] else []) ++
  (if f 2 = 0 then [(3, 25, 0), (3, 31, 30)] else []) ++
  (if c.dfmt = 0 then [(3, 57, 32)] else []) ++
  (if c.mask then [] else [(5, 57, 32)]) ++
  (if c.axis then [] else [(6, 25, 0)])

/-- The sources in use that lie in memory, with their index. -/
def ChainCtl.sources (c : ChainCtl) : List (Nat × Source32) :=
  (c.src.zipIdx.map (fun p => (p.2, p.1))).filter (fun p => decide (p.2.fmt ≠ 0) && !(c.ftq && decide (p.1 = 0)))

/-- BF16 or FP16. -/
def halfFmt (f : Nat) : Bool := decide (f = 2 ∨ f = 3)

/-- Check 1 of R388 but for the stage words. -/
def chainBad (d : Desc) (c : ChainCtl) : Option Nat :=
  let srcFmtOffset (i : Nat) : Nat := 19 + 4 * i
  let wide (f : Nat) : Bool := decide (f ≠ 0) && !halfFmt f
  let locBad (l : Nat) : Bool := decide (l % 64 ≠ 0)
  minBad (spansBad (descWords d) (chainSpans c) ++
    c.src.mapIdx (fun i x => (decide (3 < x.fmt), srcFmtOffset i)) ++
    c.sources.map (fun p => (locBad p.2.loc, 16 + 4 * p.1)) ++
    [(decide (9 < c.dfmt), 31), (decide (8 < c.kind), 39), (arithBad c.arith, 38), (decide (c.rows = 0), 32),
     (decide (c.cols = 0), 34), (c.axis && decide (c.kind = 0), 39), (decide (c.ld < c.cols), 36),
     (decide ((c.dfmt = 6 ∨ c.dfmt = 7) ∧ c.ld % 4 ≠ 0), 36), (decide (c.dfmt = 8 ∧ c.ld % 2 ≠ 0), 36),
     (c.pair && (wide c.dfmt || c.sources.any (fun p => wide p.2.fmt)), 38),
     (decide (c.dfmt ≠ 0) && locBad c.dloc, 28), (locBad c.chain, 40), (c.mask && locBad c.mloc, 44),
     (c.axis && locBad c.rloc, 48)])

/-! ### Stage words (R380, R381) -/

structure StageOp where
  op : Nat
  sels : List Nat
  save : Bool
  imm : U32
  deriving DecidableEq, Repr

def stageOp (w : Word) : StageOp :=
  let n := w.toNat
  { op := bitsOf n 7 0, sels := [bitsOf n 10 8, bitsOf n 13 11, bitsOf n 16 14], save := bitOf n 17,
    imm := BitVec.ofNat 32 (bitsOf n 63 32) }

/-- Operands of an operation; 0 for a reserved OP. -/
def stageArity (op : Nat) : Nat :=
  match op with
  | 0x01 => 1
  | 0x02 => 2
  | 0x03 => 2
  | 0x04 => 2
  | 0x05 => 3
  | 0x06 => 2
  | 0x07 => 2
  | 0x08 => 1
  | 0x09 => 1
  | 0x0A => 1
  | 0x0B => 3
  | 0x0C => 3
  | 0x0D => 2
  | 0x0E => 1
  | 0x0F => 1
  | 0x10 => 1
  | 0x11 => 2
  | 0x12 => 1
  | 0x13 => 1
  | 0x14 => 1
  | 0x15 => 1
  | 0x16 => 1
  | 0x17 => 1
  | 0x18 => 2
  | _ => 0

/-- Class A stages. -/
def stageClassA (op : Nat) : Bool := decide (1 ≤ op ∧ op ≤ 0x0D)

/-- A selector that names nothing: reserved, an unused source, or T before any SAVE (R380, R388). -/
def selBad (have_ : List Bool) (first saved : Bool) (sel : Nat) : Bool :=
  let src := if sel = 0 ∧ first then 1 else sel
  decide (sel = 7) || (decide (1 ≤ src ∧ src ≤ 3) && !(have_.getD (src - 1) false)) || (decide (sel = 5) && !saved)

/-- The first offending byte of a stage word. -/
def stageBad (have_ : List Bool) (first saved : Bool) (w : Word) : Option Nat :=
  let o := stageOp w
  let n := stageArity o.op
  if n = 0 then some 0
  else if (o.sels.take n).any (selBad have_ first saved) || (o.sels.drop n).any (fun x => decide (x ≠ 0)) then some 1
  else if bitsOf w.toNat 31 18 ≠ 0 then some 2
  else none

/-- The first bad stage word and its offending byte. -/
def stagesBad (have_ : List Bool) : List Word → Nat → Bool → Option (Nat × Nat)
  | [], _, _ => none
  | w :: t, i, saved =>
    match stageBad have_ (decide (i = 0)) saved w with
    | some o => some (i, o)
    | none => stagesBad have_ t (i + 1) (saved || (stageOp w).save)

/-- The result of an operation on its operands; DROP is decided apart. -/
def stageEval (a : Arith) (op : Nat) (x y z : U32) : U32 :=
  match op with
  | 0x01 => fmov a x
  | 0x02 => fadd a x y
  | 0x03 => fsub a x y
  | 0x04 => fmul a x y
  | 0x05 => ffma a x y z
  | 0x06 => fmax a x y
  | 0x07 => fmin a x y
  | 0x08 => fabs a x
  | 0x09 => fneg a x
  | 0x0A => fmax a x 0
  | 0x0B => fmin a (fmax a x y) z
  | 0x0C =>
    match rd32 a x with
    | .nan => nan32
    | .inf neg => if neg then fmov a z else fmov a y
    | .fin neg n _ => if neg ∧ n ≠ 0 then fmov a z else fmov a y
  | 0x0D =>
    match rd32 a x, rd32 a y with
    | .nan, _ => 0
    | _, .nan => 0
    | u, v => if cmpVal u v = .gt then one32 else 0
  | 0x0E => frcp a x
  | 0x0F => frsqrt a x
  | 0x10 => fsqrt a x
  | 0x11 => fdiv a x y
  | 0x12 => fexp a x
  | 0x13 => fln a x
  | 0x14 => ftanh a x
  | 0x15 => fsigmoid a x
  | 0x16 => fgelu a x
  | 0x17 => fsilu a x
  | _ => fmul a x y

/-- What a chain carries from stage to stage: P, P before saturate mode replaced an infinite X0, T, and whether a stage
gave the largest finite value in place of an overflow or an infinity (R389). -/
structure ChainPos where
  p : U32
  raw : U32
  t : U32
  limited : Bool
  deriving DecidableEq, Repr

def selVal (p t imm : U32) (x : List U32) (sel : Nat) : U32 :=
  match sel with
  | 0 => p
  | 1 => x.getD 0 0
  | 2 => x.getD 1 0
  | 3 => x.getD 2 0
  | 4 => imm
  | 5 => t
  | _ => 0

/-- One stage at one position. `xs` are the sources after R288, `raws` before; `keep` says that DROP keeps. -/
def stageStep (a : Arith) (bigs : List U32) (xs raws : List U32) (keep : U32 → Bool) (s : ChainPos) (o : StageOp) :
    ChainPos :=
  let v (i : Nat) : U32 := selVal s.p s.t o.imm xs (o.sels.getD i 0)
  let r (i : Nat) : U32 := selVal s.raw s.t o.imm raws (o.sels.getD i 0)
  let dropped := decide (o.op = 0x18) && !keep o.imm
  let p := if dropped then 0 else stageEval a o.op (v 0) (v 1) (v 2)
  let lim := a.sat && !dropped && bigs.contains (p &&& 0x7FFFFFFF) &&
    isInf32 (stageEval { a with sat := false, mark := true } o.op (r 0) (r 1) (r 2))
  { p := p, raw := p, t := if o.save then p else s.t, limited := s.limited || lim }

/-- A source element in FP32, with R288 on its own format. -/
def srcVal (sat : Bool) (f : NumFmt) (code : Nat) : U32 :=
  wr32 arithRne (satIn (fpOf f) (sat && decide (f ≠ .fp32)) (decodeFp (fpOf f) code))

/-- The whole chain at one position: its output and whether a stage limited it. -/
def chainAt (a : Arith) (stages : List StageOp) (keep : U32 → Bool) (codes : List (NumFmt × Nat)) : U32 × Bool :=
  let xs := codes.map (fun x => srcVal a.sat x.1 x.2)
  let raws := codes.map (fun x => srcVal false x.1 x.2)
  let bigs := maxF32 :: ((xs.zip raws).filter (fun z => decide (z.1 ≠ z.2))).map (fun z => z.1 &&& 0x7FFFFFFF)
  let r := stages.foldl (stageStep a bigs xs raws keep)
    { p := xs.getD 0 0, raw := raws.getD 0 0, t := 0, limited := false }
  (r.p, r.limited)

/-! ### Reductions (R385) -/

structure RedVal where
  v : U32
  idx : Option Nat
  deriving DecidableEq, Repr

def redIdent (kind : Nat) (sat : Bool) : RedVal :=
  let v : U32 := match kind with
    | 2 => one32
    | 3 => if sat then 0xFF7FFFFF else ninf32
    | 4 => if sat then maxF32 else inf32
    | _ => 0
  { v := v, idx := none }

/-- The order of ARGMAX and ARGMIN: NaN counts as the largest and as the smallest value (R303). -/
def argBetter (kind : Nat) (x y : U32) : Bool :=
  if isNan32 x then !isNan32 y
  else if isNan32 y then false
  else if kind = 6 then ltMax (decodeFp fp32 y.toNat) (decodeFp fp32 x.toNat)
  else ltMax (decodeFp fp32 x.toNat) (decodeFp fp32 y.toNat)

def redStep (a : Arith) (kind : Nat) (lane : RedVal) (v : U32) (i : Nat) : RedVal :=
  match kind with
  | 2 => { lane with v := fmul a lane.v v }
  | 3 => { lane with v := fmax a lane.v v }
  | 4 => { lane with v := fmin a lane.v v }
  | 8 => { lane with v := ffma a v v lane.v }
  | 1 => { lane with v := fadd a lane.v v }
  | 5 => { lane with v := fadd a lane.v v }
  | k => if lane.idx.isNone || argBetter k v lane.v then { v := v, idx := some i } else lane

def redComb (a : Arith) (kind : Nat) (x y : RedVal) : RedVal :=
  match kind with
  | 2 => { x with v := fmul a x.v y.v }
  | 3 => { x with v := fmax a x.v y.v }
  | 4 => { x with v := fmin a x.v y.v }
  | 1 => { x with v := fadd a x.v y.v }
  | 5 => { x with v := fadd a x.v y.v }
  | 8 => { x with v := fadd a x.v y.v }
  | k => if y.idx.isNone then x else if x.idx.isNone || argBetter k y.v x.v then y else x

def isArg (kind : Nat) : Bool := decide (kind = 6 ∨ kind = 7)

/-- The finish of R385 over n positions; an index is given relative to `base`. -/
def redFinish (a : Arith) (kind n base : Nat) (x : RedVal) : U32 :=
  match kind with
  | 5 => if n = 0 then 0 else fmul a x.v (rcpNat n)
  | 8 => fsqrt a x.v
  | 6 => (x.idx.map (fun i => BitVec.ofNat 32 (i - base))).getD 0xFFFFFFFF
  | 7 => (x.idx.map (fun i => BitVec.ofNat 32 (i - base))).getD 0xFFFFFFFF
  | _ => x.v

/-! ### Outputs and summaries (R389, R390) -/

/-- What a written row comes to: its data bytes, its scale bytes, its values as written, and which were limited. -/
structure RowOut where
  bytes : List Byte
  scales : List Byte
  vals : List U32
  limits : List Bool
  deriving DecidableEq, Repr

/-- The bytes of a row of codes. -/
def rowBytes (f : NumFmt) (codes : List Nat) : List Byte := packCodes (fmtBits f) codes

/-- Converts a row of FP32 outputs to a destination format (R286 to R294, R378). `draw` is by column. -/
def rowConvert (f : NumFmt) (a : ArithCtl) (draw : Nat → Nat) (vs : List U32) : RowOut :=
  if f = .fp32 then
    { bytes := rowBytes f (vs.map (·.toNat)), scales := [], vals := vs, limits := vs.map (fun _ => false) }
  else if isMx f then
    let blocks := (chunksOf 32 vs.length vs).mapIdx (fun b xs =>
      mxConvert .fp32 f a (fun i => draw (32 * b + i)) (xs.map (fun x => decodeFp fp32 x.toNat)))
    { bytes := rowBytes f (blocks.flatMap (·.codes)), scales := blocks.map (fun b => BitVec.ofNat 8 b.scale),
      vals := blocks.flatMap (fun b => b.codes.map (fun c => wr32 arithRne (mxVal f b.scale c))),
      limits := blocks.flatMap (·.limits) }
  else
    let rs := vs.mapIdx (fun i x => convFp fp32 (fpOf f) (rndOf a (draw i)) a.sat x.toNat)
    { bytes := rowBytes f (rs.map (·.code)), scales := [], vals := rs.map (fun r => widen (fpOf f) r.code),
      limits := rs.map (fun r => r.limited && a.sat) }

/-- The larger of two finite magnitudes, as FP32 codes without sign. -/
def magMax (m : U32) (v : U32) : U32 :=
  let x := v &&& 0x7FFFFFFF
  if isFinite32 v && decide (m.toNat < x.toNat) then x else m

def sat32 (n : Nat) : Nat := satAt 0xFFFFFFFF n

/-- Word 0 of a summary entry (R389). -/
def summaryWord0 (unit kind : Nat) (empty nonfinite nan limited : Bool) (token season : Nat) : Word :=
  BitVec.ofNat 64 (unit + kind * 2 ^ 16 + b2n empty * 2 ^ 20 + b2n nonfinite * 2 ^ 21 + b2n nan * 2 ^ 22 +
    b2n limited * 2 ^ 23 + token % 4096 * 2 ^ 32 + season % 2 ^ 20 * 2 ^ 44)

def twoWords (lo hi : Nat) : Word := BitVec.ofNat 64 (lo % 2 ^ 32 + hi % 2 ^ 32 * 2 ^ 32)

/-- What the positions taking part add up to: count, non-finite outputs, NaN seen, largest magnitude, rows with no
position taking part. -/
structure OutTally where
  count : Nat
  nonfinite : Nat
  nan : Bool
  amax : U32
  emptyRows : Nat
  limited : Nat
  deriving DecidableEq, Repr

def OutTally.zero : OutTally := { count := 0, nonfinite := 0, nan := false, amax := 0, emptyRows := 0, limited := 0 }

/-- Tallies one position taking part. -/
def tallyPos (t : OutTally) (v : U32) (limited : Bool) : OutTally :=
  { t with count := t.count + 1, nonfinite := t.nonfinite + b2n (!isFinite32 v), nan := t.nan || isNan32 v,
           amax := magMax t.amax v, limited := t.limited + b2n limited }

def tallyRow (part : Nat → Bool) (vals : List U32) (limits : List Bool) (t : OutTally) : OutTally :=
  let t' := (vals.zipIdx).foldl (fun t p => if part p.2 then tallyPos t p.1 (limits.getD p.2 false) else t) t
  if t'.count = t.count then { t' with emptyRows := t'.emptyRows + 1 } else t'

/-! ### Running a CHAIN -/

/-- Whether mask row r has column c (R379). -/
def State.maskBit (s : State) (base cols r c : Nat) : Bool :=
  bitOf (s.mem.read (base + r * (4 * cdiv cols 32) + c / 8)).toNat (c % 8)

/-- The elements of a source (R376). -/
def shapeCount (c : ChainCtl) (shape : Nat) : Nat :=
  match shape with
  | 0 => (c.rows - 1) * c.ld + c.cols
  | 1 => c.rows
  | 2 => c.cols
  | _ => 1

def shapeIndex (ld shape r col : Nat) : Nat :=
  match shape with
  | 0 => r * ld + col
  | 1 => r
  | 2 => col
  | _ => 0

def srcFmt (c : Nat) : NumFmt := (numFmtOf c).getD .fp32

/-- Bytes of n elements of a format. -/
def fmtBytes (f : NumFmt) (n : Nat) : Nat := cdiv (n * fmtBits f) 8

/-- The extents of a CHAIN in the order of check 3: name, location, offset, bytes. Names 0 to 2 are the sources, 3 the
destination, 4 its scales, 5 the mask, 6 the chain, 7 the per-row results. -/
def chainExtents (c : ChainCtl) : List (Nat × Nat × Nat × Nat) :=
  let df := srcFmt c.dfmt
  c.sources.map (fun p => (p.1, p.2.loc, 0, fmtBytes (srcFmt p.2.fmt) (shapeCount c p.2.shape))) ++
  (if c.dfmt = 0 then [] else [(3, c.dloc, 0, fmtBytes df ((c.rows - 1) * c.ld + c.cols))]) ++
  (if c.dfmt ≠ 0 ∧ isMx df then [(4, c.dloc, roundUp (fmtBytes df (c.rows * c.ld)) 64, c.rows * cdiv c.cols 32)] else []) ++
  (if c.mask then [(5, c.mloc, 0, c.rows * 4 * cdiv c.cols 32)] else []) ++
  [(6, c.chain, 0, 8 * c.stages)] ++
  (if c.axis then [(7, c.rloc, 0, 4 * c.rows)] else [])

/-- Places of extents, by name; fails at the first extent that lies where it may not. -/
def State.placeAll (s : State) (n : Fin 256) (lim : Nat) : List (Nat × Nat × Nat × Nat) →
    Except Fail (List (Nat × Nat × Nat))
  | [] => .ok []
  | (name, loc, add, bytes) :: t =>
    match s.place n lim loc add bytes with
    | .error f => .error f
    | .ok a => match s.placeAll n lim t with
      | .error f => .error f
      | .ok r => .ok ((name, a, bytes) :: r)

/-- The place of a named extent. -/
def placeOf (ps : List (Nat × Nat × Nat)) (name : Nat) : Nat := ((ps.find? (fun p => decide (p.1 = name))).map (·.2.1)).getD 0

def isWritten (name : Nat) : Bool := decide (name = 3 ∨ name = 4 ∨ name = 7)

/-- A FULL source at the destination's place and format may coincide with it. -/
def sameAsDst (c : ChainCtl) (name : Nat) : Bool :=
  c.sources.any (fun p => decide (p.1 = name ∧ p.2.shape = 0 ∧ p.2.loc = c.dloc ∧ p.2.fmt = c.dfmt))

/-- Check 4 of R388: the offset of the field of a written extent that meets a read one. -/
def chainOverlap (c : ChainCtl) (ps : List (Nat × Nat × Nat)) : Option Nat :=
  firstSome (fun w =>
    if ps.any (fun r => !isWritten r.1 && !(decide (w.1 = 3) && sameAsDst c r.1) && overlap w.2.1 w.2.2 r.2.1 r.2.2)
    then some (if w.1 = 7 then 48 else 28) else none)
    (ps.filter (fun p => isWritten p.1))

/-- The limit of a vector or row engine's places in its core's window. -/
def coreLim : Nat := 0x290000

/-- The checks of R388 but for check 5: the stage words and the places. -/
def State.chainCheck (s : State) (n : Fin 256) (q : QDesc) (c : ChainCtl) : Except Fail (List Word × List (Nat × Nat × Nat)) :=
  match chainBad q.desc c with
  | some o => .error (failFormat q.addr o)
  | none =>
    let have_ := [c.ftq || (c.src.map (·.fmt)).getD 0 0 != 0, (c.src.map (·.fmt)).getD 1 0 != 0,
      (c.src.map (·.fmt)).getD 2 0 != 0]
    let words : List Word := match s.place n coreLim c.chain 0 (8 * c.stages) with
      | .ok a => wordsOf (s.readMem a (8 * c.stages)) c.stages
      | .error _ => []
    match stagesBad have_ words 0 false with
    | some (i, o) => .error (failFormat (locAddr n c.chain + 8 * i) o)
    | none =>
      if c.pair && words.any (fun w => !stageClassA (stageOp w).op) then .error (failFormat q.addr 38)
      else if c.ftq ∧ s.cores[n].vec.ftqSlots = 0 then .error (failFormat q.addr 39)
      else match s.placeAll n coreLim (chainExtents c) with
        | .error f => .error f
        | .ok ps => match chainOverlap c ps with
          | some o => .error (failFormat q.addr o)
          | none => .ok (words, ps)

/-- Whether DROP keeps element e (R384). -/
def State.dropKeeps (s : State) (n : Fin 256) (season drop e : Nat) (imm : U32) : Bool :=
  let back := imm.toNat / 65536
  let ctr := ctrDrop (season + 2 ^ 48 - back) (uidEngine n.val 2).toNat drop (e / 8)
  decide (imm.toNat % 65536 ≤ pepperDraw s.job.pepper ctr (e % 8))

/-- The chain at a position; `x0` is the tile's element with FTQ set. -/
def State.chainPos (s : State) (n : Fin 256) (r : Running) (c : ChainCtl) (stages : List Word)
    (ps : List (Nat × Nat × Nat)) (x0 : Option (NumFmt × Nat)) (row col : Nat) : U32 × Bool :=
  let code (i : Nat) (x : Source32) : NumFmt × Nat :=
    match (if i = 0 then x0 else none) with
    | some v => v
    | none =>
      if x.fmt = 0 then (.fp32, 0)
      else
        let w := fmtBits (srcFmt x.fmt) / 8
        (srcFmt x.fmt, s.readNat (placeOf ps i + w * shapeIndex c.ld x.shape row col) w)
  chainAt (stageArith (arithCtlOf c.arith)) (stages.map stageOp)
    (s.dropKeeps n r.season c.drop (row * c.cols + col)) (c.src.mapIdx code)

/-- Whether a position takes part (R379). -/
def State.chainPart (s : State) (c : ChainCtl) (ps : List (Nat × Nat × Nat)) (row col : Nat) : Bool :=
  !c.mask || s.maskBit (placeOf ps 5) c.cols row col

/-- The accumulator of a row (R386). -/
def chainRowAcc (a : Arith) (c : ChainCtl) (part : Nat → Bool) (row : Nat) (out : List (U32 × Bool)) : RedVal :=
  rowAcc (redIdent c.kind a.sat)
    (fun lane col => if part col then redStep a c.kind lane (out.getD col (0, false)).1 (row * c.cols + col) else lane)
    (redComb a c.kind) c.cols

/-- A reduction's flags on one result: non-finite, NaN; an index or an empty result sets neither. -/
def redFlags (kind n : Nat) (v : U32) : Bool × Bool :=
  if isArg kind || decide (n = 0) || isFinite32 v then (false, false) else (true, isNan32 v)

/-- Writes the results of a chain, counts them, and gives its summary. `out` is row by row. -/
def State.chainWrite (s : State) (n : Fin 256) (r : Running) (c : ChainCtl) (ps : List (Nat × Nat × Nat))
    (out : List (List (U32 × Bool))) : State × Option Summary :=
  let a := stageArith (arithCtlOf c.arith)
  let unit := (uidEngine n.val 2).toNat
  let part := s.chainPart c ps
  let df := srcFmt c.dfmt
  let rows := out.mapIdx (fun i xs =>
    if c.dfmt = 0 then
      ({ bytes := [], scales := [], vals := xs.map (·.1), limits := xs.map (·.2) } : RowOut)
    else
      let y := rowConvert df (arithCtlOf c.arith)
        (fun j => if (arithCtlOf c.arith).round = 2 then convDraw s.job.pepper r.season unit r.ordinal (i * c.cols + j) else 0)
        (xs.map (·.1))
      { y with limits := List.zipWith (fun p q => p || q) y.limits (xs.map (·.2)) })
  let tally := (rows.zipIdx).foldl (fun t p => tallyRow (part p.2) p.1.vals p.1.limits t) OutTally.zero
  let accs := out.mapIdx (fun i xs => chainRowAcc a c (part i) i xs)
  let counts := (List.range c.rows).map (fun i => ((List.range c.cols).filter (part i)).length)
  let whole := accs.foldl (redComb a c.kind) (redIdent c.kind a.sat)
  let result := if c.kind = 0 then 0 else redFinish a c.kind tally.count 0 whole
  let rowRes := accs.mapIdx (fun i x => redFinish a c.kind (counts.getD i 0) (i * c.cols) x)
  let flags := if c.kind = 0 then [] else
    redFlags c.kind tally.count result ::
      (if c.axis then rowRes.mapIdx (fun i v => redFlags c.kind (counts.getD i 0) v) else [])
  let s := (rows.zipIdx).foldl (fun s p =>
    let s := if c.dfmt = 0 then s else s.writeMem (placeOf ps 3 + p.2 * c.ld * fmtBits df / 8) p.1.bytes
    if c.dfmt ≠ 0 ∧ isMx df then s.writeMem (placeOf ps 4 + p.2 * cdiv c.cols 32) p.1.scales else s) s
  let s := if c.axis then s.writeMem (placeOf ps 7) (rowRes.flatMap (fun v => leBytes 4 v.toNat)) else s
  let s := s.modVec n (fun v => { v with
    elements := wrap64 v.elements (c.rows * c.cols), nonfinite := wrap64 v.nonfinite tally.nonfinite,
    limited := wrap64 v.limited tally.limited })
  let empty := decide (c.kind ≠ 0) && (decide (tally.count = 0) || (c.axis && decide (0 < tally.emptyRows)))
  let aux := if isArg c.kind then whole.v else 0
  let sum : Summary :=
    { w0 := summaryWord0 unit c.kind empty (decide (0 < tally.nonfinite) || flags.any (·.1))
        (tally.nan || flags.any (·.2)) (decide (0 < tally.limited)) r.q.desc.postToken r.season
      w1 := twoWords result.toNat aux.toNat
      w2 := twoWords (sat32 tally.count) (sat32 tally.nonfinite)
      w3 := twoWords tally.amax.toNat (tally.emptyRows % 65536) }
  (s, if c.summary then some sum else none)

/-! ### Tiles (R367, R371) -/

def SlotTile.rowBase (t : SlotTile) : Nat := bitsOf t.h0.toNat 15 0
def SlotTile.colBase (t : SlotTile) : Nat := bitsOf t.h0.toNat 31 16
def SlotTile.rows (t : SlotTile) : Nat := bitsOf t.h0.toNat 39 32
def SlotTile.cols (t : SlotTile) : Nat := bitsOf t.h0.toNat 47 40
def SlotTile.fmt (t : SlotTile) : Nat := bitsOf t.h0.toNat 51 48
def SlotTile.last (t : SlotTile) : Bool := bitOf t.h0.toNat 52

/-- Bytes of an element of a tile (R368). -/
def tileElem (fmt : Nat) : Nat := if fmt = 1 then 4 else 2

/-- Where row r of a tile in slot k of a core's queue starts (R365, R368). -/
def tileRowAddr (n : Fin 256) (k fmt r : Nat) : Nat := coreBase n.val + 0x270000 - k * 0x10000 + r * (128 * tileElem fmt)

/-- Element (r, c) of a tile, read from its slot. -/
def State.tileCode (s : State) (n : Fin 256) (t : SlotTile) (r c : Nat) : Nat :=
  s.readNat (tileRowAddr n t.slot t.fmt r + c * tileElem t.fmt) (tileElem t.fmt)

/-- Frees the head tile's slot. -/
def popTile (v : Vec) : Vec := { v with ftq := v.ftq.drop 1, tilesConsumed := wrap64 v.tilesConsumed 1 }

/-- Check 5 of R388. -/
def tileMismatch (c : ChainCtl) (t : SlotTile) : Bool :=
  decide (t.h1.toNat % 65536 ≠ c.rows ∨ t.h1.toNat / 65536 % 65536 ≠ c.cols) || (c.pair && decide (t.fmt ≠ 2))

/-- The positions of a tile with the chain's results. -/
def State.tileOut (s : State) (n : Fin 256) (r : Running) (c : ChainCtl) (stages : List Word)
    (ps : List (Nat × Nat × Nat)) (t : SlotTile) (out : Tab (U32 × Bool)) : Tab (U32 × Bool) :=
  (List.range (t.rows * t.cols)).foldl (fun o i =>
    let row := t.rowBase + i / t.cols
    let col := t.colBase + i % t.cols
    tabSet o (row * c.cols + col)
      (s.chainPos n r c stages ps (some (srcFmt t.fmt, s.tileCode n t (i / t.cols) (i % t.cols))) row col)) out

/-- A CHAIN with FTQ set keeps its stage words and its results from tile to tile. -/
def State.chainKeep (s : State) (n : Fin 256) (g : Fin 32) (q : QueueId) (r : Running) (j : VecJob) : State :=
  (s.modVec n (fun v => { v with job := some j })).setRunning g q r { r with phase := .working }

/-- Takes the head tile of a CHAIN with FTQ set; the last tile ends the work. -/
def State.chainTile (s : State) (n : Fin 256) (g : Fin 32) (q : QueueId) (r : Running) (c : ChainCtl)
    (ps : List (Nat × Nat × Nat)) (j : VecJob) (t : SlotTile) : State :=
  let out := s.tileOut n r c j.stages ps t j.out
  let s' := s.modVec n popTile
  if t.last then
    let rows := (List.range c.rows).map (fun i => (List.range c.cols).map (fun j => tabGet out (0, false) (i * c.cols + j)))
    let (s', sum) := (s'.modVec n (fun v => { v with job := none })).chainWrite n r c ps rows
    s'.finishDesc g q r sum
  else s'.chainKeep n g q r { j with out := out }

/-- What a CHAIN works with: its stage words, read and checked once, when it starts (R380), with its results so far, and the places of
its extents. -/
def State.chainJob (s : State) (n : Fin 256) (r : Running) (c : ChainCtl) : Except Fail (VecJob × List (Nat × Nat × Nat)) :=
  match r.phase, s.cores[n].vec.job with
  | .working, some j => (s.placeAll n coreLim (chainExtents c)).map (fun ps => (j, ps))
  | _, _ => (s.chainCheck n r.q c).map (fun x => ({ stages := x.1, out := [] }, x.2))

/-- CHAIN (R375 to R390): without FTQ the whole descriptor; with it, one tile, or none while the queue is empty. Check 5 of R388 is
made on the first tile. -/
def execChain (core : Fin 256) (s : State) : Out :=
  let g := clusterOfCore core
  let q := QueueId.vector (coreK core)
  match s.activeOp g q 1 with
  | none => .next s
  | some r =>
    let c := chainCtl r.q.desc
    let fail := fun f => Host.Outcome.next ((s.modVec core (fun v => { v with job := none })).failDesc g q r f)
    match s.chainJob core r c with
    | .error f => fail f
    | .ok (j, ps) =>
      if c.ftq then
        match s.cores[core].vec.ftq with
        | [] => .next (s.chainKeep core g q r j)
        | t :: _ =>
          if j.out = [] ∧ tileMismatch c t then
            fail { code := 0x0502, arg0 := t.h1.toNat, arg1 := c.rows + c.cols * 65536 }
          else .next (s.chainTile core g q r c ps j t)
      else
        let out := (List.range c.rows).map (fun i =>
          (List.range c.cols).map (fun i' => s.chainPos core r c j.stages ps none i i'))
        let (s, sum) := s.chainWrite core r c ps out
        .next (s.finishDesc g q r sum)

/-- TILE_DROP (R374): takes the head tile of a command, up to the one with LAST set. -/
def execTileDrop (core : Fin 256) (s : State) : Out :=
  let g := clusterOfCore core
  let q := QueueId.vector (coreK core)
  match s.activeOp g q 2 with
  | none => .next s
  | some r =>
    match firstNonzero (descWords r.q.desc) bodySpans with
    | some o => .next (s.failDesc g q r (failFormat r.q.addr o))
    | none =>
      match s.cores[core].vec.ftq with
      | [] => .next s
      | t :: _ =>
        let s := s.modVec core (fun v => { popTile v with tilesDropped := wrap64 v.tilesDropped 1 })
        .next (if t.last then s.finishDesc g q r none else s.setRunning g q r { r with phase := .working })

end Sys2Proof.Machine
end

