-- ==== Sys2Proof/Machine/MatrixPlan.lean ====
section
/-! DEFINITION. MatrixPlan.lean: the fields of matrix commands, their checks, the metadata of sparse operands and masks, and
the passes a product folds into (R306 to R315, R321 to R338, R341 to R360). -/

namespace Sys2Proof.Machine

/-! ### Fields (R323, R331, R333) -/

/-- A matrix product as a MATMUL names it; `depthField` says that K came from DEPTH (R331). -/
structure MatCtl where
  aLoc : Nat
  aFmt : Nat
  aTr : Bool
  aScale : Nat
  bLoc : Nat
  bFmt : Nat
  bTr : Bool
  bScale : Nat
  dLoc : Nat
  dFmt : Nat
  dest : Nat
  cLoc : Nat
  cMode : Nat
  m : Nat
  n : Nat
  k : Nat
  mode : Nat
  arith : Nat
  aAs : Nat
  bAs : Nat
  lda : Nat
  ldb : Nat
  ldd : Nat
  ldc : Nat
  meta_ : Nat
  sparse : Nat
  mask : Nat
  fill : Bool
  deriving DecidableEq, Repr

def mxCode (f : Nat) : Bool := decide (4 ≤ f ∧ f ≤ 9)
def fmtCodeOk (f : Nat) : Bool := decide (1 ≤ f ∧ f ≤ 9)

/-- The formats an operand has in the array. -/
def MatCtl.fa (c : MatCtl) : Nat := if c.aAs = 0 then c.aFmt else c.aAs
def MatCtl.fb (c : MatCtl) : Nat := if c.bAs = 0 then c.bFmt else c.bAs

/-- Twice kpf, KB and fpr of a pair (R306). -/
def pairClass (fa fb : Nat) : Nat × Nat × Nat :=
  if fa = 2 ∨ fa = 3 ∨ fb = 2 ∨ fb = 3 then (1, 128, 2)
  else if fa = 8 ∧ fb = 8 then (4, 256, 1)
  else (2, 128, 1)

/-- Words 2 to 4, which MATMUL and MATMUL_FILL share. -/
def matBase (d : Desc) : MatCtl :=
  { aLoc := d.bits 2 25 0, aFmt := d.bits 2 29 26, aTr := d.bit 2 30, aScale := d.bits 2 57 32,
    bLoc := d.bits 3 25 0, bFmt := d.bits 3 29 26, bTr := d.bit 3 30, bScale := d.bits 3 57 32,
    dLoc := d.bits 4 25 0, dFmt := d.bits 4 29 26, dest := d.bits 4 31 30, cLoc := d.bits 4 57 32,
    cMode := d.bits 4 59 58, m := 0, n := 0, k := 0, mode := 0, arith := 0, aAs := 0, bAs := 0, lda := 0, ldb := 0,
    ldd := 0, ldc := 0, meta_ := 0, sparse := 0, mask := 0, fill := false }

/-- R323. -/
def matmulCtl (d : Desc) : MatCtl :=
  { matBase d with
    m := d.bits 5 15 0, n := d.bits 5 31 16, k := d.bits 5 47 32, mode := d.bits 5 49 48, arith := d.bits 5 53 50,
    aAs := d.bits 5 57 54, bAs := d.bits 5 61 58, lda := d.bits 6 15 0, ldb := d.bits 6 31 16, ldd := d.bits 6 47 32,
    ldc := d.bits 6 63 48, meta_ := d.bits 7 25 0, sparse := d.bits 7 27 26, mask := d.bits 7 29 28 }

/-- R331: the MATMUL that a MATMUL_FILL is. -/
def fillCtl (d : Desc) : MatCtl :=
  let b := matBase d
  let depth := d.bits 5 15 0
  let weight := d.bit 5 16
  let m := if weight then depth else 128
  let k := if weight then (pairClass b.aFmt b.bFmt).2.1 else depth
  { b with
    m := m, n := 128, k := k, mode := b2n weight, arith := d.bits 5 20 17, lda := if b.aTr then m else k,
    ldb := if b.bTr then k else 128, ldd := 128, ldc := 128, fill := true }

/-! ### Metadata (R341 to R352) -/

/-- The header of a metadata region. -/
structure MetaHead where
  kind : Nat
  keep : Nat
  group : Nat
  rows : Nat
  length : Nat
  deriving DecidableEq, Repr

def metaWord (bs : List Byte) (off : Nat) : Nat := leNat ((bs.drop off).take 8)

def metaHead (bs : List Byte) : MetaHead :=
  let w := metaWord bs 0
  { kind := bitsOf w 3 0, keep := bitsOf w 11 8, group := bitsOf w 15 12, rows := bitsOf w 31 16,
    length := bitsOf w 47 32 }

/-- Patterns of R344. -/
def patternOk (keep group : Nat) : Bool := decide ((keep, group) ∈ [(2, 4), (1, 4), (4, 8)])

/-- N:M metadata is declared. -/
def MatCtl.isNM (c : MatCtl) : Bool := decide (c.sparse = 1 ∨ c.sparse = 2 ∨ c.mask = 1)
def MatCtl.isBlock (c : MatCtl) : Bool := decide (c.sparse = 3 ∨ c.mask = 2)
def MatCtl.hasMeta (c : MatCtl) : Bool := c.isNM || c.isBlock

/-- ROWS and LENGTH that a use requires (R344). -/
def MatCtl.metaShape (c : MatCtl) : Nat × Nat :=
  if c.sparse = 1 then (if c.aTr then (c.k, c.m) else (c.m, c.k))
  else if c.sparse = 2 then (if c.bTr then (c.n, c.k) else (c.k, c.n))
  else if c.sparse = 3 then (cdiv c.n 128, c.k)
  else if c.mask = 1 then (c.n, c.m)
  else (cdiv c.n 128, c.m)

/-- Bytes of the N:M region, or of the header and tile descriptors of a block region. -/
def MatCtl.metaBytes (c : MatCtl) : Nat :=
  let (rows, len) := c.metaShape
  if c.isNM then 64 + rows * (4 * cdiv len 32) else 64 + 64 * rows

/-- Bit x of N:M metadata row r (R345). -/
def nmKept (bs : List Byte) (len r x : Nat) : Bool :=
  bitOf (bs.getD (64 + r * (4 * cdiv len 32) + x / 8) 0).toNat (x % 8)

/-- The kept positions of x's group before x. -/
def nmRank (bs : List Byte) (len group r x : Nat) : Nat :=
  ((List.range (x % group)).filter (fun i => nmKept bs len r (x / group * group + i))).length

/-- The value slot of a kept position (R346). -/
def nmSlot (bs : List Byte) (h : MetaHead) (r x : Nat) : Nat := x / h.group * h.keep + nmRank bs h.length h.group r x

/-- A tile descriptor (R350). -/
structure TileDesc where
  ofs : Nat
  raw : Bool
  count : Nat
  list : Nat
  deriving DecidableEq, Repr

def tileDesc (bs : List Byte) (j : Nat) : TileDesc :=
  let w := metaWord bs (64 + 64 * j)
  { ofs := bitsOf w 24 0, raw := bitOf w 25, count := bitsOf w 47 32, list := bitsOf (metaWord bs (72 + 64 * j)) 24 0 }

/-- Bytes of an index list (R351): COUNT 0 leaves one padded line. -/
def listBytes (count : Nat) : Nat := max 64 (roundUp (2 * count) 64)

/-- Entry i of a tile's index list. -/
def listEntry (bs : List Byte) (t : TileDesc) (i : Nat) : Nat := leNat ((bs.drop (t.list + 2 * i)).take 2)

/-- The present K-blocks of a tile, with nk blocks in all. -/
def tileBlocks (bs : List Byte) (nk j : Nat) : List Nat :=
  let t := tileDesc bs j
  if t.raw then List.range nk else (List.range t.count).map (listEntry bs t)

/-- BLOCK_BYTES of a stored format (R349). -/
def blockBytes (f : Nat) : Nat := fmtBytes (srcFmt f) 4096 + (if mxCode f then 128 else 0)

/-! ### Layouts (R324, R346, R361) -/

/-- Stored rows and elements of a stored row of A: slots where A is compressed. `h` is the header's pattern, if valid. -/
def slotsOf (h : MetaHead) (len : Nat) : Nat := if patternOk h.keep h.group then cdiv len h.group * h.keep else 0

def MatCtl.aDims (c : MatCtl) (h : MetaHead) : Nat × Nat :=
  let d := if c.aTr then (c.k, c.m) else (c.m, c.k)
  if c.sparse = 1 then (d.1, slotsOf h d.2) else d

def MatCtl.bDims (c : MatCtl) (h : MetaHead) : Nat × Nat :=
  let d := if c.bTr then (c.n, c.k) else (c.k, c.n)
  if c.sparse = 2 then (d.1, slotsOf h d.2) else if c.sparse = 3 then (c.k, 128) else d

def MatCtl.dDims (c : MatCtl) (h : MetaHead) : Nat × Nat :=
  if c.mask = 1 then (c.n, slotsOf h c.m) else (c.m, c.n)

/-- Format of C by C_MODE. -/
def MatCtl.cFmt (c : MatCtl) : Nat := if c.cMode = 2 then 2 else 1

/-- D goes to memory. -/
def MatCtl.dMem (c : MatCtl) : Bool := decide (c.dest ≠ 1)

/-- Names of extents: 0 A, 1 its scales, 2 B, 3 its scales, 4 C, 5 D, 6 metadata. -/
def MatCtl.extents (c : MatCtl) (h : MetaHead) : List (Nat × Nat × Nat × Nat) :=
  let stored (f : Nat) (d : Nat × Nat) (ld : Nat) : Nat := fmtBytes (srcFmt f) ((d.1 - 1) * ld + d.2)
  let g := cdiv c.k 32
  [(0, c.aLoc, 0, stored c.aFmt (c.aDims h) c.lda)] ++
  (if mxCode c.aFmt then [(1, c.aScale, 0, c.m * g)] else []) ++
  (if c.sparse = 3 then [] else [(2, c.bLoc, 0, stored c.bFmt (c.bDims h) c.ldb)]) ++
  (if mxCode c.bFmt ∧ c.sparse ≠ 3 then [(3, c.bScale, 0, c.n * g)] else []) ++
  (if c.cMode = 0 then [] else [(4, c.cLoc, 0, stored c.cFmt (c.dDims h) c.ldc)]) ++
  (if c.dMem then [(5, c.dLoc, 0, stored c.dFmt (c.dDims h) c.ldd)] else []) ++
  (if c.hasMeta then [(6, c.meta_, 0, c.metaBytes)] else [])

/-- R325. -/
def MatCtl.inPlace (c : MatCtl) : Bool :=
  decide (c.cMode = 1 ∧ c.dFmt = 1 ∧ c.dest ≠ 1 ∧ c.dLoc = c.cLoc ∧ c.ldd = c.ldc)

/-! ### The checks of R326 -/

/-- Reserved fields of words 2 to 4. -/
def baseSpans (c : MatCtl) : List Span :=
  [(2, 31, 31), (2, 63, 58), (3, 31, 31), (3, 63, 58), (4, 63, 60)] ++
  (if mxCode c.aFmt then [] else [(2, 57, 32)]) ++
  (if mxCode c.bFmt ∧ c.sparse ≠ 3 then [] else [(3, 57, 32)]) ++
  (if c.dest = 1 then [(4, 25, 0)] else []) ++
  (if c.cMode = 0 then [(4, 57, 32)] else [])

def matSpans (c : MatCtl) : List Span :=
  baseSpans c ++
  (if c.fill then [(5, 63, 21), (6, 63, 0), (7, 63, 0)]
   else [(5, 63, 62), (7, 63, 30)] ++ (if c.dest = 1 then [(6, 47, 32)] else []) ++
     (if c.cMode = 0 then [(6, 63, 48)] else []) ++ (if c.sparse = 0 ∧ c.mask = 0 then [(7, 25, 0)] else []))

/-- A leading dimension that R326 refuses for a format. -/
def ldBad (f ld row : Nat) : Bool :=
  decide (ld < row) || (decide (f = 6 ∨ f = 7) && decide (ld % 4 ≠ 0)) || (decide (f = 8) && decide (ld % 2 ≠ 0))

/-- Conversions of R318. -/
def convOk (src dst : Nat) : Bool :=
  (decide (src = 1) && decide (dst = 2 ∨ dst = 3)) || (decide (src = 1 ∨ src = 2 ∨ src = 3) && mxCode dst)

/-- Row 1 of R326, with R370. `h` gives the compressed row lengths; `ftq` is FTQ_SLOTS. -/
def matBad (d : Desc) (c : MatCtl) (h : MetaHead) (ftq : Nat) : Option Nat :=
  minBad (spansBad (descWords d) (matSpans c) ++
    [(!fmtCodeOk c.aFmt, 19), (!fmtCodeOk c.bFmt, 27), (decide (c.dFmt ≠ 1 ∧ c.dFmt ≠ 2), 35), (decide (c.dest = 3), 35),
     (decide (c.cMode = 3), 39), (decide (9 < c.aAs), 46), (decide (9 < c.bAs), 47),
     (arithBad c.arith, if c.fill then 42 else 46), (decide (c.mask = 3), 59), (decide (c.m = 0), 40),
     (decide (c.n = 0), 42), (decide (c.k = 0), if c.fill then 40 else 44),
     (ldBad c.aFmt c.lda (c.aDims h).2, 48), (ldBad c.bFmt c.ldb (c.bDims h).2, 50),
     (c.dMem && decide (c.ldd < (c.dDims h).2), 52), (decide (c.cMode ≠ 0) && decide (c.ldc < (c.dDims h).2), 54),
     (decide (c.dest = 1 ∨ c.dest = 2) && decide (ftq = 0), 35)])

/-- Row 2. -/
def pairBad (c : MatCtl) : Bool :=
  (mxCode c.aFmt && decide (c.aAs ≠ 0)) || (mxCode c.bFmt && decide (c.bAs ≠ 0)) || decide (c.fa = 1 ∨ c.fb = 1) ||
  !pairOk (srcFmt c.fa) (srcFmt c.fb) ||
  (decide (c.aAs ≠ 0 ∧ c.aAs ≠ c.aFmt) && !convOk c.aFmt c.fa) ||
  (decide (c.bAs ≠ 0 ∧ c.bAs ≠ c.bFmt) && !convOk c.bFmt c.fb)

/-- Row 3. -/
def alignBad (c : MatCtl) : Option Nat :=
  minBad [(decide (c.aLoc % 64 ≠ 0), 16), (decide (c.bLoc % 64 ≠ 0), 24),
    (decide (c.cMode ≠ 0) && decide (c.cLoc % 64 ≠ 0), 36), (c.dMem && decide (c.dLoc % 64 ≠ 0), 32),
    (c.hasMeta && decide (c.meta_ % 64 ≠ 0), 56)]

/-- Row 4. -/
def declareBad (c : MatCtl) : Option Nat :=
  if c.sparse ≠ 0 ∧ c.mask ≠ 0 then some 59 else if c.mask ≠ 0 ∧ c.dest ≠ 0 then some 35 else none

/-- The field of an extent. -/
def extentField (name : Nat) : Nat :=
  match name with
  | 0 => 16
  | 1 => 20
  | 2 => 24
  | 3 => 28
  | 4 => 36
  | 5 => 32
  | _ => 56

/-- Row 5: the later field of the first two extents that share a byte. `es` are (name, address, bytes). -/
def extentsShare (allowCD : Bool) : List (Nat × Nat × Nat) → Option Nat
  | [] => none
  | x :: t =>
    match t.find? (fun y => overlap x.2.1 x.2.2 y.2.1 y.2.2 && !(allowCD && decide (x.1 = 4 ∧ y.1 = 5))) with
    | some y => some (extentField y.1)
    | none => extentsShare allowCD t

/-- The limit of a matrix operand in its core's window: the operand store (R326). -/
def storeLim : Nat := 0x200000

/-- The pattern in the metadata header, as far as it can be read. -/
def State.peekHead (s : State) (n : Fin 256) (c : MatCtl) : MetaHead :=
  match (if c.hasMeta then s.place n storeLim c.meta_ 0 64 else .error (failAddress 0 0)) with
  | .ok a => metaHead (s.readMem a 64)
  | .error _ => { kind := 0, keep := 0, group := 0, rows := 0, length := 0 }

/-- Rows 1 to 6 of R326; the places of the extents. -/
def State.matCheck (s : State) (n : Fin 256) (q : QDesc) (c : MatCtl) : Except Fail (List (Nat × Nat × Nat)) :=
  let h := s.peekHead n c
  let fmt (o : Nat) : Except Fail (List (Nat × Nat × Nat)) := .error (failFormat q.addr o)
  match matBad q.desc c h s.cores[n].vec.ftqSlots with
  | some o => fmt o
  | none =>
    if pairBad c then fmt 46
    else match alignBad c with
      | some o => fmt o
      | none => match declareBad c with
        | some o => fmt o
        | none =>
          let es := (c.extents h).map (fun e => (e.1, locAddr n e.2.1, e.2.2.2))
          match extentsShare c.inPlace es with
          | some o => fmt o
          | none => s.placeAll n storeLim (c.extents h)

/-! ### The checks of R353 -/

/-- Check 1. -/
def headBad (c : MatCtl) (bs : List Byte) : Option Nat :=
  let h := metaHead bs
  let (rows, len) := c.metaShape
  let w := metaWord bs 0
  minBad ([(decide (h.kind ≠ (if c.isNM then 1 else 2)), 0), (decide (bitsOf w 7 4 ≠ 0), 0), (decide (bitsOf w 63 48 ≠ 0), 6),
    (if c.isNM then !patternOk h.keep h.group else decide (h.keep ≠ 0 ∨ h.group ≠ 0), 1),
    (decide (h.rows ≠ rows), 2), (decide (h.length ≠ len), 4)] ++
    (List.range 7).map (fun i => (decide (metaWord bs (8 + 8 * i) ≠ 0), 8 + 8 * i)))

/-- Check 2 on the tile descriptors: the tile and the offset in its descriptor. -/
def tilesBad (bs : List Byte) (tiles : Nat) : Option (Nat × Nat) :=
  firstSome (fun j =>
    let w (i : Nat) : Nat := metaWord bs (64 + 64 * j + 8 * i)
    let t := tileDesc bs j
    (minBad ([(decide (t.ofs % 64 ≠ 0), 0), (decide (bitsOf (w 0) 31 26 ≠ 0), 3), (decide (bitsOf (w 0) 63 48 ≠ 0), 6),
      (decide ((if t.raw then t.list else t.list % 64) ≠ 0), 8), (decide (bitsOf (w 1) 63 25 ≠ 0), 11)] ++
      (List.range 6).map (fun i => (decide (w (2 + i) ≠ 0), 16 + 8 * i)))).map (fun o => (j, o)))
    (List.range tiles)

/-- The index lists of a block region: tile, offset, bytes. -/
def tileLists (bs : List Byte) (tiles : Nat) : List (Nat × Nat × Nat) :=
  ((List.range tiles).filter (fun j => !(tileDesc bs j).raw)).map
    (fun j => (j, (tileDesc bs j).list, listBytes (tileDesc bs j).count))

/-- The stored data of block-sparse tiles: tile, offset from B_LOC, bytes (R350, R351). -/
def tileData (bs : List Byte) (tiles nk blk : Nat) : List (Nat × Nat × Nat) :=
  (List.range tiles).map (fun j =>
    let t := tileDesc bs j
    (j, t.ofs, (if t.raw then nk else t.count) * blk))

/-- The first two of a list of ranges that share a byte: the later one's name. -/
def rangesShare : List (Nat × Nat × Nat) → Option Nat
  | [] => none
  | x :: t =>
    match t.find? (fun y => overlap x.2.1 x.2.2 y.2.1 y.2.2) with
    | some y => some y.1
    | none => rangesShare t

/-- Check 5: the row and the first offending position (R354). -/
def nmBad (bs : List Byte) (h : MetaHead) : Option (Nat × Nat) :=
  firstSome (fun r =>
    ((List.range (32 * cdiv h.length 32)).find? (fun x => nmKept bs h.length r x &&
      (decide (h.length ≤ x) || decide (h.keep ≤ nmRank bs h.length h.group r x)))).map (fun x => (r, x)))
    (List.range h.rows)

/-- A sparse-metadata event (R354, R560). -/
def failSparse (tile group index : Nat) : Fail :=
  { code := 0x0501, arg0 := group, arg1 := tile % 2 ^ 24 + index % 2 ^ 24 * 2 ^ 24 }

/-- Check 6 on a tile of blocks of `blk` bytes. -/
def tileListBad (bs : List Byte) (nk blk j : Nat) : Option Fail :=
  let t := tileDesc bs j
  let xs := (List.range t.count).map (listEntry bs t)
  if nk < t.count then some (failSparse j 0xFFFFFFFFFFFFFFFF t.count)
  else if t.raw then none
  else
    match (xs.zipIdx).find? (fun p => decide (nk ≤ p.1) || (decide (0 < p.2) && decide (p.1 ≤ xs.getD (p.2 - 1) 0))) with
    | some p => some (failSparse j p.2 p.1)
    | none =>
      if nk * blk < roundUp (2 * t.count) 64 + t.count * blk then
        some (failSparse j 0xFFFFFFFFFFFFFFFF t.count) else none

/-- The size of a block in R352: that of B's format; a mask names none, and its tiles are held to the largest (R349). -/
def MatCtl.tileBlock (c : MatCtl) : Nat := if c.sparse = 3 then blockBytes c.bFmt else 8192

/-- Where a block region ends: after its last descriptor or its last index list (R353). -/
def metaEnd (bs : List Byte) (tiles : Nat) : Nat :=
  (tileLists bs tiles).foldl (fun e l => max e (l.2.1 + l.2.2)) (64 + 64 * tiles)

/-- R353 for a block region, after check 1: the whole metadata, once it has passed. `ps` are the places of the other
extents. -/
def State.blockCheck (s : State) (n : Fin 256) (q : QDesc) (c : MatCtl) (ps : List (Nat × Nat × Nat)) (bs : List Byte) :
    Except Fail (List Byte) :=
  let (tiles, len) := c.metaShape
  let nk := cdiv len 32
  let at_ := locAddr n c.meta_
  if c.sparse = 3 ∧ c.bTr then .error (failFormat q.addr 27)
  else if c.sparse = 3 ∧ c.ldb ≠ 128 then .error (failFormat q.addr 50)
  else if c.mask = 2 ∧ c.mode ≠ 0 ∧ c.mode ≠ 3 then .error (failFormat q.addr 46)
  else match tilesBad bs tiles with
    | some (j, o) => .error (failFormat (at_ + 64 + 64 * j) o)
    | none =>
      let lists := tileLists bs tiles
      let data := if c.sparse = 3 then (tileData bs tiles nk c.tileBlock).filter (fun d => decide (d.2.2 ≠ 0)) else []
      let ends := metaEnd bs tiles
      match s.placeAll n storeLim ([(6, c.meta_, 0, ends)] ++ data.map (fun d => (2, c.bLoc, d.2.1, d.2.2))) with
      | .error f => .error f
      | .ok pd =>
        match rangesShare ((tiles, 0, 64 + 64 * tiles) :: lists) with
        | some j => .error (failFormat (at_ + 64 + 64 * j) 8)
        | none =>
          match rangesShare data with
          | some j => .error (failFormat (at_ + 64 + 64 * j) 0)
          | none =>
            match extentsShare c.inPlace (ps.filter (fun x => decide (x.1 < 2)) ++ pd.filter (fun x => decide (x.1 = 2)) ++
                ps.filter (fun x => decide (2 ≤ x.1 ∧ x.1 < 6)) ++ pd.filter (fun x => decide (x.1 = 6))) with
            | some o => .error (failFormat q.addr o)
            | none =>
              let all := s.readMem at_ ends
              match firstSome (tileListBad all nk c.tileBlock) (List.range tiles) with
              | some f => .error f
              | none => .ok all

/-- R353: the metadata as the command keeps it (R356); empty without any. -/
def State.metaCheck (s : State) (n : Fin 256) (q : QDesc) (c : MatCtl) (ps : List (Nat × Nat × Nat)) :
    Except Fail (List Byte) :=
  if !c.hasMeta then .ok []
  else
    let at_ := placeOf ps 6
    let bs := s.readMem at_ c.metaBytes
    match headBad c bs with
    | some o => .error (failFormat at_ o)
    | none =>
      if c.isBlock then s.blockCheck n q c ps bs
      else match nmBad bs (metaHead bs) with
        | some (r, x) => .error (failSparse r (x / (metaHead bs).group) x)
        | none => .ok bs

/-- Metadata bytes read by a command whose metadata fails (R356, R362): a block region whose lists were reached is read whole. -/
def State.metaReadBytes (s : State) (c : MatCtl) (ps : List (Nat × Nat × Nat)) (f : Fail) : Nat :=
  if c.isBlock ∧ f.code = 0x0501 then metaEnd (s.readMem (placeOf ps 6) c.metaBytes) c.metaShape.1 else c.metaBytes

/-! ### Passes (R306, R312 to R315, R330, R357 to R360) -/

/-- Blocks of a length: start and size. -/
def blocksOf (total size : Nat) : List (Nat × Nat) :=
  (List.range (cdiv total size)).map (fun i => (i * size, min size (total - i * size)))

/-- The sparse rate applies (R341, R357). -/
def MatCtl.sparseRate (c : MatCtl) (mode : StatMode) : Bool :=
  decide (mode = .output) && ((decide (c.sparse = 1) && !c.aTr) || (decide (c.sparse = 2) && c.bTr))

/-- A pass on the expanded path (R341). -/
def MatCtl.expanded (c : MatCtl) (mode : StatMode) : Bool :=
  decide (c.sparse ≠ 0) && !c.sparseRate mode && !(decide (c.sparse = 3) && decide (mode = .output))

/-- The shapes of the passes in the order of R315: first row, rows, first column, columns. -/
def passShapes (mode : StatMode) (m n k kb : Nat) : List (Nat × Nat × Nat × Nat) :=
  let mb := if mode = .weight ∧ k ≤ kb then [(0, m)] else blocksOf m 128
  let nb := if mode = .input ∧ k ≤ kb then [(0, n)] else blocksOf n 128
  nb.flatMap (fun x => mb.map (fun y => (y.1, y.2, x.1, x.2)))

/-- Whether a pass is skipped (R330, R359). -/
def MatCtl.skips (c : MatCtl) (mode : StatMode) (bs : List Byte) (sh : Nat × Nat × Nat × Nat) : Bool :=
  let (row0, rows, col0, _) := sh
  if c.sparse = 3 ∧ mode = .output then (tileBlocks bs (cdiv c.k 32) (col0 / 128)).isEmpty
  else if c.mask = 2 then
    !(tileDesc bs (col0 / 128)).raw &&
      (tileBlocks bs (cdiv c.m 32) (col0 / 128)).all (fun b => decide (b < row0 / 32 ∨ (row0 + rows - 1) / 32 < b))
  else false

/-- Firing periods of a pass (R312, R357). -/
def MatCtl.periods (c : MatCtl) (mode : StatMode) (bs : List Byte) (sh : Nat × Nat × Nat × Nat) : Nat :=
  let (kpf2, kb, fpr) := pairClass c.fa c.fb
  let (_, rows, col0, cols) := sh
  if c.skips mode bs sh then 0
  else match mode with
    | .output =>
      if c.sparseRate .output then cdiv c.k 32 * 32 / kpf2
      else if c.sparse = 3 then (tileBlocks bs (cdiv c.k 32) (col0 / 128)).length * 64 / kpf2
      else cdiv c.k 32 * 64 / kpf2
    | .weight => cdiv c.k kb * max (rows * fpr) 128
    | .input => cdiv c.k kb * max (cols * fpr) 128

/-- Periods of the whole command in a mode (R314, R358). -/
def MatCtl.totalPeriods (c : MatCtl) (bs : List Byte) (mode : StatMode) : Nat :=
  ((passShapes mode c.m c.n c.k (pairClass c.fa c.fb).2.1).map (c.periods mode bs)).sum

/-- The mode taken (R312, R314, R358). -/
def MatCtl.modeTaken (c : MatCtl) (bs : List Byte) : StatMode :=
  match c.mode with
  | 0 => .output
  | 1 => .weight
  | 2 => .input
  | _ =>
    if c.mask = 2 then .output
    else
      let o := c.totalPeriods bs .output
      let w := c.totalPeriods bs .weight
      let i := c.totalPeriods bs .input
      if o ≤ w ∧ o ≤ i then .output else if w ≤ i then .weight else .input

def passOf (c : MatCtl) (mode : StatMode) (bs : List Byte) (sh : Nat × Nat × Nat × Nat) : Pass :=
  { row0 := sh.1, rows := sh.2.1, col0 := sh.2.2.1, cols := sh.2.2.2, periods := c.periods mode bs sh,
    skipped := c.skips mode bs sh, held := false, phase := .ready, writes := [], tiles := [] }

def MatCtl.passes (c : MatCtl) (mode : StatMode) (bs : List Byte) : List Pass :=
  (passShapes mode c.m c.n c.k (pairClass c.fa c.fb).2.1).map (passOf c mode bs)

/-- What a completed command adds to USEFUL_MACS (R339, R362). -/
def MatCtl.useful (c : MatCtl) (bs : List Byte) : Nat :=
  if c.sparse = 3 then
    ((List.range (cdiv c.n 128)).map (fun j => c.m * 128 * 32 * (tileBlocks bs (cdiv c.k 32) j).length)).sum
  else c.m * c.n * c.k

/-! ### CONV (R333 to R336) -/

structure ConvCtl where
  x : Nat
  fmt : Nat
  h : Nat
  w : Nat
  wt : Nat
  wtFmt : Nat
  cin : Nat
  cout : Nat
  kh : Nat
  kw : Nat
  stride : Nat
  padH : Nat
  padW : Nat
  arith : Nat
  deriving DecidableEq, Repr

def convCtl (d : Desc) : ConvCtl :=
  { x := d.bits 2 25 0, fmt := d.bits 2 29 26, h := d.bits 2 47 32, w := d.bits 2 63 48, wt := d.bits 3 25 0,
    wtFmt := d.bits 3 29 26, cin := d.bits 3 43 32, cout := d.bits 3 55 44, kh := d.bits 5 3 0, kw := d.bits 5 7 4,
    stride := d.bits 5 10 8, padH := d.bits 5 13 11, padW := d.bits 5 16 14, arith := d.bits 5 20 17 }

/-- P and Q (R334); 0 where the kernel does not fit. -/
def outSize (len pad k stride : Nat) : Nat := if len + 2 * pad < k ∨ stride = 0 then 0 else (len + 2 * pad - k) / stride + 1
def ConvCtl.p (c : ConvCtl) : Nat := outSize c.h c.padH c.kh c.stride
def ConvCtl.q (c : ConvCtl) : Nat := outSize c.w c.padW c.kw c.stride
def ConvCtl.taps (c : ConvCtl) : Nat := c.kh * c.kw * c.cin

/-- The product that a CONV equals (R335). -/
def ConvCtl.mat (c : ConvCtl) (d : Desc) : MatCtl :=
  { matBase d with
    aLoc := c.x, aFmt := c.fmt, aTr := false, aScale := 0, bLoc := c.wt, bFmt := c.wtFmt, bTr := false, bScale := 0,
    m := c.p * c.q, n := c.cout, k := c.taps, mode := 0, arith := c.arith, lda := c.taps, ldb := c.cout,
    ldd := c.cout, ldc := c.cout }

def convSpans (m : MatCtl) : List Span :=
  [(2, 31, 30), (3, 31, 30), (3, 63, 56), (4, 63, 60), (5, 63, 21), (6, 63, 0), (7, 63, 0)] ++
  (if m.dest = 1 then [(4, 25, 0)] else []) ++ (if m.cMode = 0 then [(4, 57, 32)] else [])

/-- The format conditions of R333, R334 and row 1 of R326. -/
def convBad (d : Desc) (c : ConvCtl) (m : MatCtl) (ftq : Nat) : Option Nat :=
  minBad (spansBad (descWords d) (convSpans m) ++
    [(decide (c.fmt ≠ 2 ∧ c.fmt ≠ 3), 19), (decide (c.wtFmt ≠ c.fmt), 27), (decide (c.h = 0), 20), (decide (c.w = 0), 22),
     (decide (c.cin = 0), 28), (decide (c.cout = 0), 29), (decide (c.kh = 0), 40), (decide (c.kw = 0), 40),
     (decide (c.stride = 0 ∨ 4 < c.stride), 41), (arithBad c.arith, 42), (decide (m.dFmt ≠ 1 ∧ m.dFmt ≠ 2), 35),
     (decide (m.dest = 3), 35), (decide (m.cMode = 3), 39), (decide (m.dest = 1 ∨ m.dest = 2) && decide (ftq = 0), 35),
     (decide (c.p = 0 ∨ 65535 < m.m), 20), (decide (c.q = 0), 22),
     (decide (65535 < c.taps ∨ 196608 < c.kh * c.w * c.cin * 2), 40)])

/-- The extents of a CONV: the frame, the kernel, C and D. -/
def ConvCtl.extents (c : ConvCtl) (m : MatCtl) : List (Nat × Nat × Nat × Nat) :=
  let df (f : Nat) : Nat := fmtBytes (srcFmt f) (m.m * m.n)
  [(0, c.x, 0, 2 * (c.h * c.w * c.cin)), (2, c.wt, 0, 2 * (c.taps * c.cout))] ++
  (if m.cMode = 0 then [] else [(4, m.cLoc, 0, df m.cFmt)]) ++ (if m.dMem then [(5, m.dLoc, 0, df m.dFmt)] else [])

/-- The checks of a CONV; only core 0 of a cluster takes one (R333). -/
def State.convCheck (s : State) (n : Fin 256) (q : QDesc) (c : ConvCtl) (m : MatCtl) : Except Fail (List (Nat × Nat × Nat)) :=
  let fmt (o : Nat) : Except Fail (List (Nat × Nat × Nat)) := .error (failFormat q.addr o)
  if n.val % 8 ≠ 0 then fmt 0
  else match convBad q.desc c m s.cores[n].vec.ftqSlots with
    | some o => fmt o
    | none => match alignBad m with
      | some o => fmt o
      | none =>
        match extentsShare m.inPlace ((c.extents m).map (fun e => (e.1, locAddr n e.2.1, e.2.2.2))) with
        | some o => fmt o
        | none =>
          match firstSome (fun e => match s.placeAll n storeLim [e] with
              | .error _ => some (extentField e.1)
              | .ok _ => none) (c.extents m) with
          | some o => fmt o
          | none => s.placeAll n storeLim (c.extents m)

/-- The passes of a CONV (R336): channel block, then block of output columns, then output row. -/
def ConvCtl.passes (c : ConvCtl) : List Pass :=
  (blocksOf c.cout 128).flatMap (fun nb => (blocksOf c.q 128).flatMap (fun qb => (List.range c.p).map (fun p =>
    ({ row0 := p * c.q + qb.1, rows := qb.2, col0 := nb.1, cols := nb.2, periods := cdiv c.taps 32 * 64, skipped := false,
       held := false, phase := .ready, writes := [], tiles := [] } : Pass))))

end Sys2Proof.Machine
end

