-- ==== Sys2Proof/Machine/Matrix.lean ====
section
/-! DEFINITION. Matrix.lean: the commands of the matrix engine and of its transposing buffer, and ballast (R77 to R83, R306 to
R340, R356 to R362). -/

namespace Sys2Proof.Machine

/-! ### Operands as they are stored (R324, R346, R349) -/

/-- Code i of packed elements of a format in memory (R284). -/
def State.codeIn (s : State) (f base i : Nat) : Nat :=
  let w := fmtBits (srcFmt f)
  let sh := i * w % 8
  s.readNat (base + i * w / 8) (cdiv (sh + w) 8) / 2 ^ sh % 2 ^ w

/-- Position of a K-block in its tile's data (R351). -/
def blockIndex (bs : List Byte) (nk j b : Nat) : Option Nat := (tileBlocks bs nk j).findIdx? (fun x => decide (x = b))

/-- Where element (k, n) of a block-sparse B lies: the block's address and the element's index in it. -/
def blockAt (c : MatCtl) (bs : List Byte) (base k n : Nat) : Option (Nat × Nat) :=
  (blockIndex bs (cdiv c.k 32) (n / 128) (k / 32)).map (fun i =>
    (base + (tileDesc bs (n / 128)).ofs + i * blockBytes c.bFmt, k % 32 * 128 + n % 128))

/-- The stored code of element (m, k) of A; `none` where it is absent (R342). -/
def State.aCode (s : State) (c : MatCtl) (bs : List Byte) (base m k : Nat) : Option Nat :=
  let (row, pos) := if c.aTr then (k, m) else (m, k)
  if c.sparse = 1 then
    let h := metaHead bs
    if nmKept bs h.length row pos then some (s.codeIn c.aFmt base (row * c.lda + nmSlot bs h row pos)) else none
  else some (s.codeIn c.aFmt base (row * c.lda + pos))

/-- The stored code of element (k, n) of B. -/
def State.bCode (s : State) (c : MatCtl) (bs : List Byte) (base k n : Nat) : Option Nat :=
  let (row, pos) := if c.bTr then (n, k) else (k, n)
  if c.sparse = 3 then (blockAt c bs base k n).map (fun x => s.codeIn c.bFmt x.1 x.2)
  else if c.sparse = 2 then
    let h := metaHead bs
    if nmKept bs h.length row pos then some (s.codeIn c.bFmt base (row * c.ldb + nmSlot bs h row pos)) else none
  else some (s.codeIn c.bFmt base (row * c.ldb + pos))

/-- The input value of a CONV's element (m, k), from the rows that the row buffer holds: a padding tap is +0.0 (R335, R336). -/
def convCode (c : ConvCtl) (rows : List (Nat × List Byte)) (m k : Nat) : Nat :=
  let p := m / c.q
  let q := m % c.q
  let kh := k / (c.kw * c.cin)
  let kw := k / c.cin % c.kw
  let i := p * c.stride + kh
  let j := q * c.stride + kw
  if i < c.padH ∨ c.h ≤ i - c.padH ∨ j < c.padW ∨ c.w ≤ j - c.padW then 0
  else leNat (((tabGet rows [] (i - c.padH)).drop (2 * ((j - c.padW) * c.cin + k % c.cin))).take 2)

/-! ### Operand groups (R296, R318, R319, R348) -/

/-- 32 positions of an operand along K as the array gets them: values, which are present, codes, the shared scale; and what
the buffer counts: elements converted, limited, and whether the block became NaN (R340). -/
structure Grp where
  vals : List Val
  present : List Bool
  codes : List Nat
  scale : Option Nat
  converted : Nat
  limited : Nat
  nan : Bool
  deriving DecidableEq, Repr

def zeroVal : Val := .fin false 0 0

/-- Puts the values of the present positions back in place, +0.0 elsewhere. -/
def scatterVals {α : Type} (zero : α) : List Bool → List α → List α
  | [], _ => []
  | true :: t, x :: xs => x :: scatterVals zero t xs
  | _ :: t, xs => zero :: scatterVals zero t xs

/-- A group of stored codes in the array's format; `draw` is by position, `scale` the stored scale. -/
def grpOf (sf af : NumFmt) (a : ArithCtl) (draw : Nat → Nat) (scale : Nat) (codes : List (Option Nat)) : Grp :=
  let present := codes.map (·.isSome)
  let here := (codes.zipIdx).filterMap (fun p => p.1.map (fun c => (c, p.2)))
  if sf = af then
    { vals := codes.map (fun c => (c.map (elemVal af)).getD zeroVal), present := present, codes := codes.map (·.getD 0),
      scale := if isMx af then some scale else none, converted := 0, limited := 0, nan := false }
  else if isMx af then
    if here.isEmpty then
      { vals := codes.map (fun _ => zeroVal), present := present, codes := codes.map (fun _ => 0), scale := some 127,
        converted := 0, limited := 0, nan := false }
    else
      let b := mxConvert sf af a (fun i => draw ((here.getD i (0, 0)).2)) (here.map (fun x => decodeFp (fpOf sf) x.1))
      { vals := scatterVals zeroVal present (b.codes.map (elemVal af)), present := present,
        codes := scatterVals 0 present b.codes, scale := some b.scale, converted := here.length,
        limited := countTrue b.limits, nan := b.nanBlock }
  else
    let rs := here.map (fun x => convFp (fpOf sf) (fpOf af) (rndOf a (draw x.2)) a.sat x.1)
    { vals := scatterVals zeroVal present (rs.map (fun r => elemVal af r.code)), present := present,
      codes := scatterVals 0 present (rs.map (·.code)), scale := none, converted := here.length,
      limited := countTrue (rs.map (fun r => r.limited && a.sat)), nan := false }

/-- The draw of an element under SR; other roundings take none. -/
def State.srDraw (s : State) (r : Running) (unit : BitVec 16) (a : ArithCtl) (e : Nat) : Nat :=
  if a.round = 2 then convDraw s.job.pepper r.season unit.toNat r.ordinal e else 0

/-- Codes of group g; positions at or beyond K are completed (R296). -/
def groupCodes (k g : Nat) (code : Nat → Option Nat) : List (Option Nat) :=
  (List.range 32).map (fun i => if 32 * g + i < k then code (32 * g + i) else none)

/-- A matrix command's operands: its product and the mode taken, its metadata, the places of its extents, and the input rows that a CONV's pass
has in the row buffer. -/
structure MatOps where
  c : MatCtl
  conv : Option ConvCtl
  mode : StatMode
  meta_ : List Byte
  place : List (Nat × Nat × Nat)
  rows : List (Nat × List Byte)
  deriving DecidableEq, Repr

/-- Whether a pass whose columns start at `col0` reads K-block b: in OUTPUT mode a block-sparse product skips the blocks that its
tile lacks, in both operands (R341, R342). -/
def MatOps.readsBlock (o : MatOps) (col0 b : Nat) : Bool :=
  !decide (o.c.sparse = 3 ∧ o.mode = .output) || (tileBlocks o.meta_ (cdiv o.c.k 32) (col0 / 128)).contains b

/-- Row m of A by groups, as a pass whose columns start at `col0` reads it. -/
def State.aGroups (s : State) (n : Fin 256) (r : Running) (o : MatOps) (col0 m : Nat) : List Grp :=
  let c := o.c
  let nk := cdiv c.k 32
  let a := arithCtlOf c.arith
  (List.range nk).map (fun g =>
    grpOf (srcFmt c.aFmt) (srcFmt c.fa) a (fun i => s.srDraw r (uidEngine n.val 1) a (m * c.k + 32 * g + i))
      (if mxCode c.aFmt then s.readNat (placeOf o.place 1 + m * nk + g) 1 else 0)
      (groupCodes c.k g (fun k => match o.conv with
        | some v => some (convCode v o.rows m k)
        | none => if o.readsBlock col0 g then s.aCode c o.meta_ (placeOf o.place 0) m k else none)))

/-- Column n of B by groups. -/
def State.bGroups (s : State) (core : Fin 256) (r : Running) (o : MatOps) (n : Nat) : List Grp :=
  let c := o.c
  let nk := cdiv c.k 32
  let a := arithCtlOf c.arith
  let scaleAt (g : Nat) : Nat :=
    if !mxCode c.bFmt then 0
    else if c.sparse = 3 then
      ((blockAt c o.meta_ (placeOf o.place 2) (32 * g) n).map (fun x =>
        s.readNat (x.1 + (blockBytes c.bFmt - 128) + n % 128) 1)).getD 0
    else s.readNat (placeOf o.place 3 + n * nk + g) 1
  (List.range nk).map (fun g =>
    grpOf (srcFmt c.bFmt) (srcFmt c.fb) a
      (fun i => s.srDraw r (uidEngine core.val 1) a (c.m * c.k + (32 * g + i) * c.n + n)) (scaleAt g)
      (groupCodes c.k g (fun k => s.bCode c o.meta_ (placeOf o.place 2) k n)))

/-- One group into the accumulator: absent positions add +0.0, and take no part in the tests for NaN, a block's scale among them
(R342). -/
def dotGrp (fa fb : NumFmt) (sat : Bool) (a b : Grp) (acc : U32) : U32 :=
  let live := List.zipWith (fun x y => x && y) a.present b.present
  let mask (vs : List Val) : List Val := List.zipWith (fun v l => if l then v else zeroVal) vs live
  match groupExp { vals := a.vals, scale := a.scale } { vals := b.vals, scale := b.scale } with
  | none => if live.any (fun l => l) then nan32 else dotGroup fa fb sat 0 (mask a.vals) (mask b.vals) acc
  | some ex => dotGroup fa fb sat ex (mask a.vals) (mask b.vals) acc

/-- An output element before its conversion (R307). -/
def dotRow (c : MatCtl) (as bs : List Grp) (acc : U32) : U32 :=
  (as.zip bs).foldl (fun acc p =>
    dotGrp (srcFmt c.fa) (srcFmt c.fb) (arithCtlOf c.arith).sat p.1 p.2 acc) acc

/-! ### Outputs (R299, R319, R324, R329, R361) -/

/-- Element index of (m, n) in D and C: row-major, or the compressed layout of an N:M mask. -/
def dIndex (c : MatCtl) (bs : List Byte) (ld m n : Nat) : Nat :=
  if c.mask = 1 then n * ld + nmSlot bs (metaHead bs) n m else m * ld + n

/-- The accumulator's start: C, or +0.0. -/
def State.cIn (s : State) (o : MatOps) (m n : Nat) : U32 :=
  let c := o.c
  if c.cMode = 0 ∨ (c.mask = 1 ∧ !nmKept o.meta_ (metaHead o.meta_).length n m) then 0
  else
    let f := fpOf (srcFmt c.cFmt)
    wr32 arithRne (satIn f (arithCtlOf c.arith).sat (decodeFp f (s.codeIn c.cFmt (placeOf o.place 4) (dIndex c o.meta_ c.ldc m n))))

/-- An accumulator in D_FMT (R299). -/
def State.dCode (s : State) (n : Fin 256) (r : Running) (c : MatCtl) (row col : Nat) (v : U32) : Nat :=
  if c.dFmt = 2 then
    let a := arithCtlOf c.arith
    (convFp fp32 bf16 (rndOf a (s.srDraw r (uidEngine n.val 0) a (row * c.n + col))) a.sat v.toNat).code
  else v.toNat

/-- Whether a block mask drops element (m, n) (R330, R360). -/
def maskDrops (c : MatCtl) (bs : List Byte) (m n : Nat) : Bool :=
  decide (c.mask = 2) && !(tileBlocks bs (cdiv c.m 32) (n / 128)).contains (m / 32)

/-- What a pass reads of A and B, row by row and column by column. -/
def State.passGroups (s : State) (n : Fin 256) (r : Running) (o : MatOps) (p : Pass) : List (List Grp) × List (List Grp) :=
  if p.skipped then ([], [])
  else ((List.range p.rows).map (fun i => s.aGroups n r o p.col0 (p.row0 + i)),
    (List.range p.cols).map (fun j => s.bGroups n r o (p.col0 + j)))

/-- An element of D of a skipped pass that is not masked: C as the command converts it; the engine writes no FP32 subnormal
(R298, R359). -/
def skippedOut (c : MatCtl) (v : U32) : U32 :=
  if c.dFmt = 2 then v else dotRound (arithCtlOf c.arith).sat (decodeFp fp32 v.toNat)

/-- The block of D of a pass, row by row, in D_FMT. -/
def State.passOut (s : State) (n : Fin 256) (r : Running) (o : MatOps) (p : Pass) (as bs : List (List Grp)) :
    List (List Nat) :=
  (List.range p.rows).map (fun i => (List.range p.cols).map (fun j =>
    let m := p.row0 + i
    let col := p.col0 + j
    let v : U32 :=
      if maskDrops o.c o.meta_ m col then 0
      else if p.skipped then skippedOut o.c (s.cIn o m col)
      else dotRow o.c (as.getD i []) (bs.getD j []) (s.cIn o m col)
    s.dCode n r o.c m col v))

/-- The bytes of D that a pass writes, by address. -/
def passWrites (o : MatOps) (p : Pass) (out : List (List Nat)) : List (Nat × List Byte) :=
  let c := o.c
  let w := fmtBits (srcFmt c.dFmt) / 8
  let base := placeOf o.place 5
  if !c.dMem then []
  else if c.mask = 1 then
    let h := metaHead o.meta_
    let g0 := p.row0 / h.group
    let slots := (cdiv (p.row0 + p.rows) h.group - g0) * h.keep
    (List.range p.cols).map (fun j =>
      let n := p.col0 + j
      (base + (n * c.ldd + g0 * h.keep) * w,
        (List.range slots).flatMap (fun i =>
          let g := g0 + i / h.keep
          let kept := (List.range h.group).filter (fun x => nmKept o.meta_ h.length n (g * h.group + x))
          leBytes w (match kept[i % h.keep]? with
            | some x => (out.getD (g * h.group + x - p.row0) []).getD j 0
            | none => 0))))
  else out.mapIdx (fun i row => (base + ((p.row0 + i) * c.ldd + p.col0) * w, row.flatMap (fun v => leBytes w v)))

/-- The tiles of a pass in order: 128 rows and 128 columns at most (R328, R367). -/
def passTiles (c : MatCtl) (ordinal : Nat) (lastPass : Bool) (p : Pass) (out : List (List Nat)) : List Tile :=
  if c.dest = 0 then []
  else
    let cuts := (blocksOf p.rows 128).flatMap (fun rb => (blocksOf p.cols 128).map (fun cb => (rb, cb)))
    cuts.mapIdx (fun i x =>
      let last := lastPass && decide (i + 1 = cuts.length)
      { h0 := BitVec.ofNat 64 (p.row0 + x.1.1 + (p.col0 + x.2.1) * 2 ^ 16 + x.1.2 * 2 ^ 32 + x.2.2 * 2 ^ 40 +
          c.dFmt * 2 ^ 48 + b2n last * 2 ^ 52)
        h1 := BitVec.ofNat 64 (c.m + c.n * 2 ^ 16 + ordinal % 2 ^ 16 * 2 ^ 32)
        elems := (List.range x.1.2).flatMap (fun i => (List.range x.2.2).map (fun j =>
          BitVec.ofNat 32 ((out.getD (x.1.1 + i) []).getD (x.2.1 + j) 0))) })

/-! ### Commands under way -/

/-- The product of a matrix descriptor, and its CONV. -/
def descMat (d : Desc) : MatCtl × Option ConvCtl :=
  match d.opcode with
  | 1 => (matmulCtl d, none)
  | 2 => (fillCtl d, none)
  | _ => ((convCtl d).mat d, some (convCtl d))

/-- The places of a command's extents, without a check: they passed it. -/
def matPlaces (n : Fin 256) (c : MatCtl) (v : Option ConvCtl) : List (Nat × Nat × Nat) :=
  match v with
  | some v => (v.extents c).map (fun e => (e.1, locAddr n e.2.1, e.2.2.2))
  | none => [(0, locAddr n c.aLoc, 0), (1, locAddr n c.aScale, 0), (2, locAddr n c.bLoc, 0), (3, locAddr n c.bScale, 0),
      (4, locAddr n c.cLoc, 0), (5, locAddr n c.dLoc, 0), (6, locAddr n c.meta_, 0)]

def jobOps (n : Fin 256) (j : MatrixJob) : MatOps :=
  let (c, v) := descMat j.run.q.desc
  { c := c, conv := v, mode := j.mode, meta_ := j.meta_, place := matPlaces n c v, rows := [] }

/-- The first started descriptor that its engine has not taken. -/
def State.firstStarted (s : State) (g : Fin 32) (q : QueueId) : Option Running :=
  (s.queue g q).running.find? (fun r => decide (r.phase = .started))

def State.matrixNext (s : State) (n : Fin 256) (opcode : Nat) : Option Running :=
  (s.firstStarted (clusterOfCore n) (.matrix (coreK n))).filter (fun r => decide (r.q.desc.opcode = opcode))

/-- A command ends by a fault in its checks (R326, R355, R362). -/
def State.failMatrix (s : State) (n : Fin 256) (r : Running) (f : Fail) : State :=
  let s := if f.code = 0x0501 then s.modMatrix n (fun x => { x with sparseFaults := wrap64 x.sparseFaults 1 }) else s
  s.failDesc (clusterOfCore n) (.matrix (coreK n)) r f

/-- Takes a checked command: its passes wait for their turn. -/
def State.takeJob (s : State) (n : Fin 256) (r : Running) (mode : StatMode) (bs : List Byte) (ps : List Pass) : State :=
  let g := clusterOfCore n
  let r' : Running := { r with phase := .working }
  let s := s.setRunning g (.matrix (coreK n)) r r'
  let s := s.modMatrix n (fun x =>
    { x with mode := mode, metaBytes := wrap64 x.metaBytes bs.length,
             jobs := x.jobs ++ [{ run := r', mode := mode, meta_ := bs, passes := ps }] })
  s.modTbuf n (fun t => { t with bytesRead := wrap64 t.bytesRead bs.length })

/-- The checks of a MATMUL or MATMUL_FILL, and its passes. -/
def matmulOp (n : Fin 256) (r : Running) (c : MatCtl) (s : State) : State :=
  match s.matCheck n r.q c with
  | .error f => s.failMatrix n r f
  | .ok ps =>
    match s.metaCheck n r.q c ps with
    | .error f =>
      let got := s.metaReadBytes c ps f
      let s := s.modMatrix n (fun x => { x with metaBytes := wrap64 x.metaBytes got })
      (s.modTbuf n (fun t => { t with bytesRead := wrap64 t.bytesRead got })).failMatrix n r f
    | .ok bs =>
      let mode := c.modeTaken bs
      s.takeJob n r mode bs (c.passes mode bs)

/-- MATMUL (R326, R353). -/
def execMatmul (core : Fin 256) (s : State) : Out :=
  match s.matrixNext core 1 with
  | none => .next s
  | some r => .next (matmulOp core r (matmulCtl r.q.desc) s)

/-- MATMUL_FILL (R331, R332). -/
def execMatmulFill (core : Fin 256) (s : State) : Out :=
  match s.matrixNext core 2 with
  | none => .next s
  | some r => .next (matmulOp core r (fillCtl r.q.desc) s)

/-- CONV (R333 to R336). -/
def execConv (core : Fin 256) (s : State) : Out :=
  match s.matrixNext core 3 with
  | none => .next s
  | some r =>
    let v := convCtl r.q.desc
    match s.convCheck core r.q v (v.mat r.q.desc) with
    | .error f => .next (s.failMatrix core r f)
    | .ok _ => .next (s.takeJob core r .output [] v.passes)

/-! ### PASS_START (R308, R310, R311, R628) -/

/-- A range rounded out to 64 bytes. -/
def line64 (a n : Nat) : Nat × Nat := (a / 64 * 64, roundUp (a % 64 + n) 64)

/-- Whether two ranges meet at 64-byte granularity (R310). -/
def meets64 (x y : Nat × Nat) : Bool :=
  decide (0 < x.2 ∧ 0 < y.2) && overlap (line64 x.1 x.2).1 (line64 x.1 x.2).2 (line64 y.1 y.2).1 (line64 y.1 y.2).2

/-- Ranges in ascending order, joined where they touch. -/
def joinRanges (xs : List (Nat × Nat)) : List (Nat × Nat) :=
  xs.foldr (fun x acc => match acc with
    | [] => [x]
    | y :: t => if y.1 ≤ x.1 + x.2 then (x.1, max x.2 (y.1 + y.2 - x.1)) :: t else x :: acc) []

/-- The bytes of runs of elements (the first and how many) of stored row i. -/
def runBytes (f base ld i : Nat) (runs : List (Nat × Nat)) : List (Nat × Nat) :=
  let w := fmtBits (srcFmt f)
  joinRanges ((runs.filter (fun r => decide (0 < r.2))).map (fun r =>
    let lo := i * ld + r.1
    (base + lo * w / 8, cdiv ((lo + r.2) * w) 8 - lo * w / 8)))

/-- The slots of an N:M row that hold the kept ones of the positions from x0 on, `cnt` of them, group by group; unused slots
are not read (R346). -/
def nmRuns (bs : List Byte) (row x0 cnt : Nat) : List (Nat × Nat) :=
  let h := metaHead bs
  (List.range (cdiv (x0 + cnt) h.group - x0 / h.group)).map (fun i =>
    let kept := ((List.range h.group).map (fun y => (x0 / h.group + i) * h.group + y)).filter (fun x =>
      decide (x0 ≤ x ∧ x < x0 + cnt) && nmKept bs h.length row x)
    (nmSlot bs h row (kept.headD 0), kept.length))

/-- The bytes of an operand with rows `row0` on along its own side and the runs `ks` of K: stored with K contiguous, or transposed;
`nm` is its metadata where it is compressed along the stored row. -/
def operandRows (f base ld row0 rows : Nat) (ks : List (Nat × Nat)) (across : Bool) (nm : Option (List Byte)) :
    List (Nat × Nat) :=
  let runs (i : Nat) (cut : Nat × Nat) : List (Nat × Nat) :=
    match nm with
    | some bs => nmRuns bs i cut.1 cut.2
    | none => [cut]
  if across then
    (ks.flatMap (fun x => (List.range x.2).map (fun i => x.1 + i))).flatMap (fun k => runBytes f base ld k (runs k (row0, rows)))
  else (List.range rows).flatMap (fun i => runBytes f base ld (row0 + i) (ks.flatMap (runs (row0 + i))))

/-- The slots that the positions from x0 on, `cnt` of them, lie in: the first and how many (R346). -/
def slotCut (h : MetaHead) (x0 cnt : Nat) : Nat × Nat :=
  (x0 / h.group * h.keep, (cdiv (x0 + cnt) h.group - x0 / h.group) * h.keep)

/-- The input rows that a CONV's pass works on (R334, R336). -/
def ConvCtl.inputRows (v : ConvCtl) (p : Pass) : List Nat :=
  ((List.range v.kh).map (fun i => p.row0 / v.q * v.stride + i)).filterMap (fun i =>
    if v.padH ≤ i ∧ i - v.padH < v.h then some (i - v.padH) else none)

/-- The first pass of a channel block and column block: it starts with an empty row buffer (R336). -/
def ConvCtl.firstOfPair (v : ConvCtl) (p : Pass) : Bool := decide (p.row0 / v.q = 0)

/-- The input rows that the row buffer still holds for a pass, and those that the pass reads from memory. -/
def ConvCtl.held (v : ConvCtl) (p : Pass) (rows : List (Nat × List Byte)) : List (Nat × List Byte) :=
  if v.firstOfPair p then [] else rows.filter (fun r => (v.inputRows p).contains r.1)
def ConvCtl.missing (v : ConvCtl) (p : Pass) (rows : List (Nat × List Byte)) : List Nat :=
  (v.inputRows p).filter (fun i => !(v.held p rows).any (fun r => decide (r.1 = i)))

/-- Where an input row lies, and its bytes. -/
def ConvCtl.rowAt (v : ConvCtl) (base i : Nat) : Nat × Nat := (base + 2 * (i * v.w * v.cin), 2 * (v.w * v.cin))

/-- A pass reads C: every pass of a command that has one but those that a mask skips (R330, R359). -/
def MatCtl.readsC (c : MatCtl) (p : Pass) : Bool := decide (c.cMode ≠ 0) && !(p.skipped && decide (c.mask = 2))

/-- The bytes of C that a pass reads (R325, R361). -/
def cReads (o : MatOps) (p : Pass) : List (Nat × Nat) :=
  let c := o.c
  if !c.readsC p then []
  else if c.mask = 1 then
    operandRows c.cFmt (placeOf o.place 4) c.ldc p.col0 p.cols [(p.row0, p.rows)] false (some o.meta_)
  else operandRows c.cFmt (placeOf o.place 4) c.ldc p.row0 p.rows [(p.col0, p.cols)] false none

/-- The bytes of one block of a block-sparse tile that columns c0 on of the tile, `cnt` of them, take: rows below K, and the
scales (R349). -/
def blockReads (c : MatCtl) (base b c0 cnt : Nat) : List (Nat × Nat) :=
  (List.range (min 32 (c.k - 32 * b))).flatMap (fun i => runBytes c.bFmt base 128 i [(c0, cnt)]) ++
    (if mxCode c.bFmt then [(base + (blockBytes c.bFmt - 128) + c0, cnt)] else [])

/-- The bytes of a block-sparse B that a pass reads: the present blocks of its tiles, its own columns (R349 to R351). -/
def tileReads (o : MatOps) (p : Pass) : List (Nat × Nat) :=
  let c := o.c
  (List.range (cdiv c.n 128)).flatMap (fun j =>
    let lo := max p.col0 (128 * j)
    let cnt := min (p.col0 + p.cols) (128 * j + 128) - lo
    if cnt = 0 then []
    else (tileBlocks o.meta_ (cdiv c.k 32) j).zipIdx.flatMap (fun x =>
      blockReads c (placeOf o.place 2 + (tileDesc o.meta_ j).ofs + x.2 * blockBytes c.bFmt) x.1 (lo - 128 * j) cnt))

/-- The bytes of A and of B with its scales that a pass reads. -/
def abReads (o : MatOps) (p : Pass) : List (Nat × Nat) :=
  let c := o.c
  let nk := cdiv c.k 32
  let at_ := placeOf o.place
  let blocks := (List.range nk).filter (o.readsBlock p.col0)
  let ks := joinRanges (blocks.map (fun b => (32 * b, min 32 (c.k - 32 * b))))
  let nm (x : Nat) : Option (List Byte) := if c.sparse = x then some o.meta_ else none
  (match o.conv with
    | some v => (v.missing p o.rows).map (v.rowAt (at_ 0))
    | none => operandRows c.aFmt (at_ 0) c.lda p.row0 p.rows ks c.aTr (nm 1)) ++
  (if c.sparse = 3 then tileReads o p
   else operandRows c.bFmt (at_ 2) c.ldb p.col0 p.cols ks (!c.bTr) (nm 2)) ++
  (if mxCode c.aFmt then
    (List.range p.rows).flatMap (fun i => joinRanges (blocks.map (fun b => (at_ 1 + (p.row0 + i) * nk + b, 1)))) else []) ++
  (if mxCode c.bFmt ∧ c.sparse ≠ 3 then [(at_ 3 + p.col0 * nk, p.cols * nk)] else [])

/-- The operand bytes that a pass reads: A, B, their scales and C (R340). -/
def operandReads (o : MatOps) (p : Pass) : List (Nat × Nat) := (if p.skipped then [] else abReads o p) ++ cReads o p

/-- The ranges that a pass reads, the command's metadata among them (R310). -/
def passReads (o : MatOps) (p : Pass) : List (Nat × Nat) :=
  operandReads o p ++ (if o.c.hasMeta then [(placeOf o.place 6, o.meta_.length)] else [])

/-- The ranges of D that a pass writes. -/
def passWriteRanges (o : MatOps) (p : Pass) : List (Nat × Nat) :=
  (passWrites o p (List.replicate p.rows (List.replicate p.cols 0))).map (fun x => (x.1, x.2.length))

/-- A pass that holds a context. -/
def Pass.inContext (p : Pass) : Bool := decide (p.phase = .firing) && !p.skipped

/-- Contexts in use (R308). -/
def Matrix.contexts (x : Matrix) : Nat := ((x.jobs.flatMap (·.passes)).filter Pass.inContext).length

/-- The operands of a command whose next pass finds these rows in the row buffer. -/
def passOps (n : Fin 256) (j : MatrixJob) (rows : List (Nat × List Byte)) : MatOps := { jobOps n j with rows := rows }

/-- R310, with R356 for metadata: whether another command's passes hold this pass back. -/
def passHeld (n : Fin 256) (others : List MatrixJob) (o : MatOps) (p : Pass) : Bool :=
  let reads := passReads o p
  let writes := passWriteRanges o p
  others.any (fun j =>
    (j.passes.filter (fun x => decide (x.phase = .firing))).any (fun x => x.writes.any (fun w =>
      (reads ++ writes).any (fun y => meets64 (w.1, w.2.length) y))) ||
    writes.any (fun y => meets64 y (placeOf (jobOps n j).place 6, j.meta_.length)))

/-- The next pass to start, with its command and the commands before it: the first that has not started. -/
def nextPass : List MatrixJob → List MatrixJob → Option (List MatrixJob × MatrixJob × Pass)
  | _, [] => none
  | before, j :: t =>
    match j.passes.find? (fun p => decide (p.phase = .ready)) with
    | some p => some (before, j, p)
    | none => nextPass (before ++ [j]) t

/-- Changes the first ready pass of a command. -/
def MatrixJob.modReady (j : MatrixJob) (f : Pass → Pass) : MatrixJob :=
  { j with passes := modFirst (fun p => decide (p.phase = .ready)) f j.passes }

def Matrix.modJob (x : Matrix) (j : MatrixJob) (f : MatrixJob → MatrixJob) : Matrix :=
  { x with jobs := modFirst (fun y => decide (y.run = j.run)) f x.jobs }

/-- What a pass adds to the counters when it starts firing (R339, R362). -/
def matrixCount (c : MatCtl) (mode : StatMode) (bs : List Byte) (p : Pass) (x : Matrix) : Matrix :=
  let kpf2 := (pairClass c.fa c.fb).1
  if p.skipped then { x with skipped := wrap64 x.skipped 1 }
  else
    { x with
      firings := wrap64 x.firings p.periods
      capacityMacs := wrap64 x.capacityMacs (p.periods * 8192 * kpf2 * (if c.sparseRate mode then 2 else 1))
      sparsePasses := wrap64 x.sparsePasses (b2n (c.sparseRate mode))
      expandedPasses := wrap64 x.expandedPasses (b2n (c.expanded mode))
      blocksFired := wrap64 x.blocksFired (if c.sparse = 3 ∧ mode = .output then
        (tileBlocks bs (cdiv c.k 32) (p.col0 / 128)).length else 0) }

/-! ### Panels (R317) -/

/-- Positions along K that fit a panel of 64 KiB with 128 rows, in the stored format. -/
def panelWidth (f : Nat) : Nat := 4096 / fmtBits (srcFmt f) / 32 * 32

/-- The panels that a pass takes of an operand, in order: first row and rows, first position along K and positions. -/
def panelCuts (f row0 rows k : Nat) : List ((Nat × Nat) × (Nat × Nat)) :=
  (blocksOf rows 128).flatMap (fun rb => (blocksOf k (panelWidth f)).map (fun kb => ((row0 + rb.1, rb.2), kb)))

/-- A panel: the stored codes, and zero for absent positions where the buffer rebuilds the dense operand (R341). -/
def panelOf (f : Nat) (dense : Bool) (code : Nat → Nat → Option Nat) (x : (Nat × Nat) × (Nat × Nat)) : Panel :=
  { row0 := x.1.1, k0 := x.2.1,
    data := (List.range x.1.2).flatMap (fun i => rowBytes (srcFmt f) (((List.range x.2.2).map (fun j =>
      code (x.1.1 + i) (x.2.1 + j))).filterMap (fun c => if dense then some (c.getD 0) else c))) }

/-- The panel at place `i` of an operand's pair once a pass has loaded its panels in turn, the first into place `next`; what it held
before where the pass loads none there. -/
def lastPanel (loaded : List Panel) (next i : Nat) (old : Option Panel) : Option Panel :=
  match (loaded.zipIdx.filter (fun x => decide ((next + x.2) % 2 = i))).getLast? with
  | some x => some x.1
  | none => old

/-- The buffer as a pass that starts leaves it: each operand's pair is refilled in turn, one panel after the other; beside a CONV's
row buffer one panel is left, for its weights, and any other pass takes the row buffer's room (R317, R336). -/
def State.panelsAfter (s : State) (o : MatOps) (p : Pass) (t : TransBuf) : TransBuf :=
  let c := o.c
  let dense := c.sparse = 0 ∨ c.expanded o.mode
  let aAt (m k : Nat) : Option Nat := if o.readsBlock p.col0 (k / 32) then s.aCode c o.meta_ (placeOf o.place 0) m k else none
  let mkB := panelOf c.bFmt dense (fun n k => s.bCode c o.meta_ (placeOf o.place 2) k n)
  let filled (ps : List Panel) : List Panel := ps.filter (fun x => decide (x.data ≠ []))
  let b := filled ((panelCuts c.bFmt p.col0 p.cols c.k).map mkB)
  match o.conv with
  | some _ =>
    { t with panels := Vector.ofFn (fun (i : Fin 4) => if i = 3 then b.getLast? else none), nextPanel := (0, 0), rows := o.rows,
             rowbuf := true }
  | none =>
    let a := filled ((panelCuts c.aFmt p.row0 p.rows c.k).map (panelOf c.aFmt dense aAt))
    { t with
      panels := Vector.ofFn (fun (i : Fin 4) =>
        if i.val < 2 then lastPanel a t.nextPanel.1 i.val t.panels[i] else lastPanel b t.nextPanel.2 (i.val - 2) t.panels[i])
      nextPanel := ((t.nextPanel.1 + a.length) % 2, (t.nextPanel.2 + b.length) % 2)
      rows := []
      rowbuf := false }

/-- What the transposing buffer counts for a pass (R340). -/
def tbufCount (bytes : Nat) (as bs : List (List Grp)) (t : TransBuf) : TransBuf :=
  let gs := as.flatten ++ bs.flatten
  { t with
    elemsConverted := wrap64 t.elemsConverted ((gs.map (·.converted)).sum)
    elemsLimited := wrap64 t.elemsLimited ((gs.map (·.limited)).sum)
    nanBlocks := wrap64 t.nanBlocks (countTrue (gs.map (·.nan)))
    bytesRead := wrap64 t.bytesRead bytes }

/-- An array's ballast state once a real firing has begun (R79). -/
def ballastStart (x : Matrix) : BallastState :=
  match x.ballast with
  | .woundDown => if x.gapNs = 0 ∨ x.rampNs = 0 then .busy else .ramp 0
  | .ramp q => if x.gapNs = 0 ∨ x.rampNs = 0 then .busy else .ramp q
  | _ => .busy

/-- Writes the bytes of D of a pass. -/
def State.writeAll (s : State) (ws : List (Nat × List Byte)) : State := ws.foldl (fun s w => s.writeMem w.1 w.2) s

/-- Commands whose passes have all ended complete their work (R327, R339). -/
def State.matrixSettle (s : State) (n : Fin 256) : State :=
  let x := s.cores[n].mtx
  let ended := x.jobs.filter (fun j => j.passes.isEmpty)
  let macs := (ended.map (fun j => (descMat j.run.q.desc).1.useful j.meta_)).sum
  let left := x.jobs.filter (fun j => !j.passes.isEmpty)
  let s := s.modMatrix n (fun x => { x with jobs := left, usefulMacs := wrap64 x.usefulMacs macs })
  let s := s.modTbuf n (fun t => if left.isEmpty then t.empty
    else if left.any (fun j => (descMat j.run.q.desc).2.isSome) then t else { t with rows := [], rowbuf := false })
  ended.foldl (fun s j => s.finishDesc (clusterOfCore n) (.matrix (coreK n)) j.run none) s

/-- The operands of a pass that starts: a CONV's input rows that the row buffer lacks are read into it first (R336). -/
def State.startOps (s : State) (n : Fin 256) (j : MatrixJob) (p : Pass) : MatOps :=
  let o := passOps n j s.cores[n].tbuf.rows
  match o.conv with
  | some v => { o with rows := v.held p o.rows ++ (v.missing p o.rows).map (fun i =>
      (i, s.readMem (v.rowAt (placeOf o.place 0) i).1 (v.rowAt 0 i).2)) }
  | none => o

/-- Starts the pass of a command (R628): it reads its operands, and its results wait for the drain. -/
def State.passStart (s : State) (n : Fin 256) (j : MatrixJob) (p : Pass) : State :=
  let t := s.cores[n].tbuf
  let o := s.startOps n j p
  let (as, bs) := s.passGroups n j.run o p
  let out := s.passOut n j.run o p as bs
  let lastPass := decide ((j.passes.filter (fun x => decide (x.phase = .ready))).length = 1)
  let ws := passWrites o p out
  let tiles := passTiles o.c j.run.ordinal lastPass p out
  let p' : Pass := { p with phase := .firing, writes := if p.skipped then [] else ws, tiles := tiles }
  let s := s.modMatrix n (fun x =>
    let x := (matrixCount o.c j.mode j.meta_ p x).modJob j (fun j =>
      if p.skipped ∧ tiles = [] then { j with passes := delFirst (fun y => decide (y.phase = .ready)) j.passes }
      else j.modReady (fun _ => p'))
    if p.skipped then x else { x with ballast := ballastStart x, idle := false })
  let bytes := ((operandReads (passOps n j t.rows) p).map (·.2)).sum
  let t' := if p.skipped then t else s.panelsAfter o p t
  let s := s.modTbuf n (fun _ => tbufCount bytes as bs t')
  let s := if p.skipped then s.writeAll ws else s
  s.matrixSettle n

/-- The next pass of an array is held under R310; it waits for a context (R311). -/
def Matrix.nextHeld (x : Matrix) (n : Fin 256) (t : TransBuf) : Bool :=
  match nextPass [] x.jobs with
  | none => false
  | some (before, j, p) => passHeld n before (passOps n j t.rows) p
def Matrix.nextWaits (x : Matrix) : Bool :=
  match nextPass [] x.jobs with
  | none => false
  | some (_, _, p) => !p.skipped && decide (4 ≤ x.contexts)

/-- The array fires a pass: one is in flight, no idle interval has begun and no ballast been fired since it started, and its last
firing, which comes in the part's own time, has not been made (R308). -/
def State.matrixFires (s : State) (n : Fin 256) : Bool :=
  let x := s.cores[n].mtx
  decide (x.contexts ≠ 0 ∧ !x.idle ∧ x.ballast ≠ .woundDown ∧ x.ballast ≠ .ballast) && Config.firing n.val s.aon.rtc

/-- PASS_START (R310): the next pass, once no hazard holds it and a context is free; a skipped pass needs none. -/
def execPassStart (core : Fin 256) (s : State) : Out :=
  let x := s.cores[core].mtx
  match nextPass [] x.jobs with
  | none => .next s
  | some (_, j, p) =>
    if x.nextHeld core s.cores[core].tbuf then
      if p.held then .next s
      else .next (s.modMatrix core (fun x =>
        { x.modJob j (fun j => j.modReady (fun p => { p with held := true })) with
          hazardHolds := wrap64 x.hazardHolds 1 }))
    else if x.nextWaits then .next s
    else .next (s.passStart core j p)

/-! ### Tiles and the drain (R308, R327, R328, R369) -/

/-- The command and pass whose tile is next. -/
def tileNext (js : List MatrixJob) : Option (MatrixJob × Pass × Tile) :=
  firstSome (fun (j : MatrixJob) => firstSome (fun (p : Pass) => p.tiles.head?.map (fun t => (j, p, t))) j.passes) js

/-- The lowest slot that holds no tile. -/
def freeSlot (v : Vec) : Nat := ((List.range 4).find? (fun k => !v.ftq.any (fun t => decide (t.slot = k)))).getD 0

/-- Writes a tile's elements into slot k (R365, R368). -/
def State.storeTile (s : State) (n : Fin 256) (k : Nat) (t : Tile) : State :=
  let h : SlotTile := { h0 := t.h0, h1 := t.h1, slot := k }
  (List.range h.rows).foldl (fun s r => s.writeMem (tileRowAddr n k h.fmt r)
    ((List.range h.cols).flatMap (fun c => leBytes (tileElem h.fmt) (t.elems.getD (r * h.cols + c) 0).toNat))) s

/-- TILE_ENTER (R369): the next tile enters the queue while it has a free slot. -/
def execTileEnter (core : Fin 256) (s : State) : Out :=
  let c := s.cores[core]
  match tileNext c.mtx.jobs with
  | none => .next s
  | some (j, p, t) =>
    if c.vec.ftq.length < c.vec.ftqSlots then
      let rest := p.tiles.drop 1
      let k := freeSlot c.vec
      let s := (s.modVec core (fun v => { v with ftq := v.ftq ++ [{ h0 := t.h0, h1 := t.h1, slot := k }] })).storeTile core k t
      let s := s.modMatrix core (fun x => x.modJob j (fun j =>
        if p.skipped ∧ rest = [] then { j with passes := delFirst (fun y => decide (y = p)) j.passes }
        else { j with passes := modFirst (fun y => decide (y = p)) (fun y => { y with tiles := rest }) j.passes }))
      .next (s.matrixSettle core)
    else .next s

/-- The first pass that may drain: it fires, and its tiles have entered. -/
def drainNext (js : List MatrixJob) : Option (MatrixJob × Pass) :=
  firstSome (fun (j : MatrixJob) => (j.passes.find? (fun p => p.inContext && p.tiles.isEmpty)).map (fun p => (j, p))) js

/-- PASS_DRAIN_END (R308): D is written and the context freed. -/
def execPassDrainEnd (core : Fin 256) (s : State) : Out :=
  match drainNext s.cores[core].mtx.jobs with
  | none => .next s
  | some (j, p) =>
    let s := s.writeAll p.writes
    let s := s.modMatrix core (fun x =>
      { x.modJob j (fun j => { j with passes := delFirst (fun y => decide (y = p)) j.passes }) with
        passes := wrap64 x.passes 1 })
    .next (s.matrixSettle core)

/-! ### CONVERT (R337, R338) -/

/-- The product whose A is the source and whose checks a CONVERT takes. -/
def convertCtl (d : Desc) : MatCtl :=
  { matBase d with
    aScale := 0, m := d.bits 5 15 0, k := d.bits 5 47 32, arith := d.bits 5 53 50, lda := d.bits 6 15 0,
    ldb := d.bits 6 31 16 }

def convertSpans (c : MatCtl) : List Span :=
  [(2, 31, 31), (2, 63, 32), (3, 30, 30), (3, 31, 31), (3, 63, 58), (4, 63, 0), (5, 31, 16), (5, 49, 48), (5, 63, 54),
   (6, 63, 32), (7, 63, 0)] ++ (if mxCode c.bFmt then [] else [(3, 57, 32)])

def convertBad (d : Desc) (c : MatCtl) : Option Nat :=
  minBad (spansBad (descWords d) (convertSpans c) ++
    [(decide (c.aFmt ≠ 1 ∧ c.aFmt ≠ 2 ∧ c.aFmt ≠ 3), 19), (!fmtCodeOk c.bFmt, 27), (arithBad c.arith, 46),
     (decide (c.m = 0), 40), (decide (c.k = 0), 44), (decide (c.lda < (if c.aTr then c.m else c.k)), 48),
     (ldBad c.bFmt c.ldb c.k, 50)])

/-- The source, the destination and its scales. -/
def convertExtents (c : MatCtl) : List (Nat × Nat × Nat × Nat) :=
  let d := if c.aTr then (c.k, c.m) else (c.m, c.k)
  [(0, c.aLoc, 0, fmtBytes (srcFmt c.aFmt) ((d.1 - 1) * c.lda + d.2)),
   (2, c.bLoc, 0, fmtBytes (srcFmt c.bFmt) ((c.m - 1) * c.ldb + c.k))] ++
  (if mxCode c.bFmt then [(3, c.bScale, 0, c.m * cdiv c.k 32)] else [])

def State.convertCheck (s : State) (n : Fin 256) (q : QDesc) (c : MatCtl) : Except Fail (List (Nat × Nat × Nat)) :=
  let fmt (o : Nat) : Except Fail (List (Nat × Nat × Nat)) := .error (failFormat q.addr o)
  match convertBad q.desc c with
  | some o => fmt o
  | none =>
    if !convOk c.aFmt c.bFmt then fmt 27
    else match minBad [(decide (c.aLoc % 64 ≠ 0), 16), (decide (c.bLoc % 64 ≠ 0), 24)] with
      | some o => fmt o
      | none =>
        match extentsShare false ((convertExtents c).map (fun e => (e.1, locAddr n e.2.1, e.2.2.2))) with
        | some o => fmt o
        | none => s.placeAll n storeLim (convertExtents c)

/-- Row m of the result by groups. -/
def State.convertRow (s : State) (n : Fin 256) (r : Running) (c : MatCtl) (base m : Nat) : List Grp :=
  let a := arithCtlOf c.arith
  (List.range (cdiv c.k 32)).map (fun g =>
    grpOf (srcFmt c.aFmt) (srcFmt c.bFmt) a (fun i => s.srDraw r (uidEngine n.val 1) a (m * c.k + 32 * g + i)) 0
      (groupCodes c.k g (fun k => s.aCode c [] base m k)))

/-- Runs a checked CONVERT. -/
def State.convertRun (s : State) (n : Fin 256) (r : Running) (c : MatCtl) (ps : List (Nat × Nat × Nat)) : State :=
  let rows := (List.range c.m).map (s.convertRow n r c (placeOf ps 0))
  let f := srcFmt c.bFmt
  let gs := rows.flatten
  let t := (rows.zipIdx).foldl (fun t p =>
    let t := t.writeMem (placeOf ps 2 + p.2 * c.ldb * fmtBits f / 8) (rowBytes f ((p.1.flatMap (·.codes)).take c.k))
    if isMx f then
      t.writeMem (placeOf ps 3 + p.2 * cdiv c.k 32) (p.1.map (fun g => BitVec.ofNat 8 (g.scale.getD 0)))
    else t) s
  (t.modTbuf n (fun b =>
    { b with
      elemsConverted := wrap64 b.elemsConverted (c.m * c.k)
      elemsLimited := wrap64 b.elemsLimited ((gs.map (·.limited)).sum)
      nanBlocks := wrap64 b.nanBlocks (countTrue (gs.map (·.nan)))
      bytesRead := wrap64 b.bytesRead (fmtBytes (srcFmt c.aFmt) (c.m * c.k)) })).finishDesc
    (clusterOfCore n) (.matrix (coreK n)) r none

/-- CONVERT (R337, R338): the buffer takes it once every pass before it has started. -/
def execConvert (core : Fin 256) (s : State) : Out :=
  match s.matrixNext core 4, nextPass [] s.cores[core].mtx.jobs with
  | some r, none =>
    let c := convertCtl r.q.desc
    match s.convertCheck core r.q c with
    | .error f => .next (s.failMatrix core r f)
    | .ok ps => .next (s.convertRun core r c ps)
  | _, _ => .next s

/-! ### Ballast (R77 to R83) -/

/-- A pass is ready to fire: not held and with a context free (R77, R311). -/
def State.arrayReady (s : State) (n : Fin 256) : Bool :=
  let x := s.cores[n].mtx
  (nextPass [] x.jobs).isSome && !x.nextHeld n s.cores[n].tbuf && !x.nextWaits

/-- Every array that has no command ready and fires no pass is in its idle interval, with the parameters in force as it began
(R83). -/
def State.noteIdle (s : State) : State :=
  (List.finRange 256).foldl (fun s n => if s.arrayReady n || s.matrixFires n then s else s.modMatrix n s.idleParams) s

/-- BALLAST_FIRING (R77, R78; R339 counts it): an idle array that has fired since its bed came on. A pass that still fires comes
first. -/
def execBallastFiring (core : Fin 256) (s : State) : Out :=
  let g := clusterOfCore core
  let x := s.idleParams s.cores[core].mtx
  if s.clusterLive g ∧ s.beds[bedCluster g.val].target ∧ x.ballast ≠ .woundDown ∧ !s.arrayReady core ∧ !s.matrixFires core then
    .next (s.modMatrix core (fun _ =>
      if x.gapNs = 0 then x else { x with ballast := .ballast, ballastFirings := wrap64 x.ballastFirings 1 }))
  else .next s

/-- BALLAST_WIND_DOWN (R79): idle for BALLAST_GAP_NS. -/
def execBallastWindDown (core : Fin 256) (s : State) : Out :=
  let g := clusterOfCore core
  let x := s.idleParams s.cores[core].mtx
  if s.clusterLive g ∧ x.ballast ≠ .woundDown ∧ !s.arrayReady core ∧ !s.matrixFires core then
    .next (s.modMatrix core (fun _ => if x.gapNs = 0 then x else { x with ballast := .woundDown }))
  else .next s

/-- BALLAST_RAMP_STEP (R79): a quarter of the ramp ends. -/
def execBallastRampStep (core : Fin 256) (s : State) : Out :=
  match s.cores[core].mtx.ballast with
  | .ramp q =>
    .next (s.modMatrix core (fun x => { x with ballast := if q = 3 then .busy else .ramp (q + 1) }))
  | _ => .next s

end Sys2Proof.Machine
end

