-- ==== Sys2Proof/Machine/Transfer.lean ====
section
/-! DEFINITION. Transfer.lean: explicit copies and the thread unit (R250 to R272, R275 to R277). -/

namespace Sys2Proof.Machine

/-! ### COPY and FILL (R250 to R254) -/

structure CopyCtl where
  fill : Bool
  src : Nat
  dst : Nat
  rowBytes : Nat
  rows : Nat
  srcStride : Nat
  dstStride : Nat
  value : Nat
  deriving DecidableEq, Repr

def copyCtl (d : Desc) : CopyCtl :=
  { fill := decide (d.opcode = 2), src := d.bits 2 47 0, dst := d.bits 3 47 0, rowBytes := d.bits 4 31 0,
    rows := d.bits 4 55 32, srcStride := d.bits 5 31 0, dstStride := d.bits 5 63 32, value := d.bits 6 63 0 }

/-- Reserved fields of a COPY and of a FILL (R250). -/
def copySpans (fill : Bool) : List Span :=
  if fill then [(2, 63, 0), (3, 63, 48), (4, 63, 56), (5, 31, 0), (7, 63, 0)]
  else [(2, 63, 48), (3, 63, 48), (4, 63, 56), (6, 63, 0), (7, 63, 0)]

/-- The first condition of R251, with the reserved fields (R8). -/
def copyBad (d : Desc) (c : CopyCtl) : Option Nat :=
  minBad (spansBad (descWords d) (copySpans c.fill) ++
    [(decide (c.rowBytes = 0 ∨ 0x80000000 < c.rowBytes), 32), (decide (c.rows = 0), 36),
     (decide (1 < c.rows ∧ c.dstStride < c.rowBytes), 44)])

/-- Bytes from the first of the first row to the last of the last row. -/
def stridedSpan (rows stride bytes : Nat) : Nat := (rows - 1) * stride + bytes

/-- R251: the checks that come before any byte moves. -/
def State.copyCheck (s : State) (core : Fin 256) (q : QDesc) (c : CopyCtl) : Except Fail Unit :=
  let n := stridedSpan c.rows c.srcStride c.rowBytes
  let m := stridedSpan c.rows c.dstStride c.rowBytes
  match copyBad q.desc c with
  | some o => .error (failFormat q.addr o)
  | none =>
    match (if c.fill then none else s.accessFail (.ofCore core (.copy 0)) c.src n) with
    | some f => .error f
    | none =>
      match s.accessFail (.ofCore core (.copy 1)) c.dst m with
      | some f => .error f
      | none => if !c.fill ∧ overlap c.src n c.dst m then .error (failFormat q.addr 24) else .ok ()

/-- One row of a FILL: byte j is byte j mod 8 of FILL_VALUE. -/
def fillRow (value n : Nat) : List Byte := (List.range n).map (fun j => BitVec.ofNat 8 (value / 256 ^ (j % 8)))

/-- Moves row r, or finds a poisoned unit in its source (R237), or one that the write covers only in part (R625). -/
def State.copyRow (s : State) (n : Fin 256) (c : CopyCtl) (r : Nat) : Except Fail State :=
  let from_ := c.src + r * c.srcStride
  let to_ := c.dst + r * c.dstStride
  match (if c.fill then none else (s.poisonHit from_ c.rowBytes).map failUncorr), s.mergeFail to_ c.rowBytes with
  | some f, _ => .error f
  | none, some f => .error f
  | none, none =>
    let bs := if c.fill then fillRow c.value c.rowBytes else s.readMem from_ c.rowBytes
    let s := if c.fill then s else s.noteRead from_ c.rowBytes
    .ok ((s.writeMem to_ bs).modXfer n (fun x =>
      { x with bytesRead := if c.fill then x.bytesRead else wrap64 x.bytesRead c.rowBytes
               bytesWritten := wrap64 x.bytesWritten c.rowBytes }))

/-- Moves the rows from r on; the state where a row fails, with the failure. -/
def State.copyRows (n : Fin 256) (c : CopyCtl) : Nat → Nat → State → State × Option Fail
  | 0, _, s => (s, none)
  | k + 1, r, s =>
    match s.copyRow n c r with
    | .error f => (s, some f)
    | .ok s => State.copyRows n c k (r + 1) s

/-- The transfer engine's active descriptor of an opcode (R250, R251). -/
def transferOp (core : Fin 256) (opcode : Nat) (s : State) : State :=
  let g := clusterOfCore core
  let q := QueueId.transfer (coreK core)
  match s.activeOp g q opcode with
  | none => s
  | some r =>
    let c := copyCtl r.q.desc
    match s.copyCheck core r.q c with
    | .error f => s.failDesc g q r f
    | .ok _ =>
      match State.copyRows core c c.rows 0 s with
      | (s, some f) => s.failDesc g q r f
      | (s, none) => s.finishDesc g q r none

/-- COPY (R251). -/
def execCopy (core : Fin 256) (s : State) : Out := .next (transferOp core 1 s)

/-- FILL (R250). -/
def execFill (core : Fin 256) (s : State) : Out := .next (transferOp core 2 s)

/-! ### The thread unit's descriptor (R256, R257) -/

structure ThreadCtl where
  store : Bool
  indexAddr : Nat
  indexFmt : Nat
  base : Nat
  count : Nat
  elem : Nat
  threads : Nat
  depth : Nat
  indexStride : Nat
  localAddr : Nat
  localStride : Nat
  deriving DecidableEq, Repr

def threadCtl (d : Desc) : ThreadCtl :=
  { store := decide (d.opcode = 2), indexAddr := d.bits 2 47 0, indexFmt := d.bits 2 50 48, base := d.bits 3 47 0,
    count := d.bits 4 31 0, elem := d.bits 4 42 32, threads := d.bits 4 47 43, depth := d.bits 4 51 48,
    indexStride := d.bits 5 31 0, localAddr := d.bits 6 47 0, localStride := d.bits 7 31 0 }

def threadSpans : List Span := [(2, 63, 51), (3, 63, 48), (4, 63, 52), (5, 63, 32), (6, 63, 48), (7, 63, 32)]

/-- Bytes of an index (R256). -/
def indexBytes (fmt : Nat) : Nat := if fmt = 0 then 4 else 8

def ThreadCtl.listBytes (c : ThreadCtl) : Nat := c.count * indexBytes c.indexFmt
def ThreadCtl.localBytes (c : ThreadCtl) : Nat := stridedSpan c.count c.localStride c.elem

/-- In the core's own window. -/
def inOwnWindow (n : Fin 256) (a bytes : Nat) : Bool :=
  decide (coreBase n.val ≤ a ∧ a + bytes ≤ coreBase n.val + 0x400000)

/-- In the core's own window or in its cluster's explicit scratch of so many KiB (R256). -/
def ownPlace (n : Fin 256) (scratchKib a bytes : Nat) : Bool :=
  inOwnWindow n a bytes ||
    decide (clusterBase (n.val / 8) ≤ a ∧ a + bytes ≤ clusterBase (n.val / 8) + scratchKib * 1024)

/-- The format conditions of R257. -/
def threadBad (n : Fin 256) (scratchKib : Nat) (d : Desc) (c : ThreadCtl) : Option Nat :=
  minBad (spansBad (descWords d) threadSpans ++
    [(!ownPlace n scratchKib c.indexAddr c.listBytes, 16), (decide (3 < c.indexFmt), 22), (decide (c.count = 0), 32),
     (decide (c.elem < 4 ∨ 1024 < c.elem ∨ c.elem % 4 ≠ 0), 36), (decide (c.threads = 0 ∨ 16 < c.threads), 37),
     (decide (c.depth = 0 ∨ 8 < c.depth), 38), (decide (c.indexStride % 4 ≠ 0), 40),
     (!ownPlace n scratchKib c.localAddr c.localBytes || overlap c.indexAddr c.listBytes c.localAddr c.localBytes, 48),
     (decide (c.localStride < c.elem), 56)])

/-- R257. -/
def State.threadCheck (s : State) (n : Fin 256) (q : QDesc) (c : ThreadCtl) : Except Fail Unit :=
  match threadBad n s.clusters[clusterOfCore n].scratchKib q.desc c with
  | some o => .error (failFormat q.addr o)
  | none => s.checkAll (.ofCore n .any) [(c.indexAddr, c.listBytes), (c.localAddr, c.localBytes)]

/-- The thread unit takes its started descriptor: thread t's first entry is t (R259). -/
def threadStart (core : Fin 256) (opcode : Nat) (s : State) : State :=
  let g := clusterOfCore core
  let q := QueueId.thread (coreK core)
  match (s.activeOp g q opcode).filter (fun r => decide (r.phase = .started)) with
  | none => s
  | some r =>
    let c := threadCtl r.q.desc
    match s.threadCheck core r.q c with
    | .error f => s.failDesc g q r f
    | .ok _ =>
      let r' : Running := { r with phase := .working }
      let job : ThreadJob :=
        { run := r', next := List.range c.threads, inFlight := [], counted := [], failed := false }
      (s.setRunning g q r r').modThr core (fun t => { t with job := some job, turn := 0, heldCap := 0 })

/-- ILOAD (R256, R257). -/
def execIload (core : Fin 256) (s : State) : Out := .next (threadStart core 1 s)

/-- ISTORE (R256, R257). -/
def execIstore (core : Fin 256) (s : State) : Out := .next (threadStart core 2 s)

/-! ### Issue (R258 to R262, R265 to R267) -/

/-- The index of entry i (R256, R153). -/
def State.threadIndex (s : State) (c : ThreadCtl) (i : Nat) : Nat :=
  let v := s.readNat (c.indexAddr + i * indexBytes c.indexFmt) (indexBytes c.indexFmt)
  match c.indexFmt with
  | 1 => v % 2 ^ 40
  | 2 => v / 2 ^ 32
  | 3 => v % 2 ^ 32
  | _ => v

/-- The remote address of entry i, in 64 bits. -/
def State.remoteAddr (s : State) (c : ThreadCtl) (i : Nat) : Nat :=
  (c.base + s.threadIndex c i * c.indexStride) % 2 ^ 64

/-- The bank of an address as one number; `none` outside HBM (R266). -/
def bankOf (a : Nat) : Option Nat :=
  if a < hbmEnd then
    let p := hbmPlace a
    some ((p.stack.val * 64 + p.pc) * 64 + p.bank)
  else none

/-- The slots that an element claims: one per 64-byte access unit outside the core's own window (R260, R265). -/
def entrySlots (n : Fin 256) (a bytes : Nat) : List (Option Nat) :=
  ((List.range ((a + bytes - 1) / 64 + 1 - a / 64)).filter (fun k => !inOwnWindow n (64 * (a / 64 + k)) 64)).map
    (fun k => bankOf (64 * (a / 64 + k)))

def ThreadJob.claimed (j : ThreadJob) : List (Option Nat) := j.inFlight.flatMap (·.slots)

/-- Slots claimed (R275 SLOTS_USED). -/
def ThreadUnit.slotsUsed (t : ThreadUnit) : Nat := (t.job.map (fun j => j.claimed.length)).getD 0

/-- How many slots of a list are of one bank. -/
def bankCount (b : Nat) (xs : List (Option Nat)) : Nat := (xs.filter (fun x => decide (x = some b))).length

/-- The bank cap lets an entry's slots be claimed (R266, R267). -/
def capAllows (cap : Nat) (held want : List (Option Nat)) : Bool :=
  want.all (fun x => match x with
    | none => true
    | some b => decide (bankCount b held + bankCount b want ≤ cap) ||
        (decide (cap < bankCount b want) && decide (bankCount b held = 0)))

/-- How a thread stands: no work left or DEPTH reached or no slots, held only by the cap, or ready. -/
inductive ThreadTurn where
  | blocked | held | ready
  deriving DecidableEq, Repr

/-- Thread t's next entry; `none` when it has issued its last. -/
def ThreadJob.nextOf (j : ThreadJob) (t : Nat) : Option Nat :=
  (j.next[t]?).filter (fun i => decide (i < (threadCtl j.run.q.desc).count))

def State.threadTurn (s : State) (n : Fin 256) (j : ThreadJob) (cap t : Nat) : ThreadTurn :=
  let c := threadCtl j.run.q.desc
  match j.nextOf t with
  | none => .blocked
  | some i =>
    let want := entrySlots n (s.remoteAddr c i) c.elem
    if j.failed ∨ c.depth ≤ (j.inFlight.filter (fun e => decide (e.thread = t))).length ∨
        128 < j.claimed.length + want.length then .blocked
    else if capAllows cap j.claimed want then .ready else .held

/-- The turns from the one whose turn it is: the threads held by the cap that are passed, and the first that is ready. -/
def State.threadScan (s : State) (n : Fin 256) (j : ThreadJob) (cap turn : Nat) : Nat → List Nat × Option Nat
  | 0 => ([], none)
  | k + 1 =>
    let threads := j.next.length
    let t := (turn + (threads - (k + 1))) % threads
    match s.threadTurn n j cap t with
    | .ready => ([], some t)
    | .held =>
      let r := s.threadScan n j cap turn k
      (t :: r.1, r.2)
    | .blocked => s.threadScan n j cap turn k

/-- HELD_CAP: a bit per thread held by the cap (R275). -/
def State.heldBits (s : State) (n : Fin 256) (j : ThreadJob) (cap : Nat) : BitVec 16 :=
  BitVec.ofNat 16 (((List.range j.next.length).map (fun t =>
    if s.threadTurn n j cap t = .held then 2 ^ t else 0)).sum)

def State.setThreadJob (s : State) (n : Fin 256) (j : ThreadJob) : State :=
  let bits := s.heldBits n j s.cores[n].thr.cap
  s.modThr n (fun t => { t with job := some j, heldCap := bits })

/-- A faulted descriptor ends once its entries in flight are done (R258). -/
def State.threadEnd (s : State) (n : Fin 256) (j : ThreadJob) : State :=
  let g := clusterOfCore n
  let q := QueueId.thread (coreK n)
  if j.inFlight ≠ [] then s.setThreadJob n j
  else
    let s' := s.modThr n (fun t => { t with job := none, heldCap := 0 })
    if j.failed then s'.endRunning g q j.run
    else if (List.range j.next.length).any (fun t => (j.nextOf t).isSome) then s.setThreadJob n j
    else s'.finishDesc g q j.run none

/-- The first fault of a descriptor raises its event (R90, R258). -/
def State.threadFault (s : State) (n : Fin 256) (j : ThreadJob) (f : Fail) : State :=
  let s := if j.failed then s else
    s.raiseDesc (clusterOfCore n) (.thread (coreK n)) j.run.q j.run.season f
  s.threadEnd n { j with failed := true }

/-- Reads of the thread unit are requester 0, its writes requester 1 (R268). -/
def ThreadCtl.who (c : ThreadCtl) (n : Fin 256) : Who := .ofCore n (.req (if c.store then 1 else 0))

/-- Entry i of thread t as it is issued; an ISTORE reads its local element in the same step (R260). -/
def State.threadEntry (s : State) (n : Fin 256) (c : ThreadCtl) (t i : Nat) : Entry :=
  let a := s.remoteAddr c i
  let near := c.localAddr + i * c.localStride
  { thread := t, index := i, slots := entrySlots n a c.elem, remote := a, near := near,
    data := if c.store then s.readMem near c.elem else [] }

/-- The state once an entry's element has been moved between places of the core's own window. -/
def State.nearMove (s : State) (c : ThreadCtl) (e : Entry) : State :=
  if c.store then s.writeMem e.remote e.data else s.writeMem e.near (s.readMem e.remote c.elem)

/-- An entry is complete (R275 ENTRIES). -/
def State.entryCounted (s : State) (n : Fin 256) : State := s.modThr n (fun x => { x with entries := wrap64 x.entries 1 })

/-- Issues thread t's next entry (R260, R262). One that lies in the core's own window claims no slot, completes at once and does
not yield. -/
def State.threadIssue (s : State) (n : Fin 256) (j : ThreadJob) (t i : Nat) : State :=
  let c := threadCtl j.run.q.desc
  match s.accessFail (c.who n) (s.remoteAddr c i) c.elem with
  | some f => s.threadFault n j f
  | none =>
    let e := s.threadEntry n c t i
    let j : ThreadJob :=
      { j with next := listSet j.next t (i + c.threads), counted := j.counted.filter (fun x => decide (x ≠ t)) }
    if e.slots.isEmpty then
      (((s.nearMove c e).entryCounted n).modThr n (fun x => { x with turn := t })).threadEnd n j
    else
      let j : ThreadJob := { j with inFlight := j.inFlight ++ [e] }
      let used := j.claimed.length
      (s.modThr n (fun x => { x with turn := (t + 1) % c.threads, slotPeak := max x.slotPeak used })).setThreadJob n j

/-- THREAD_ISSUE (R261, R262): one entry of the next ready thread. -/
def execThreadIssue (core : Fin 256) (s : State) : Out :=
  let u := s.cores[core].thr
  match u.job with
  | none => .next s
  | some j =>
    let (held, ready) := s.threadScan core j u.cap u.turn j.next.length
    let new_ := held.filter (fun t => !j.counted.contains t)
    let s := s.modThr core (fun x => { x with capHolds := wrap64 x.capHolds new_.length })
    let j : ThreadJob := { j with counted := j.counted ++ new_ }
    match ready with
    | none => .next (s.setThreadJob core j)
    | some t =>
      match j.nextOf t with
      | none => .next s
      | some i => .next (s.threadIssue core j t i)

end Sys2Proof.Machine
end

