-- ==== Sys2Proof/Machine/BaseDie.lean ====
section
/-! DEFINITION. BaseDie.lean: one access unit read or written in a base die, with what its ECC finds and the descriptor that
asked for it (R236, R237, R240, R625). -/

namespace Sys2Proof.Machine

/-- Takes an engine's work on a started descriptor away. -/
def State.dropWorkOf (s : State) (g : Fin 32) (q : QueueId) (r : Running) : State :=
  match q with
  | .matrix k => s.modMatrix (coreOf g k) (fun m => { m with jobs := m.jobs.filter (fun j => decide (j.run ≠ r)) })
  | .vector k => s.modVec (coreOf g k) (fun v => { v with job := none })
  | .thread _ => s
  | .row _ => s
  | .transfer _ => s
  | .harrow => s.modHarrow g (fun h => specForget { h with job := none })
  | .rake => s.dropRakeJob g r
  | .sprinkler => s.modSprinkler g (fun x => { x with job := none })
  | .update => s.modUpd (dieOfCluster g) (fun u =>
      { u with job := u.job.filter (fun j => decide (j.run ≠ r)), commit := u.commit.filter (fun j => decide (j.run ≠ r)) })

/-- A SCATTER or a FLUSH that a near-memory fault ends leaves its mark in the vote (R205, R237). -/
def State.markFault (s : State) (g : Fin 32) (q : QueueId) : State :=
  match q with
  | .sprinkler => s.logFault (dieOfCluster g)
  | _ => s

/-- The bytes of memory that an item of an update's work reads or writes, as ranges (R401, R403, R405, R410). -/
def State.workRanges (s : State) (d : Fin 4) (w : UpdWork) : List (Nat × Nat) :=
  let dense (gi i : Nat) : List (Nat × Nat) :=
    match s.group gi with
    | none => []
    | some g => (List.range g.unitPairs).map (fun r => (pairAddr g (i * g.unitPairs + r), 384)) ++
        [(g.gradAddr + 4 * i * g.unitElems, 4 * g.unitElems)]
  match w with
  | .row gi i => dense gi i
  | .record gi i => dense gi i
  | .embed _ t row _ =>
    match s.table t with
    | none => []
    | some td => match s.locate (.onDie d.val (.req 5)) t td 0 row with
      | .ok (_, _, addr) => [(addr, td.stride)]
      | .error _ => []

/-- An UPDATE that has started does not fault: it skips the records and rows that the failed unit belongs to, sets UPDATE_FAULT, and
goes on to its token (R427). -/
def State.updateSkips (s : State) (d : Fin 4) (unit : Nat) (f : Fail) : State :=
  let hit (w : UpdWork) : Bool := (s.workRanges d w).any (fun r => decide (unit < r.1 + r.2 ∧ r.1 < unit + 64))
  ((s.updFault d f).modUpd d (fun u => { u with work := u.work.filter (fun w => !hit w) })).updDone d

/-- The descriptor that a queue's engine works on ends by a fault (R90). A SAMPLE writes its ABORT piece first (R156), and a
thread descriptor ends with its entries in flight (R258). -/
def State.failActive (s : State) (g : Fin 32) (q : QueueId) (f : Fail) : State :=
  match s.activeDesc g q with
  | none => s.countUe f
  | some r =>
    match q, s.clusters[g].harrow.job with
    | .harrow, some j =>
      (s.countUe f).modHarrow g (fun h => { h with job := some { j with pieces := [abortPiece j], fault := some (f.code, f.arg0, f.arg1) } })
    | .thread k, _ =>
      match s.cores[coreOf g k].thr.job with
      | some j => s.threadFault (coreOf g k) j f
      | none => s.failDesc g q r f
    | .update, _ =>
      if r.q.desc.opcode = 2 ∧ s.dies[dieOfCluster g].upd.job.any (fun j => decide (j.run = r)) then
        s.updateSkips (dieOfCluster g) (f.arg0 / 64 * 64) f
      else (s.dropWorkOf g q r).failDesc g q r f
    | _, _ => ((s.dropWorkOf g q r).markFault g q).failDesc g q r f

/-- An access that is not performed, or gives no data: the descriptor that asked for it ends with the event; one that nobody's
descriptor asked for raises it at the stack (R33, R34, R237). -/
def State.failIssuer (s : State) (stack : Fin 12) (issuer : Issuer) (f : Fail) : State :=
  match issuer with
  | .descriptor g q =>
    if (s.activeDesc g q).isSome then s.failActive g q f else (s.countUe f).raiseD (uidStack stack.val) f.code f.arg0 f.arg1 0
  | .updateUnit d =>
    if s.dies[d].upd.job.isSome then s.updateSkips d (f.arg0 / 64 * 64) f
    else (s.countUe f).raiseD (uidStack stack.val) f.code f.arg0 f.arg1 0
  | _ => (s.countUe f).raiseD (uidStack stack.val) f.code f.arg0 f.arg1 0

/-- An uncorrectable unit is poisoned and retires its granule, and whoever asked for it faults (R237, R239, R240). -/
def State.uncorrectable (s : State) (unit : Nat) (issuer : Issuer) : State :=
  (s.poisonUnit unit).failIssuer (stackOf unit) issuer (failUncorr unit)

/-! ### An access's way (R17, R18, R20, R22) -/

/-- The stop of a stack's HBM controller. -/
def stackSite (k : Fin 12) : Site := .stop (dieOfStack k) (stopOf (.stack (Fin.ofNat 3 k.val)))

/-- Where an access comes from: its cluster's stop, its die's update unit, a link die, or the controller itself. -/
def issuerSite (k : Fin 12) (issuer : Issuer) : Site :=
  match issuer with
  | .descriptor g .update => .stop (dieOfCluster g) (stopOf .network)
  | .descriptor g _ => .stop (dieOfCluster g) (stopOf (.cluster (Fin.ofNat 8 g.val)))
  | .sequencer g => .stop (dieOfCluster g) (stopOf (.cluster (Fin.ofNat 8 g.val)))
  | .updateUnit d => .stop d (stopOf .network)
  | .linkDie l => .linkDie l
  | .baseDie => stackSite k

/-- The owner of the closed regions that an issuer may reach (R178, R458, R486): a front end its staging area or spill, an update unit
its die's reduction area, a base die its log, a link die its ingest engine's areas and its flow region. -/
def State.issuerOwner (s : State) (unit : Nat) (issuer : Issuer) : Option RegionOwner :=
  match issuer with
  | .descriptor g .rake => some (.rakeStaging g.val)
  | .descriptor g .sprinkler => some (.spill g.val)
  | .descriptor g .update => some (.reduce (dieOfCluster g).val)
  | .descriptor _ _ => none
  | .sequencer _ => none
  | .updateUnit d => some (.reduce d.val)
  | .baseDie => some (.log (stackOf unit).val)
  | .linkDie l =>
    if s.closedRegions.any (fun c => decide (c.owner = .ingest l.val ∧ c.start < unit + 64 ∧ unit < c.start + c.length)) then
      some (.ingest l.val)
    else some (.flow l.val)

/-- Who makes an access: its die, its requester and the region that it owns. -/
def State.issuerWho (s : State) (unit : Nat) (issuer : Issuer) (r : Nat) : Who :=
  .onDie (issuerSite (stackOf unit) issuer).die (match s.issuerOwner unit issuer with
    | some o => .ownReq o r
    | none => .req r)

/-- Whether a unit named as a transfer's source is the issuer of an access. -/
def issuerIs (k : Fin 12) (issuer : Issuer) (source : BitVec 16) : Bool :=
  match issuer with
  | .descriptor g q => decide (source = queueUnit g q)
  | .sequencer g => decide (source = uidCluster g.val 0)
  | .updateUnit d => decide (source = uidDie d.val 4)
  | .linkDie l => decide (source.toNat / 0x2000 = 6 + l.val)
  | .baseDie => decide (source = uidStack k.val)

/-- The legs of a request over the edges that are not fenced. -/
def State.legsTo (s : State) (a b : Site) : Option (List Leg) := packetLegs (fun e => s.health.listed (edgeUid e)) a b

/-- What keeps an access unit of a stack from a requester: the stack, the way to it, or another owner's closed region (R33, R178). -/
def State.unitFail (s : State) (r : Nat) (unit : Nat) (issuer : Issuer) : Option Fail :=
  s.hbmFail (s.issuerWho unit issuer r) unit 64

/-- The pseudo-channel of an access unit, and its read and write FIFOs (R58, R221). -/
def channelOf (unit : Nat) : ArbId := .channel (stackOf unit) (Fin.ofNat 64 (hbmPlace unit).pc)
def hbmFifo (k : FifoKind) (unit : Nat) : FifoId := { kind := k, idx := (stackOf unit).val * 64 + (hbmPlace unit).pc }

/-- The grant under which the next access unit to be moved is this one, for the unit that asked for it (R224, R225). -/
def State.unitGrant (s : State) (r : Nat) (unit : Nat) (write : Bool) (issuer : Issuer) : Option Grant :=
  (s.arb (channelOf unit)).grant.filter (fun g =>
    issuerIs (stackOf unit) issuer g.ask.source && decide (g.ask.requester.val = r ∧ g.ask.write = write ∧ g.moved < g.ask.units ∧ g.ask.addr + 64 * g.moved = unit))

/-- A unit of a transfer has been moved; with the last one the grant ends (R225, R227). -/
def State.unitMoved (s : State) (unit : Nat) (g : Grant) : State :=
  let a := channelOf unit
  s.setArb a { s.arb a with grant := if g.moved + 1 < g.ask.units then some { g with moved := g.moved + 1 } else none }

/-- The record of an access served: requests travel on VC0, responses on VC1 (R22). -/
def State.served (s : State) (r : Nat) (unit : Nat) (write : Bool) (issuer : Issuer) (data : List Byte) :
    State :=
  let x : Access :=
    { unit := unit, requester := r, write := write, vc := trafficVc .request, replyVc := trafficVc .response, data := data
      legs := (s.legsTo (issuerSite (stackOf unit) issuer) (stackSite (stackOf unit))).getD [] }
  { s with lastAccess := some x }

/-- HBM_READ (R17, R33, R34, R37, R225, R234, R237): the next unit of a granted transfer, corrected, or a fault. The controller
issues no read while the stack's read FIFO asserts FLOW (R58). -/
def execHbmRead (access : UnitAccess) (upset : Upset) (issuer : Issuer) (s : State) : Out :=
  let addr := access.addr
  if hbmEnd ≤ addr ∨ addr % 64 ≠ 0 then .next s
  else match s.unitFail access.requester.val addr issuer with
    | some f => .next (s.failIssuer (stackOf addr) issuer f)
    | none =>
      match s.unitGrant access.requester.val addr false issuer with
      | none => .next s
      | some g =>
        if (s.fifo (hbmFifo .hbmRead addr)).flow then .next s
        else
          let s := (s.upsetUnit addr upset).unitMoved addr g
          match s.eccOf addr upset.misplaced with
          | .clean => .next (s.served access.requester.val addr false issuer (s.unitData addr))
          | .corrected => .next ((s.corrected addr).served access.requester.val addr false issuer (s.unitData addr))
          | .uncorrectable => .next (s.uncorrectable addr issuer)

/-- HBM_WRITE (R225, R240, R625): a unit of a granted transfer whose 16 beats have come. A whole unit is written at once and
loses its poison; a part is merged through a read. The controller takes no write data while the write FIFO asserts FLOW. -/
def execHbmWrite (access : UnitAccess) (bytes : List Byte) (upset : Upset) (issuer : Issuer) (s : State) :
    Out :=
  let addr := access.addr
  let unit := addr / 64 * 64
  if hbmEnd ≤ addr ∨ bytes = [] ∨ 64 < addr % 64 + bytes.length then .next s
  else match s.unitFail access.requester.val unit issuer with
    | some f => .next (s.failIssuer (stackOf unit) issuer f)
    | none =>
      match s.unitGrant access.requester.val unit true issuer with
      | none => .next s
      | some g =>
        if (s.fifo (hbmFifo .hbmWrite unit)).flow then .next s
        else if bytes.length = 64 then
          .next (((s.unitMoved unit g).writeMem addr bytes).served access.requester.val unit true issuer [])
        else
          let s := (s.upsetUnit unit upset).unitMoved unit g
          match s.eccOf unit upset.misplaced with
          | .clean => .next ((s.writeMem addr bytes).served access.requester.val unit true issuer [])
          | .corrected => .next ((((s.corrected unit).settleUnit unit).writeMem addr bytes).served access.requester.val unit true issuer [])
          | .uncorrectable => .next (s.uncorrectable unit issuer)

end Sys2Proof.Machine
end

