-- ==== Sys2Proof/Machine/Events.lean ====
section
/-! DEFINITION. Events.lean: the event ring and the timer that watches a Season (R552 to R562). -/

namespace Sys2Proof.Machine

/-- Classes whose events are never suppressed and go to HEALTH_LOG (R558, R578). -/
def loggedClass (code : BitVec 16) : Bool := decide (code.toNat / 256 ∈ ([0x08, 0x0B, 0x0D] : List Nat))

/-- The record of an event that enters the ring now (R552 to R554). -/
def recordOf (rtc : Word) (e : Event) : Record :=
  { time := bitsOf rtc.toNat 55 8, code := e.code, season := BitVec.ofNat 32 e.season, arg0 := e.arg0,
    arg1 := e.arg1.setWidth 48, arg2 := e.arg2.setWidth 32, unit := e.unit }

/-- The 32 bytes of a record (R552). -/
def recordBytes (r : Record) : List Byte :=
  leBytes 6 r.time ++ leBytes 2 r.code.toNat ++ leBytes 4 r.season.toNat ++ leBytes 4 r.arg2.toNat ++ leBytes 8 r.arg0.toNat ++
    leBytes 6 r.arg1.toNat ++ leBytes 2 r.unit.toNat

/-- An event of a pair of unit and class:code recorded less than 1 ms ago (R558). -/
def Health.recent (h : Health) (rtc : Word) (e : Event) : Bool :=
  h.lastTime.any (fun x => decide (x.1 = e.unit ∧ x.2.1 = e.code ∧ (rtc - x.2.2).toNat < 25000))

/-- A record enters the ring; one that it overwrites unread is lost (R515). -/
def Health.write (rtc : Word) (e : Event) (h : Health) : Health :=
  let r := recordOf rtc e
  let i := h.head % 1024
  let unread := (tabFind h.ring i).any (fun x => !x.2)
  let log := if loggedClass e.code then h.log ++ [r] else h.log
  { h with
    ring := tabSet h.ring i (r, false)
    head := h.head + 1
    lost := if unread then satAt (2 ^ 32 - 1) (h.lost + 1) else h.lost
    log := log.drop (log.length - 256)
    lastTime := h.lastTime.filter (fun x => decide (x.1 ≠ e.unit ∨ x.2.1 ≠ e.code)) ++ [(e.unit, e.code, rtc)] }

/-- EVENT_RECORD (R553, R556 to R558): the oldest event raised reaches the agent. -/
def execEventRecord (s : State) : Out :=
  match s.health.raised with
  | [] => .next s
  | e :: rest =>
    if s.bedOn bedRot ∧ 6 ≤ s.rot.stage then
      let s := s.modHealth (fun h => { h with raised := rest })
      if !loggedClass e.code ∧ s.health.recent s.aon.rtc e then
        .next (s.modHealth (fun h => { h with suppressed := inc64 h.suppressed 1 }))
      else .next (s.modHealth (Health.write s.aon.rtc e))
    else .next s

/-- SEASON_STALL (R562). -/
def execSeasonStall (cluster : Fin 32) (s : State) : Out :=
  let c := s.clusters[cluster]
  let ms := (s.aon.rtc - c.advanceRtc).toNat / 25000
  if s.jobRuns ∧ c.active ∧ s.clusterLive cluster ∧ s.objNum 0x3010 1 ≠ 0 ∧ s.objNum 0x3010 1 ≤ ms ∧ !c.stalledRaised then
    .next ((s.modCluster cluster (fun c => { c with stalledRaised := true })).raiseC cluster (uidCluster cluster.val 0) 0x0307
      c.season ms cluster.val)
  else .next s

end Sys2Proof.Machine
end

