-- ==== Sys2Proof/Machine/Job.lean ====
section
/-! DEFINITION. Job.lean: admitting a job from its manifest, and ending it (R543 to R547, and the checks that R28, R100,
R169, R177, R178, R365, R400, R472, R473 and R486 place at acceptance). -/

namespace Sys2Proof.Machine

/-! ### Configuration checks of step 4 (R546) -/

def mib : Nat := 1048576

/-- Keys of a list of numbered items, all below a bound and no two the same. -/
def keysOk {α : Type} (bound : Nat) (xs : List (Nat × α)) : Bool :=
  decide ((xs.map (·.1)).Nodup) && xs.all (fun x => decide (x.1 < bound))

/-- A table descriptor in use meets R169 and R171. -/
def tableOk (td : TableDesc) : Bool :=
  !td.valid || decide (1 ≤ td.dim ∧ td.dim ≤ 2048 ∧ 6 ≤ td.shardLog2 ∧ td.shardLog2 ≤ 24 ∧ 1 ≤ td.loadWindow ∧
    td.loadWindow ≤ 255 ∧ td.stride = strideOf td.dim td.code4 ∧ td.rowCount < 2 ^ 40 ∧ td.ownerSeason < 2 ^ 48)

/-- FP32 values that are +0.0 or above, -0.0 among them, up to a bound (R400). -/
def unitRange (hi : U32) (strict : Bool) (x : U32) : Bool :=
  decide (x = 0x80000000) || decide (if strict then x < hi else x ≤ hi)

def nonNegFinite (x : U32) : Bool := isFinite32 x && (decide (x = 0x80000000) || decide (x < 0x80000000))

/-- The hyper-parameters of a group (R400). -/
def groupNumbersOk (g : GroupDesc) : Bool :=
  unitRange 0x3F800000 true g.beta1 && unitRange 0x3F800000 true g.beta2 && unitRange 0x3F800000 false g.gamma &&
    nonNegFinite g.eps && nonNegFinite g.lambda && isFinite32 g.lrMult

/-- A group descriptor in use meets R400. -/
def groupOk (g : GroupDesc) : Bool :=
  !g.valid || (groupNumbersOk g && decide (g.replicaFmt = 0 → g.replicaAddr = 0) && match g.kind with
    | .factored => decide (g.recBase % 4096 = 0 ∧ g.gradAddr % 4096 = 0 ∧ g.cols % 32 = 0 ∧ 0 < g.cols ∧ g.replicaFmt ≤ 9) && !g.rowSr
    | .unfactored => decide (g.recBase % 4096 = 0 ∧ g.gradAddr % 4096 = 0 ∧ g.cols = 0 ∧ g.replicaFmt ≤ 9) && !g.masked && !g.rowSr
    | .embedding => decide (g.recBase = 0 ∧ g.gradAddr = 0 ∧ g.cols = 0 ∧ g.ownFirst = 0 ∧ g.ownCount = 0 ∧ g.rows < 16 ∧
        g.replicaFmt = 0) && !g.masked)

/-- Rows of a FACTORED group, records of an UNFACTORED one. -/
def groupUnits (g : GroupDesc) : Nat :=
  match g.kind with
  | .factored => g.rows
  | .unfactored => cdiv g.rows 32
  | .embedding => 0

/-- No two ranges of a list share a unit. -/
def disjointRanges : List OwnerRange → Bool
  | [] => true
  | r :: t => t.all (fun q => decide (r.count = 0 ∨ q.count = 0 ∨ r.first + r.count ≤ q.first ∨ q.first + q.count ≤ r.first)) &&
      disjointRanges t

/-- The owner map covers a group exactly, and agrees with the group's own fields (R400). -/
def ownersOk (m : Manifest) (i : Nat) (g : GroupDesc) : Bool :=
  let rs := m.ownerMap.filter (fun r => decide (r.group = i))
  !g.valid || decide (g.kind = .embedding) ||
    (disjointRanges rs && rs.all (fun r => decide (r.first + r.count ≤ groupUnits g)) &&
      decide ((rs.map (·.count)).sum = groupUnits g) && decide ((rs.map (·.device)).Nodup) &&
      decide ((((rs.find? (fun r => decide (r.device = m.devNumber))).map (fun r => (r.first, r.count))).getD (g.ownFirst, 0)) =
        (g.ownFirst, g.ownCount)))

/-- A cluster's partitions, IMEM image and launch table (R28, R100, R114, R177). -/
def clusterOk (c : ClusterConfig) : Bool :=
  decide (1024 ≤ c.scratchKib ∧ c.clocheKib ≤ 20480 ∧ c.topoKib ≤ 8192 ∧ c.scratchKib % 256 = 0 ∧ c.clocheKib % 256 = 0 ∧
    c.topoKib % 256 = 0 ∧ c.scratchKib + c.clocheKib + c.topoKib = 24576 ∧ c.imem.length ≤ 2048) &&
    keysOk 256 c.launch && c.launch.all (fun e => launchOk (LaunchEntry.ofWords e.2.1 e.2.2.1 e.2.2.2.1 e.2.2.2.2))

/-- The size of a closed region (R178, R458). -/
def regionSizeOk (r : ClosedRegion) : Bool :=
  match r.owner with
  | .rakeStaging _ => decide (r.length ≤ 4096 * mib ∧ r.length % mib = 0)
  | .spill _ => decide (mib ≤ r.length ∧ r.length ≤ 1024 * mib ∧ r.length % mib = 0)
  | .log _ => decide (16 * mib ≤ r.length ∧ r.length ≤ 16384 * mib ∧ r.length % (16 * mib) = 0)
  | .reduce _ => decide (64 * mib ≤ r.length ∧ r.length ≤ 4096 * mib)
  | .flow _ => true
  | .ingest _ => true

def closedOk (r : ClosedRegion) : Bool := regionSizeOk r && decide (r.start + r.length ≤ hbmEnd)

/-- A RoCEv2 region (R473). -/
def hostRegionOk (m : Manifest) (r : Region) : Bool :=
  decide (r.base % 4096 = 0 ∧ r.length % 4096 = 0 ∧ r.base + r.length ≤ hbmEnd ∧ r.keytag < 2 ^ 24) &&
    (r.remoteWrite || r.remoteRead) && (closedOf m).all (fun c => decide (c.length = 0) || !overlap r.base r.length c.start c.length)

/-- The kind of a port's region. -/
def regionKindOf (m : Manifest) (h : Fin 2) (i : Nat) : Option RegionKind :=
  (m.roceRegions.find? (fun x => decide (x.1 = h ∧ x.2.1 = i))).map (fun x => x.2.2.kind)

/-- A queue pair (R471, R472, R476). -/
def qpOk (m : Manifest) (h : Fin 2) (q : QpConfig) : Bool :=
  decide (q.qpn < 2 ^ 24 ∧ q.peerQpn < 2 ^ 24 ∧ q.sub < 4 ∧ (q.mtu = 1024 ∨ q.mtu = 2048 ∨ q.mtu = 4096)) &&
    (if q.ingest then decide (regionKindOf m h q.region = some .ingest)
     else decide (regionKindOf m h q.region = some .recv) && decide (256 ≤ q.slotBytes ∧ q.slotBytes ≤ mib ∧ 2 ^ q.slotBytes.log2 = q.slotBytes))

/-- An ingest configuration (R486). -/
def ingestOk (m : Manifest) (i : Fin 2) (c : IngestConfig) : Bool :=
  decide (16 * mib ≤ c.stageBytes ∧ c.stageBytes ≤ 1024 * mib ∧ c.stageBytes % mib = 0 ∧
    (c.shuffleBytes = 0 ∨ (mib ≤ c.shuffleBytes ∧ c.shuffleBytes ≤ 65536 * mib ∧ c.shuffleBytes % mib = 0)) ∧
    8 ≤ c.slotLog2 ∧ c.slotLog2 ≤ 20 ∧ 20 ≤ c.outLog2 ∧ c.outLog2 ≤ 34 ∧ c.outAddr % 2 ^ c.outLog2 = 0 ∧
    1 ≤ c.batchRecords ∧ c.batchRecords ≤ 2 ^ 24) && decide (regionKindOf m i c.statusRegion = some .status)

/-- Step 4 of R546. -/
def manifestConfigOk (m : Manifest) : Bool :=
  keysOk 16 m.tables && m.tables.all (fun t => tableOk t.2) && keysOk 256 m.groups && m.groups.all (fun g => groupOk g.2) &&
  m.groups.all (fun g => ownersOk m g.1 g.2) && m.clusters.all clusterOk && decide ((m.clusters.map (·.cluster)).Nodup) &&
  decide (m.clocheSlot = 128 ∨ m.clocheSlot = 256 ∨ m.clocheSlot = 512) && m.ftqSlots.all (fun x => decide (x.2 ≤ 4)) && decide ((m.ftqSlots.map (·.1)).Nodup) &&
  (closedOf m).all closedOk && m.roceRegions.all (fun x => hostRegionOk m x.2.2 && decide (x.2.1 < 64)) &&
  m.qps.all (fun x => qpOk m x.1 x.2.2 && decide (x.2.1 < 256)) && m.ingest.all (fun x => ingestOk m x.1 x.2) &&
  decide (m.startSeason < 2 ^ 48 ∧ m.startStep < 2 ^ 32)

/-! ### Admission (R546) -/

/-- JOB_ID, as the header gives it. -/
def jobIdOf (m : Manifest) : BitVec 128 := m.header.jobId

/-- The sections of a manifest from a byte on, each aligned to 64 bytes: TYPE and content. None where one is not whole, or its FLAGS are
not zero. LEN counts the bytes after a section's first word (log entry 63). -/
def sectionsFrom : Nat → Nat → List Byte → Option (List (Nat × List Byte))
  | 0, off, bs => if bs.length < off then none else some []
  | n + 1, off, bs =>
    let w := leNat (slice bs off 8)
    let len := bitsOf w 63 32
    if bs.length < off + 8 + len ∨ bitsOf w 31 16 ≠ 0 then none
    else (sectionsFrom n (roundUp (off + 8 + len) 64) (bs ++ List.replicate (roundUp (off + 8 + len) 64 - bs.length) 0)).map
      (fun t => (bitsOf w 15 0, slice bs (off + 8) len) :: t)

/-- TYPEs of R543, in ascending order. -/
def sectionTypesOk (ts : List Nat) : Bool := ts.all (fun t => decide (1 ≤ t ∧ t ≤ 5)) && decide (ts.Pairwise (· < ·))

/-- The content of a section, empty where there is none of its TYPE. -/
def sectionOf (ss : List (Nat × List Byte)) (ty : Nat) : List Byte := ((ss.find? (fun x => decide (x.1 = ty))).map (·.2)).getD []

/-- The entries of DEVICE_LIST. -/
def deviceEntries (b : List Byte) : List (List Byte) := (List.range (b.length / 1728)).map (fun i => slice b (1728 * i) 1728)

def entryDev (e : List Byte) : Nat := leNat (slice e 0 2)
def entryDigest (e : List Byte) : List Byte := slice e 8 64
def deviceEntryOk (e : List Byte) : Bool :=
  decide (slice e 2 6 = List.replicate 6 0 ∧ slice e 1688 40 = List.replicate 40 0)

/-- A header that step 2 accepts (R543). -/
def manifestHeaderOk (h : ManifestHeader) (len : Nat) : Bool :=
  decide (h.magic = 0x4D4A3954 ∧ h.version = 1 ∧ h.totalLen = len) && h.reservedZero

/-- What the agent keeps of a manifest whose bytes have come (R543, R544): JOB_DIGEST over all of them, the header, its own entry, its
neighbours' numbers and digests, and the configuration of its own DEV_NUMBER. -/
def State.manifestOf (s : State) (b : List Byte) : Manifest :=
  let h := Config.manifestHeader (b.take 256)
  let message := b.take (b.length - 4627)
  let found := sectionsFrom h.sectionCount 256 message
  let ss := found.getD []
  let es := deviceEntries (sectionOf ss 1)
  let own := es.find? (fun e => decide (entryDigest e = ownDigest))
  let dev := (own.map entryDev).getD 0
  let near := es.filter (fun e => (List.range 8).any (fun r => decide (roleNeighbour s.shape s.devNumber r = entryDev e)))
  let kept := 256 + (own.getD []).length + 66 * near.length + (sectionOf ss 2).length +
    Config.ownItemBytes dev (sectionOf ss 3) (sectionOf ss 4) + (sectionOf ss 5).length
  { Config.manifestItems dev (sectionOf ss 2) (sectionOf ss 3) (sectionOf ss 4) with
    header := h
    sectionsOk := decide (4627 + 256 ≤ b.length) && manifestHeaderOk h b.length && found.isSome && sectionTypesOk (ss.map (·.1)) &&
      decide ((sectionOf ss 1).length % 1728 = 0) && es.all deviceEntryOk
    keptBytes := kept
    message := message
    signature := b.drop (b.length - 4627)
    entryFound := own.isSome
    devNumber := dev
    ct := slice (own.getD []) 72 1568
    wrapped := slice (own.getD []) 1640 48
    digest := sha3w b
    peers := near.map (fun e => (entryDev e, BitVec.ofNat 512 (leNat (entryDigest e))))
    microcode := sectionOf ss 5 }

/-- The job secret that unwraps under this boot's KEM key (R545); none where the tag fails, as for a manifest made for an earlier boot
(R542). -/
def State.unwrapSecret (s : State) (m : Manifest) : Option (BitVec 256) :=
  s.rot.kemDraw.bind (fun draw =>
    let id := leBytes 16 (jobIdOf m).toNat
    let key := kdfPart (kdf "WVT9-WRAP" (keyBytes (Config.decaps draw m.ct)) id) 0 32
    (gcmOpen (BitVec.ofNat 256 key) (List.replicate 12 0) (leBytes 2 m.devNumber ++ id) (m.wrapped.take 32) (m.wrapped.drop 32)).map
      (fun b => BitVec.ofNat 256 (leNat b)))

/-- The owner signature verifies under the key that the header names (R543). -/
def State.manifestSigned (s : State) (m : Manifest) : Bool :=
  (s.ownerKeys[m.header.ownerIndex]?).any (fun k => dsaVerify k "WVT9-JOB" m.message m.signature)

/-- The first step at which a manifest fails (R544, R546). -/
def State.admissionFails (s : State) (m : Manifest) : Option Nat :=
  if !m.sectionsOk ∨ 4 * mib < m.keptBytes ∨ !s.manifestSigned m then some 2
  else if !m.entryFound ∨ m.devNumber ≠ s.objNum 0x6001 1 ∨ (s.unwrapSecret m).isNone then some 3
  else if !manifestConfigOk m then some 4
  else none

/-- The job keys that follow from the job secret (R545). -/
def jobKeys (secret : BitVec 256) (jobId : BitVec 128) (dev : Nat) : BitVec 128 × BitVec 512 :=
  let id := leBytes 16 jobId.toNat
  let pep := kdf "WVT9-PEPPER" (keyBytes secret) id
  let mem := kdf "WVT9-MEM" (keyBytes secret) (id ++ leBytes 2 dev)
  (BitVec.ofNat 128 (kdfPart pep 0 16), BitVec.ofNat 512 (kdfPart mem 0 64))

/-- The clusters that a job names. -/
def jobUses (m : Manifest) (g : Fin 32) : Bool := m.participants.any (fun p => decide (p.2 = g)) || m.clusters.any (fun c => decide (c.cluster = g))

/-- Words as a table from key 0. -/
def tabOfList (ws : List Word) : Tab Word := ws.zipIdx.map (fun x => (x.2, x.1))

/-- A cluster starts at START_SEASON; its sequencer runs from instruction 0 (R28, R100, R106, R114). -/
def Cluster.startJob (c : Cluster) (x : ClusterConfig) (season : Nat) (rtc : Word) : Cluster :=
  { c with
    season := season
    launch := x.launch.foldl (fun t e => tabSet t e.1 (LaunchEntry.ofWords e.2.1 e.2.2.1 e.2.2.2.1 e.2.2.2.2)) []
    seq := { c.seq with imem := tabOfList x.imem, pc := 0, state := .running }
    advanceRtc := rtc
    stalledRaised := false
    active := true }

/-- A cluster that the manifest names neither as participant nor in a configuration is not started and keeps its Season (DESIGN
CHOICE: R106 does not name the clusters that a job starts; log entry 47). -/
def State.startCluster (s : State) (m : Manifest) (g : Fin 32) : State :=
  let s := s.modCluster g (fun c => c.partition (clusterConfigOf m g))
  if jobUses m g && s.clusterOn g && !s.clusterFenced g then
    (s.modCluster g (fun c => c.startJob (clusterConfigOf m g) m.startSeason s.aon.rtc)).settle g
  else s

def State.startFtq (s : State) (m : Manifest) : State :=
  (List.finRange 256).foldl (fun s n => s.modVec n (fun v => { v with ftqSlots := ftqSlotsOf m n })) s

/-- A queue pair as a job starts it (R472). -/
def QueuePair.start (c : QpConfig) : QueuePair :=
  { cfg := c, error := false, expectPsn := c.reqPsn, prio := 0, filled := 0, slot := 0, consumed := 0, sendBuf := [], sendOpen := false,
    writeAt := none, writeTail := [], cnpRtc := none }

def State.startHost (s : State) (m : Manifest) (h : Fin 2) : State :=
  let qs := m.qps.filter (fun x => decide (x.1 = h))
  let rs := m.roceRegions.filter (fun x => decide (x.1 = h))
  let s := s.modHost h (fun p => { p with
    qps := qs.foldl (fun t x => tabSet t x.2.1 (QueuePair.start x.2.2)) []
    regions := rs.foldl (fun t x => tabSet t x.2.1 x.2.2) [] })
  match m.ingest.find? (fun x => decide (x.1 = h)) with
  | some x => s.modIngest h (Ingest.start x.2)
  | none => s

/-- A port whose peer the manifest does not list is MISWIRED (R541). -/
def State.checkPort (s : State) (p : Fin 16) : State :=
  let x := s.ports[p]
  if x.state = .up ∧ s.peerBarred x.peerDev x.peerDigest then s.miswire p x.peerDev x.peerPort 1 else s

/-- The bytes of a cluster's IMEM image (R530). -/
def imemBytes (c : ClusterConfig) : List Byte := c.imem.flatMap wordBytes

/-- MR7, MR8 and MR9 (R530). -/
def State.measureJob (s : State) (m : Manifest) : State :=
  let images := (List.finRange 32).flatMap (fun g => (m.clusters.filter (fun c => decide (c.cluster = g))).flatMap imemBytes)
  ((s.extend 7 (leBytes 64 m.digest.toNat)).extend 8 m.microcode).extend 9 images

/-- The key of every base die: the job's, or the one drawn as its bed came on (R244). -/
def State.changeKey (s : State) (key : Option (BitVec 512)) : State :=
  { s.setMem ((List.finRange 12).foldl (fun m k => m.setKey k (key.getD s.hbm[k].bedKey)) s.mem) with
    hbm := s.hbm.map (fun k => { k with jobKey := key.isSome }) }

/-- Step 5 of R546. -/
def State.startJob (s : State) (m : Manifest) (secret : BitVec 256) : State :=
  let keys := jobKeys secret (jobIdOf m) m.devNumber
  let s := s.modJob (fun j => { j with
    state := .running, manifest := some m, digest := m.digest, secret := some secret, pepper := keys.1, memKey := some keys.2,
    tables := m.tables.foldl (fun t x => tabSet t x.1 x.2) [], groups := m.groups.foldl (fun t x => tabSet t x.1 x.2) [],
    devSeason := m.startSeason, commitSeason := none })
  let s := (s.changeKey (some keys.2)).measureJob m
  let s := (List.finRange 16).foldl State.checkPort s
  let s := (List.finRange 4).foldl (fun s d => (s.takeMode d).modUpd d (fun u =>
    { u with stepNumber := BitVec.ofNat 32 m.startStep, colReady := [], pend := .zero, shadow := [], skewRaised := false })) s
  let s := (List.finRange 2).foldl (fun s h => s.startHost m h) s
  (List.finRange 32).foldl (fun s g => s.startCluster m g) (s.startFtq m)

/-- JOB_ADMISSION_END (R546). The cause number of a rejection is open (log entry 31). A root of trust that has halted admits no job,
since it makes no key (R521). -/
def execJobAdmissionEnd (s : State) : Out :=
  match s.job.state, s.job.manifest with
  | .verifying, some m =>
    if s.rot.halted then .next s
    else match s.admissionFails m, s.unwrapSecret m with
    | none, some secret =>
      let s := s.startJob m secret
      .next (s.raiseD uidRot 0x0C02 ((jobIdOf m).toNat % 2 ^ 64) 0 0)
    | f, _ =>
      let (w, s) := s.freshWord
      .next ((s.modJob (fun _ => { Job.reset with state := .rejected })).raiseD uidRot 0x0C03 (f.getD 3) (w.toNat % 2 ^ 48) 0)
  | _, _ => .next s

/-! ### JOB_MANIFEST and JOB_END (R516, R547) -/

/-- A FINAL of JOB_MANIFEST. -/
def State.writeManifest (s : State) (m : Manifest) : Nat × State :=
  match s.job.state with
  | .none => (statusOk, s.modJob (fun j => { j with state := .verifying, manifest := some m }))
  | .rejected => (statusOk, s.modJob (fun j => { j with state := .verifying, manifest := some m }))
  | _ => (statusState, s)

/-- JOB_MANIFEST (R546 step 1). -/
def execJobManifest (value : List Byte) (s : State) : Out :=
  if s.rot.recovery then .next s else .next (s.direct (fun s => s.writeManifest (s.manifestOf value)))

/-- What the job held in flight goes with it. -/
def State.dropJobTraffic (s : State) : State :=
  { s with txFlows := [], rxFlows := [], delivered := [], posts := [], arrivals := [], held := [], releases := [], partials := [],
           chunks := [], moves := [], incoming := [], early := [], relays := [], phases := [], phaseDue := none }

/-- Partitions without a job (R28, R365). -/
def State.freeCluster (s : State) (g : Fin 32) : State :=
  let s := if s.clusterOn g then s.resetCluster g else s
  let s := s.modCluster g (fun c => { c with scratchKib := 24576, clocheKib := 0, topoKib := 0, active := false })
  (coresOf g).foldl (fun s n => s.modVec n (fun v => { v with ftqSlots := 0 })) s

/-- The end of a running job (R547): queue pairs in error, clusters reset, keys erased, MR7 extended. JOB_STATE reads 3 until the
next crystal cycle (log entry 63). -/
def State.stopJob (s : State) : State :=
  let id := ((s.job.inForce.map (fun m => (jobIdOf m).toNat)).getD 0) % 2 ^ 64
  let digest := s.job.digest
  let s := (List.finRange 2).foldl (fun s h => (s.errorQps h).modIngest h Ingest.abandon) s
  let s := (List.finRange 32).foldl State.freeCluster s
  let s := (List.finRange 4).foldl State.dropUpdate s
  let s := (List.finRange 12).foldl State.dropStack s
  let s := (s.changeKey none).dropJobTraffic.modJob (fun _ => { Job.reset with state := .ending })
  let s := s.extend 7 (asciiBytes "WVT9-JOB-END" ++ leBytes 64 digest.toNat)
  let s := (List.finRange 2).foldl (fun s h => (s.modHost h (fun p => { p with qps := [], regions := [] })).syncPause h) s
  s.raiseD uidRot 0x0C04 id 0 0

/-- JOB_STATE becomes 0 once a job has ended (R547). -/
def State.endEnding (s : State) : State := if s.job.state = .ending then s.modJob (fun j => { j with state := .none }) else s

/-- JOB_END in any state (R547). -/
def State.endJob (s : State) : Nat × State :=
  match s.job.state with
  | .verifying => (statusOk, s.modJob (fun _ => Job.reset))
  | .running => (statusOk, s.stopJob)
  | _ => (statusState, s)

/-- JOB_END (R547). -/
def execJobEnd (s : State) : Out := if s.rot.recovery then .next s else .next (s.direct State.endJob)

end Sys2Proof.Machine
end

