-- ==== Sys2Proof/Machine/Security.lean ====
section
/-! DEFINITION. Security.lean: firmware updates, measurements, quotes, challenges, sessions, owner keys, MACsec keys and the
debug unlock (R527 to R538, R548 to R550). -/

namespace Sys2Proof.Machine

/-! ### Firmware (R527, R528) -/

/-- An image has entered checking (R528). -/
def State.writeFwImage (s : State) (img : FwImage) : Nat × State :=
  if s.rot.fwStatus = 1 then (statusState, s)
  else (statusOk, s.modRot (fun r => { r with fwStaged := some img, fwStatus := 1 }))

/-- FW_IMAGE (R528). -/
def execFwImage (value : List Byte) (s : State) : Out := .next (s.direct (fun s => s.writeFwImage (imageOf value)))

/-- The slot that is not in force (R526, R528). -/
def State.spareSlot (s : State) : Bool := if s.rot.recovery then !s.fwPref else !s.rot.slot

def setSlot (b : Bool) (f : Option FwImage) (r : Rot) : Rot :=
  { r with fwSlots := if b then (r.fwSlots.1, f) else (f, r.fwSlots.2) }

/-- A numeric value that goes straight to the flash. -/
def State.setFlashNum (s : State) (i sub v : Nat) : State :=
  (s.setObjNum i sub v).modObjs (fun o => { o with flashNums := tabSet o.flashNums (objKey i sub) v })

def State.setFlashBytes (s : State) (i sub : Nat) (b : List Byte) : State :=
  (s.setObjBytes i sub b).modObjs (fun o => { o with flashBlobs := tabSet o.flashBlobs (objKey i sub) b })

/-- FW_IMAGE_CHECK_END (R528): the image is written and preferred, or its slot is erased. -/
def execFwImageCheckEnd (flashOk : Bool) (s : State) : Out :=
  match s.rot.fwStaged with
  | none => .next s
  | some f =>
    if s.rot.fwStatus ≠ 1 ∨ !s.bedOn bedRot then .next s
    else
      let slot := s.spareSlot
      let s := s.modRot (fun r => { r with fwStaged := none })
      let fails := match imageFails s.rot.minSvn f with
        | some k => some k
        | none => if flashOk then none else some 6
      match fails with
      | none =>
        let t := s.modRot (fun r => { setSlot slot (some f) r with fwStatus := 2 })
        .next ((t.setFlashNum 0x7004 2 (b2n slot)).mr2Since s)
      | some k =>
        .next ((s.modRot (fun r => { setSlot slot none r with fwStatus := 3 })).raiseD uidRot 0x0C06 (b2n slot) k (imgVersion f))

/-- A write of FW_COMMIT_SVN (R527): fuses count up to 64. -/
def State.writeCommitSvn (s : State) (v : Nat) : Nat × State :=
  match s.fwInForce with
  | none => (statusRange, s)
  | some f =>
    if imgSvn f < v ∨ v < s.rot.minSvn ∨ 64 < v then (statusRange, s)
    else (statusOk, ((s.modRot (fun r => { r with minSvn := v })).setObjNum 0x7004 4 v).mr2Since s)

/-- FW_COMMIT_SVN (R527). -/
def execFwCommitSvn (svn : Nat) (s : State) : Out := .next (s.direct (fun s => s.writeCommitSvn svn))

/-! ### Measurements and quotes (R530 to R532) -/

/-- A write of MEASURE_EXTEND (R530). -/
def State.writeMeasure (s : State) (b : List Byte) : Nat × State :=
  let i := (b.headD 0).toNat
  if 10 ≤ i ∧ i ≤ 15 ∧ 2 ≤ b.length ∧ b.length ≤ 1024 then (statusOk, s.extend (fin16 i) (b.drop 1)) else (statusRange, s)

/-- MEASURE_EXTEND (R530). -/
def execMeasureExtend (value : List Byte) (s : State) : Out := .next (s.direct (fun s => s.writeMeasure value))

/-- A write of QUOTE_REQUEST: until its quote is formed, QUOTE reads as empty (R531, R532). -/
def State.writeQuoteRequest (s : State) (nonce : List Byte) : Nat × State :=
  if 32 ≤ nonce.length ∧ nonce.length ≤ 64 then (statusOk, s.modRot (fun r => { r with quoteNonce := some nonce, quote := [] }))
  else (statusRange, s)

/-- QUOTE_REQUEST (R531). -/
def execQuoteRequest (nonce : List Byte) (s : State) : Out := .next (s.direct (fun s => s.writeQuoteRequest nonce))

def zeroFill (n : Nat) (b : List Byte) : List Byte := b ++ List.replicate (n - b.length) 0

/-- The version of the image in force, 0 without one. -/
def State.fwVersion (s : State) : Nat := (s.fwInForce.map imgVersion).getD 0

/-- Bytes 0 to 1,175 of a quote (R531). -/
def State.quoteBody (s : State) (nonce : List Byte) : List Byte :=
  let digest := if s.jobRuns then s.job.digest else 0
  leBytes 2 0x5154 ++ [1, BitVec.ofNat 8 nonce.length, 0, 0, 0, 0] ++ zeroFill 64 nonce ++
    (s.rot.mr.toList.flatMap (fun m => leBytes 64 m.toNat)) ++ leBytes 64 digest.toNat ++ wordBytes s.aon.rtc ++
    leBytes 2 (s.objNum 0x6001 1) ++ [BitVec.ofNat 8 (b2n s.rot.slot), BitVec.ofNat 8 (b2n (decide (s.rot.debugState ≠ 0)))] ++
    leBytes 4 s.fwVersion

/-- QUOTE_FORMED (R531, R532). -/
def execQuoteFormed (s : State) : Out :=
  match s.rot.quoteNonce with
  | none => .next s
  | some n =>
    if s.agentUp then
      let body := s.quoteBody n
      .next (s.modRot (fun r => { r with quoteNonce := none, quote := body ++ s.signUnder "WVT9-QUOTE" body }))
    else .next s

/-! ### Challenges (R534) -/

/-- A read of CHALLENGE: 32 fresh bytes for the source, in place of an earlier one. -/
def State.newChallenge (s : State) (src : Source) : BitVec 256 × State :=
  let (w, s) := s.freshEntropy
  let c := w.setWidth 256
  (c, s.modAgent (fun a => { a with
    challenges := a.challenges.filter (fun x => decide (x.1 ≠ src)) ++ [(src, c, s.aon.rtc)] }))

/-- CHALLENGE (R534). -/
def execChallenge (src : Source) (s : State) : Out := if s.agentUp then .next (s.newChallenge src).2 else .next s

/-- A challenge that a source may still use: 60 s by the real-time counter. -/
def State.challengeOk (s : State) (src : Source) (b : List Byte) : Bool :=
  s.agent.challenges.any (fun x => decide (x.1 = src ∧ leBytes 32 x.2.1.toNat = b ∧ (s.aon.rtc - x.2.2).toNat ≤ 1500000000))

/-- One use consumes a source's challenge. -/
def State.useChallenge (s : State) (src : Source) : State :=
  s.modAgent (fun a => { a with challenges := a.challenges.filter (fun x => decide (x.1 ≠ src)) })

/-! ### Sessions (R511, R512, R533 to R536) -/

/-- The claim of R533: no owner key yet. -/
def State.claims (s : State) : Bool := s.ownerKeys.isEmpty

/-- The grant's signature: by GRANT_KEY under "WVT9-SESSION", over bytes 0 to 4,199 and the device's identity digest (R535). -/
def grantSigned (b : List Byte) : Bool :=
  dsaVerify (slice b 1608 2592) "WVT9-SESSION" (slice b 0 4200 ++ ownDigest) (slice b 4200 4627)

/-- A SESSION_OPEN value that R535 and R533 accept. -/
def State.sessionOk (s : State) (src : Source) (b : List Byte) : Bool :=
  decide (b.length = 8827 ∧ leNat (slice b 0 2) = 0x534F ∧ (b.getD 2 0).toNat ≤ 3 ∧ leNat (slice b 3 5) = 0) &&
    s.challengeOk src (slice b 8 32) && grantSigned b && decide (s.agent.sessions.length < 4) &&
    (s.claims || decide (s.ownerKeys[(b.getD 2 0).toNat]? = some (slice b 1608 2592)))

/-- A result for a source takes the place of its earlier one. -/
def putResult (src : Source) (b : List Byte) (xs : List (Source × List Byte)) : List (Source × List Byte) :=
  xs.filter (fun x => decide (x.1 ≠ src)) ++ [(src, b)]

/-- Opens a session (R536). -/
def State.openSession (s : State) (src : Source) (b : List Byte) : State :=
  let n := s.agent.nextSession
  let e := encaps (slice b 40 1568) s.free
  let s := { s with free := s.free.succ }
  let h := sha3_512 b
  let out := kdf "WVT9-SESSION" (keyBytes e.1) (h ++ leBytes 4 n)
  let x : Session :=
    { id := n, key := BitVec.ofNat 256 (kdfPart out 0 32), saltTx := BitVec.ofNat 32 (kdfPart out 32 4),
      saltRx := BitVec.ofNat 32 (kdfPart out 36 4), lastSeq := none, usedRtc := s.aon.rtc }
  let body := leBytes 2 0x5352 ++ leBytes 4 n ++ e.2
  let res := body ++ s.signUnder "WVT9-SESSION-OK" (body ++ h)
  s.modAgent (fun a => { a with
    sessions := a.sessions ++ [x], nextSession := (n + 1) % 2 ^ 32, results := putResult src res a.results })

/-- A write of SESSION_OPEN (R536). What the status byte of a refusal holds is open (log entry 32). -/
def State.writeSessionOpen (s : State) (src : Source) (b : List Byte) : Nat × State :=
  let ok := s.sessionOk src b
  let s := s.useChallenge src
  if ok then
    let s := if s.claims then (s.setFlashBytes 0x7005 1 (slice b 1608 2592)).mr2Since s else s
    (statusOk, s.openSession src b)
  else
    let (w, s) := s.freshWord
    (statusOk, s.modAgent (fun a => { a with results := putResult src (leBytes 2 0x5352 ++ [w.setWidth 8]) a.results }))

/-- SESSION_OPEN (R508, R536): a FINAL whose TOTAL is not the length that was staged, or a value longer than the object, is discarded. -/
def execSessionOpen (src : Source) (value : List Byte) (total : Nat) (s : State) : Out :=
  .next (s.direct (fun s =>
    if total ≠ value.length ∨ 16384 < total then (statusLength, s) else s.writeSessionOpen src value))

/-- A session closes; its subscriptions lapse with it (R510, R512). -/
def State.closeSession (s : State) (n : Nat) : State :=
  s.modAgent (fun a => { a with
    sessions := a.sessions.filter (fun x => decide (x.id ≠ n)), subs := a.subs.filter (fun x => decide (x.session ≠ some n)) })

/-- SESSION_CLOSE (R512): written in a frame of that session. -/
def execSessionClose (session : Nat) (s : State) : Out :=
  .next (s.direct (fun s =>
    if s.agent.sessions.any (fun x => decide (x.id = session)) then (statusOk, s.closeSession session) else (statusAuthFailed, s)))

/-- SESSION_TIMEOUT (R512): the i-th session has had no accepted request for 300 s. -/
def execSessionTimeout (i : Nat) (s : State) : Out :=
  match s.agent.sessions[i]? with
  | some x => if 7500000000 ≤ (s.aon.rtc - x.usedRtc).toNat then .next (s.closeSession x.id) else .next s
  | none => .next s

/-! ### Owner keys (R533) -/

/-- A write of OWNER_KEYS: one to four keys of 2,592 bytes. -/
def State.writeOwnerKeys (s : State) (b : List Byte) : Nat × State :=
  if b = [] ∨ b.length % 2592 ≠ 0 ∨ 4 * 2592 < b.length then (statusRange, s)
  else (statusOk, (s.setObjBytes 0x7005 1 b).mr2Since s)

/-- OWNER_KEYS (R533). -/
def execOwnerKeys (keys : List (List Byte)) (s : State) : Out :=
  if keys.all (fun k => decide (k.length = 2592)) then .next (s.direct (fun s => s.writeOwnerKeys keys.flatten))
  else .next (s.direct (fun s => (statusRange, s)))

/-! ### MACsec keys (R537) -/

/-- A write of MACSEC_KEYEX (R537). -/
def State.writeMacsecKeyex (s : State) (src : Source) (b : List Byte) : Nat × State :=
  let p := (b.headD 0).toNat
  let h := fin2 (p / 4)
  let sub := fin4 p
  if b.length ≠ 1569 ∨ 8 ≤ p then (statusRange, s)
  else if !s.bedOn (bedHost h.val) ∨ !s.subExists h sub then (statusState, s)
  else
    let e := encaps (b.drop 1) s.free
    let s := { s with free := s.free.succ }
    let s := (s.setObjBytes 0x7006 1 b).mr2Since s
    let out := kdf "WVT9-MACSEC" (keyBytes e.1) (sha3_512 b)
    let s := s.modSub h sub (installSak (BitVec.ofNat 256 (kdfPart out 0 32)) (BitVec.ofNat 96 (kdfPart out 32 12)) s.aon.rtc)
    (statusOk, s.modAgent (fun a => { a with macsecResults := putResult src e.2 a.macsecResults }))

/-- MACSEC_KEYEX (R537). -/
def execMacsecKeyex (src : Source) (value : List Byte) (s : State) : Out :=
  if s.rot.halted then .next s else .next (s.direct (fun s => s.writeMacsecKeyex src value))

/-! ### Debug unlock (R548, R549) -/

/-- A token's signature, by the Walvaith debug key whose digest the ROM holds, under "WVT9-DEBUG", over the fields before it (R548). -/
def tokenSigned (b : List Byte) : Bool :=
  decide (sha3w Config.debugKey = Config.romDebugKey) && dsaVerify Config.debugKey "WVT9-DEBUG" (slice b 0 99) (slice b 99 4627)

/-- A token that R548 accepts: MAGIC, SCOPE, identity digest, challenge, signature, one after the other. -/
def State.tokenOk (s : State) (src : Source) (b : List Byte) : Bool :=
  decide (b.length = 4726 ∧ leNat (slice b 0 2) = 0x4455 ∧ b.getD 2 0 ≠ 0 ∧ slice b 3 64 = ownDigest) &&
    s.challengeOk src (slice b 67 32) && tokenSigned b

/-- A fabric port without its link keys waits for a new exchange. -/
def unkeyPort (x : Port) : Port :=
  match x.state with
  | .up => { x with state := .keying, keys := none, keyex := .none }
  | .keying => { x with keys := none, keyex := .none }
  | _ => { x with keys := none, keepKeys := false }

/-- MACsec and link keys are erased (R549 step 2). -/
def State.eraseKeys (s : State) : State :=
  { s with ports := s.ports.map unkeyPort,
           hosts := s.hosts.map (fun h => { h with subs := h.subs.map (fun x => { SubPort.reset with link := x.link, paused := x.paused, mac := x.mac }) }) }

/-- The actions of R549 in order. -/
def State.unlock (s : State) (b : List Byte) : State :=
  let s := s.endJob.2.eraseKeys
  let s := s.agent.sessions.foldl (fun s x => s.closeSession x.id) s
  let s := (s.extend 6 (sha3_512 b)).modRot (fun r => { r with debugState := (b.getD 2 0).toNat })
  s.raiseD uidRot 0x0C05 (b.getD 2 0).toNat 0 0

/-- A write of DEBUG_UNLOCK: a rejected token only consumes its challenge (R549). -/
def State.writeDebugUnlock (s : State) (src : Source) (b : List Byte) : Nat × State :=
  let ok := s.tokenOk src b
  let s := s.useChallenge src
  if ok then (statusOk, s.unlock b) else (statusRange, s)

/-- DEBUG_UNLOCK (R504, R548, R549): a write in a frame without AUTH consumes nothing. -/
def execDebugUnlock (src : Source) (value : List Byte) (auth : Bool) (s : State) : Out :=
  .next (s.direct (fun s => if auth then s.writeDebugUnlock src value else (statusAuthRequired, s)))

end Sys2Proof.Machine
end

