-- ==== Sys2Proof/Machine/Objects.lean ====
section
/-! DEFINITION. Objects.lean: reading and writing the objects of the dictionary (R47, R48, R183, R241, R248, R435, R463, R494,
R503 to R517, R528 to R550, R572, R578, R582, R602 to R607), and the commands that are writes of one object. -/

namespace Sys2Proof.Machine

/-! ### Which object (R503, R513, R526) -/

/-- An object or field; subindex 0 of a REC holds its highest subindex. -/
def objSpecAt (i sub : Nat) : Option ObjSpec :=
  if sub = 0 then (if objHighest i = 0 then none else some (mkObj i 0 1 .const (objHighest i) .any)) else objFind i sub

/-- In RECOVERY the agent serves the identity and security objects only (R526). -/
def State.servesIndex (s : State) (i : Nat) : Bool :=
  !s.rot.recovery || decide ((0x1000 ≤ i ∧ i ≤ 0x1FFF) ∨ (0x7000 ≤ i ∧ i ≤ 0x7FFF))

/-- The object at an address word, or the status that names what is missing. -/
def State.findObj (s : State) (i sub : Nat) : Except Nat ObjSpec :=
  if objHighest i = 0 ∨ !s.servesIndex i then .error statusNoObject
  else match objSpecAt i sub with
    | none => .error statusNoSub
    | some o => .ok o

/-! ### Stall snapshots (R273, R274, R517) -/

/-- The unit with a stall-counter block that an identifier names (R39, R273). -/
def stallUnitOf (u : Nat) : Option StallUnit :=
  if u < 0x4000 then if h : u % 64 < 6 then some (.engine (fin256 (u / 64)) ⟨u % 64, h⟩) else none
  else if u < 0x6000 then
    if h : u % 256 < 4 then some (.unit (fin32 ((u - 0x4000) / 0x800 * 8 + u / 256 % 8)) ⟨u % 256, h⟩) else none
  else none

def stallCluster : StallUnit → Fin 32
  | .engine n _ => clusterOfCore n
  | .unit g _ => g

def State.stall (s : State) : StallUnit → Stall
  | .engine n e => s.cores[n].stalls[e]
  | .unit g u => s.clusters[g].stalls[u]

def State.modStall (s : State) (u : StallUnit) (f : Stall → Stall) : State :=
  match u with
  | .engine n e => s.modCore n (fun c => { c with stalls := c.stalls.set e (f c.stalls[e]) })
  | .unit g x => s.modCluster g (fun c => { c with stalls := c.stalls.set x (f c.stalls[x]) })

/-- The ten counters and the tick count at one tick (R274). -/
def Stall.snap (tick : Word) (x : Stall) : Stall := { x with snapTick := tick, snapCounts := x.counts }

/-- SNAP reaches a unit whose bed is on. -/
def State.snapUnit (s : State) (u : StallUnit) : State :=
  if s.clusterOn (stallCluster u) then s.modStall u (Stall.snap s.clusters[stallCluster u].osc.tick) else s

/-- The 96 bytes of COUNTER_SNAPSHOT (R517). -/
def State.snapBytes (s : State) (unit : Nat) (u : StallUnit) : List Byte :=
  let x := s.stall u
  leBytes 8 (unit % 65536) ++ wordBytes x.snapTick ++ x.snapCounts.toList.flatMap wordBytes

/-- A read of COUNTER_SNAPSHOT from its start. -/
def State.counterSnapshot (s : State) : State :=
  let unit := s.objNum 0x8010 1
  match stallUnitOf unit with
  | none => s
  | some u =>
    let s := s.snapUnit u
    s.modAgent (fun a => { a with counterSnap := s.snapBytes unit u })

/-! ### Values (R505, R514 to R516, R550, R578, R607) -/

/-- RATE_FACTOR: the mean of RATE_MON over the die's clusters that are on, as an FP32 number (R47, R55).
That the quotient is rounded to nearest even is a DESIGN CHOICE (log entry 47): R47 does not say how a mean is rounded. -/
def State.rateFactor (s : State) (d : Fin 4) : Nat :=
  let gs := (List.finRange 32).filter (fun g => decide (g.val / 8 = d.val) && s.clusterOn g)
  let n := (gs.map (fun g => s.clusters[g].osc.rateMon.toNat)).sum
  if n = 0 then 0 else (roundTo fp32 .rne false false n gs.length (-14)).code

/-- SUPPLY_STATUS (R578). -/
def Aon.supplyStatus (a : Aon) : Nat :=
  b2n a.reversed + 2 * b2n a.underV + 4 * b2n a.overV + 8 * b2n a.standbyLow + 16 * a.therm.toNat

/-- SIDEBAND_STATUS (R578). -/
def Aon.sidebandStatus (a : Aon) : Nat :=
  (([.xoffA, .xoffB, .replace, .rotFault] : List Sideband).map
    (fun o => sidebandStateCode (a.sidebandOf o) * 4 ^ sidebandCode o)).sum

def jobStateCode : JobState → Nat
  | .none => 0
  | .verifying => 1
  | .running => 2
  | .ending => 3
  | .rejected => 4

def phyCode : PhyLink → Nat
  | .down => 0
  | .m10 => 1
  | .m100 => 2
  | .m1000 => 3

/-- RESET_CAUSE (R605). -/
def Aon.resetWord (a : Aon) : Nat := a.resetKind % 4 + a.resetCause % 16 * 16

/-- A numeric object's present value. -/
def State.readNum (s : State) (i sub : Nat) : Nat :=
  match i with
  | 0x1000 => match sub with
    | 4 => Config.stepping.toNat
    | 5 => b2n s.rot.slot
    | _ => s.fwVersion
  | 0x1001 => 1
  | 0x1010 => match sub with
    | 1 => Config.mgmtMac.toNat
    | 9 => phyCode s.agent.mgmtLink
    | _ => s.objNum i sub
  | 0x1020 => match sub with
    | 4 => s.agent.admitted.toNat
    | 5 => s.agent.dropped.toNat
    | _ => s.objNum i sub
  | 0x2001 => match sub with
    | 1 => s.aon.vinMv
    | 2 => s.aon.pinW.toNat
    | 4 => s.aon.tj.toNat
    | _ => s.objNum i sub
  | 0x2011 => s.rateFactor (fin4 (sub - 1))
  | 0x2012 => s.vcoreEffective (fin4 (sub - 1))
  | 0x2020 => if sub < 3 then 1 else b2n s.beds[fin62 (sub - 1)].target
  | 0x2021 => s.bedState (fin62 (sub - 1)) + 8 * b2n s.beds[fin62 (sub - 1)].target
  | 0x2022 => match sub with
    | 2 => 0
    | 4 => s.aon.resetWord
    | _ => s.objNum i sub
  | 0x2030 => match sub with
    | 1 => s.aon.rtc.toNat
    | _ => s.aon.wallBase.toNat
  | 0x3001 => match sub with
    | 1 => s.health.head % 2 ^ 32
    | 3 => s.health.lost
    | _ => s.health.suppressed.toNat
  | 0x3002 => match sub with
    | 1 => b2n (decide (s.health.replaceReasons ≠ 0))
    | _ => s.health.capVersion.toNat
  | 0x3003 => match sub with
    | 4 => s.health.fences.length
    | _ => s.objNum i sub
  | 0x3011 => match sub with
    | 1 => s.aon.supplyStatus
    | _ => s.aon.sidebandStatus
  | 0x7001 => s.agent.sessions.length
  | 0x7003 => s.rot.debugState
  | 0x7004 => match sub with
    | 3 => s.rot.minSvn
    | 5 => s.rot.bootResult
    | 6 => s.rot.fwStatus
    | _ => s.objNum i sub
  | 0xA001 => match sub with
    | 1 => jobStateCode s.job.state
    | _ => 0
  | 0xA010 => match sub with
    | 1 => s.seasonMin
    | _ => s.seasonMax
  | 0xA021 => match sub with
    | 1 => s.dies[0].upd.stepNumber.toNat
    | _ => ((s.dies.toList.map (fun d => d.upd.stepsSkipped.toNat)).sum) % 2 ^ 64
  | _ => s.objNum i sub

/-- The bytes of the event ring (R515). -/
def Health.ringBytes (h : Health) : List Byte :=
  (List.range 1024).flatMap (fun k => match tabFind h.ring k with
    | some x => recordBytes x.1
    | none => List.replicate 32 0)

/-- An entry of FENCE_LIST (R578). -/
def fenceBytes (f : FenceEntry) : List Byte :=
  leBytes 8 (f.unit.toNat + f.cause.toNat * 2 ^ 16 + b2n f.persistent * 2 ^ 32 + f.by_.toNat * 2 ^ 48)

/-- Up to 64 fences; with more, the persistent ones come first. -/
def Health.fenceList (h : Health) : List FenceEntry :=
  if h.fences.length ≤ 64 then h.fences
  else (h.fences.filter (·.persistent) ++ h.fences.filter (fun f => !f.persistent)).take 64

/-- An entry of a retired-page list (R241). -/
def Stack.retiredBytes (x : Stack) (e : Retired) : List Byte :=
  leBytes 8 (e.addr % 2 ^ 48 + e.cause % 4 * 2 ^ 48 + b2n (x.poisonBit e) * 2 ^ 50) ++ wordBytes e.rtc

/-- What a source's last request of a kind left for it. -/
def resultFor (src : Source) (xs : List (Source × List Byte)) : List Byte :=
  ((xs.find? (fun x => decide (x.1 = src))).map (·.2)).getD []

/-- KEM_EK (R542). -/
def State.kemEk (s : State) : List Byte :=
  match s.rot.kemDraw with
  | none => []
  | some d => kemKey d ++ s.signUnder "WVT9-KEM" (kemKey d)

/-- The bytes that a source's challenge holds. -/
def State.challengeBytes (s : State) (src : Source) : List Byte :=
  ((s.agent.challenges.find? (fun x => decide (x.1 = src))).map (fun x => leBytes 32 x.2.1.toNat)).getD []

/-- A byte-string object's present value, for the source that reads it. -/
def State.readBytes (s : State) (src : Source) (i sub : Nat) : List Byte :=
  match i with
  | 0x1000 => match sub with
    | 1 => asciiBytes "Walvaith"
    | 2 => asciiBytes "WVT9-768-LC"
    | _ => serialBytes
  | 0x1010 => match sub with
    | 6 => zeroFill 16 (s.objBytes i sub)
    | _ => (leBytes 16 s.agent.addrInForce).reverse
  | 0x3001 => match sub with
    | 2 => s.health.ringBytes
    | _ => s.health.log.flatMap recordBytes
  | 0x3002 => s.capacityNow.toList.flatMap wordBytes
  | 0x3003 => s.health.fenceList.flatMap fenceBytes
  | 0x5020 =>
    let x := s.hbm[fin12 (sub - 1)]
    x.retired.flatMap x.retiredBytes
  | 0x7001 => match sub with
    | 2 => resultFor src s.agent.results
    | _ => s.challengeBytes src
  | 0x7002 => match sub with
    | 1 => identityCert
    | 2 => s.rot.mr.toList.flatMap (fun m => leBytes 64 m.toNat)
    | 4 => s.rot.quote
    | _ => []
  | 0x7005 => match sub with
    | 2 => s.kemEk
    | _ => s.objBytes i sub
  | 0x7006 => match sub with
    | 2 => resultFor src s.agent.macsecResults
    | _ => s.objBytes i sub
  | 0x8010 => s.agent.counterSnap
  | 0xA001 => match sub with
    | 3 => leBytes 64 (if s.jobRuns then s.job.digest else 0).toNat
    | _ => []
  | 0xA030 => s.phases
  | _ => if objKeepsNothing i sub then [] else s.objBytes i sub

/-- What reading an object from its start does first: a fresh challenge, a fresh snapshot (R517, R534). -/
def State.beforeRead (s : State) (src : Source) (i sub : Nat) : State :=
  if i = 0x7001 ∧ sub = 5 then (s.newChallenge src).2
  else if i = 0x8010 ∧ sub = 2 then s.counterSnapshot
  else s

/-- A numeric type (R503). -/
def isNumType (ty : Nat) : Bool := decide (1 ≤ ty ∧ ty ≤ 6)

/-- The value bytes of an object. -/
def State.objValue (s : State) (src : Source) (o : ObjSpec) : List Byte :=
  if o.sub = 0 then [BitVec.ofNat 8 o.dflt]
  else if isNumType o.type then leBytes (objTypeBytes o.type) (s.readNum o.index o.sub)
  else s.readBytes src o.index o.sub

/-- An object that may be read (R504). -/
def readable (o : ObjSpec) : Bool := decide (o.access ≠ .wo)

/-! ### Writes (R504 to R506) -/

/-- Who writes: the request's source, and its session where it carries AUTH. -/
structure Writer where
  src : Source
  session : Option Nat
  deriving DecidableEq, Repr

/-- What R504 answers to a write before its value is looked at. -/
def State.writeDenied (s : State) (w : Writer) (o : ObjSpec) : Option Nat :=
  let auth := w.session.isSome
  match o.access with
  | .const => some statusAccess
  | .ro => some statusAccess
  | .rw => if s.objNum 0x1020 2 = 1 ∧ !auth then some statusAuthRequired else none
  | .wo => if ((o.index = 0x7001 ∧ o.sub = 3) ∨ (o.index = 0x7003 ∧ o.sub = 1)) ∧ !auth then some statusAuthRequired else none
  | .rws => if auth then none else some statusAuthRequired

/-- The pool objects after a write keep R463. -/
def State.poolOk (s : State) (i sub v : Nat) : Bool :=
  let res (k : Nat) : Nat := if i = 0x6020 ∧ k = sub then v else s.objNum 0x6020 k
  let cap (k : Nat) : Nat := if i = 0x6021 ∧ k = sub then v else s.objNum 0x6021 k
  let ks := (List.range 9).map (· + 1)
  decide ((ks.map res).sum ≤ poolCells) && ks.all (fun k => decide (res k ≤ cap k))

/-- Range checks that the table's bounds do not say (R47, R435, R463, R494, R517). -/
def State.numOk (s : State) (o : ObjSpec) (v : Nat) : Bool :=
  objInRange o.check v && match o.index with
    | 0x6001 => if o.sub = 2 then shapeOk v else if o.sub = 4 then decide (v ≤ 32767) else true
    | 0x6020 => s.poolOk 0x6020 o.sub v
    | 0x6021 => s.poolOk 0x6021 o.sub v
    | 0x6030 => if o.sub = 3 then decide (v ≤ 7)
      else if o.sub = 4 then decide (v < 256) && bitOf v (s.objNum 0x6030 3) else true
    | 0x8010 => (stallUnitOf v).isSome
    | _ => true

/-- A write of FENCE_REQUEST (R572): persistent, cause 0. -/
def State.writeFenceRequest (s : State) (v : Nat) : Nat × State :=
  match fenceNamed (BitVec.ofNat 16 v) with
  | none => (statusRange, s)
  | some k => (statusOk, (s.setObjNum 0x3003 3 v).fenceUnit k true 0)

/-- A write of FENCE_CLEAR (R572). -/
def State.writeFenceClear (s : State) (v : Nat) : Nat × State :=
  match fenceNamed (BitVec.ofNat 16 v) with
  | none => (statusRange, s)
  | some k => if s.clearable k then (statusOk, (s.setObjNum 0x3003 2 v).fenceClear k) else (statusRange, s)

/-- A write of RETIRE_REQUEST (R239, R242): the granule of an HBM address. -/
def State.writeRetire (s : State) (v : Nat) : Nat × State :=
  if hbmEnd ≤ v then (statusRange, s)
  else if !s.bedOn (bedStack (stackOf v).val) then (statusState, s)
  else (statusOk, (s.setObjNum 0x5021 1 v).retire (v / 4096 * 4096) 2)

/-- A write of JOB_END (R516, R547). -/
def State.writeJobEnd (s : State) (v : Nat) : Nat × State :=
  match s.job.state with
  | .none => (statusState, s)
  | .rejected => (statusState, s)
  | _ => if v = 1 then s.endJob else (statusOk, s)

/-- A write of SESSION_CLOSE closes the session of its frame (R512). -/
def State.writeSessionClose (s : State) (w : Writer) : Nat × State :=
  match w.session with
  | some n => if s.agent.sessions.any (fun x => decide (x.id = n)) then (statusOk, s.closeSession n) else (statusAuthFailed, s)
  | none => (statusAuthRequired, s)

/-- A numeric value that passed its checks takes effect. -/
def State.applyNum (s : State) (w : Writer) (i sub v : Nat) : Nat × State :=
  match i with
  | 0x2020 => s.writeTarget (fin62 (sub - 1)) (decide (v = 1))
  | 0x2022 => if sub = 2 then (statusOk, s) else if sub = 3 then s.writeClusterReset v else (statusOk, s.setObjNum i sub v)
  | 0x2030 => (statusOk, s.modAon (fun a => { a with wallBase := BitVec.ofNat 64 v }))
  | 0x3003 => if sub = 2 then s.writeFenceClear v else s.writeFenceRequest v
  | 0x4020 => (statusOk, s.noteIdle.setObjNum i sub v)
  | 0x5021 => s.writeRetire v
  | 0x7001 => s.writeSessionClose w
  | 0x7004 => if sub = 4 then s.writeCommitSvn v else (statusOk, (s.setObjNum i sub v).mr2Since s)
  | 0xA001 => s.writeJobEnd v
  | _ => (statusOk, s.setObjNum i sub v)

/-- A byte string takes effect: requests are decided by their chapters. -/
def State.applyBytes (s : State) (w : Writer) (i sub : Nat) (b : List Byte) : Nat × State :=
  match i with
  | 0x7001 => s.writeSessionOpen w.src b
  | 0x7002 => if sub = 3 then s.writeQuoteRequest b else s.writeMeasure b
  | 0x7003 => s.writeDebugUnlock w.src b
  | 0x7004 => s.writeFwImage (imageOf b)
  | 0x7005 => s.writeOwnerKeys b
  | 0x7006 => if s.rot.halted then (statusState, s) else s.writeMacsecKeyex w.src b
  | 0xA001 => s.writeManifest (s.manifestOf b)
  | _ => (statusOk, s.setObjBytes i sub b)

/-- A write to an object: access, session, type, range and state in turn. -/
def State.writeValue (s : State) (w : Writer) (o : ObjSpec) (v : ObjValue) : Nat × State :=
  match s.writeDenied w o, v with
  | some st, _ => (st, s)
  | none, .num ty n =>
    if ty.val ≠ o.type ∨ !isNumType o.type then (statusType, s)
    else if 256 ^ objTypeBytes o.type ≤ n ∨ !s.numOk o n then (statusRange, s)
    else s.applyNum w o.index o.sub n
  | none, .bytes ty b =>
    if ty.val ≠ o.type ∨ isNumType o.type then (statusType, s)
    else if !objLenOk o.check b.length then (statusRange, s)
    else s.applyBytes w o.index o.sub b

/-- A write to an index and subindex. -/
def State.writeObject (s : State) (w : Writer) (i sub : Nat) (v : ObjValue) : Nat × State :=
  match s.findObj i sub with
  | .error st => (st, s)
  | .ok o => s.writeValue w o v

/-- DEVICE_RESTART written with 1: the restart comes after the response (R602). -/
def asksRestart (i sub : Nat) (v : ObjValue) : Bool :=
  decide (i = 0x2022 ∧ sub = 2) && match v with
    | .num _ n => decide (n = 1)
    | .bytes _ _ => false

/-- What a write leaves to do once its response has been sent (R496, R602). -/
def State.afterWrite (s : State) (st i sub : Nat) (v : ObjValue) : State :=
  if st ≠ statusOk then s
  else if asksRestart i sub v then s.orderlyRestart
  else if i = 0x1010 ∧ (sub = 2 ∨ sub = 3 ∨ sub = 6) then
    s.modAgent (fun a => { a with
      addrInForce := if s.objNum 0x1010 2 = 1 ∨ s.objNum 0x1010 2 = 3 then s.staticAddr else if sub = 2 then 0 else a.addrInForce })
  else s

/-! ### Subscribed values (R510) -/

/-- A subscription looks at its object: a value other than the last one is a change, also where a later one changes it back. -/
def State.noteSub (s : State) (x : Subscription) : Subscription :=
  match s.findObj x.index x.sub with
  | .error _ => x
  | .ok o =>
    let v := s.objValue x.src o
    if v = x.lastValue then x else { x with lastValue := v, changed := true }

/-- Every subscription looks at its object: after each request and write, and with each crystal cycle. -/
def State.noteSubs (s : State) : State := s.modAgent (fun a => { a with subs := a.subs.map s.noteSub })

/-! ### Writes as commands -/

/-- The writer that a command of its own stands for: an accepted request of an open session. -/
def ownerWriter : Writer := { src := { addr := 0, port := 0 }, session := some 0 }

/-- A write as a command of its own, with its status kept. -/
def State.command (s : State) (i sub : Nat) (v : ObjValue) : State :=
  if s.agentUp then
    let r := s.writeObject ownerWriter i sub v
    ((r.2.modAgent (fun a => { a with lastStatus := r.1 })).afterWrite r.1 i sub v).noteSubs
  else s

/-- VCORE_SETPOINT_WRITE (R47, R48). -/
def execVcoreSetpointWrite (die : Fin 4) (mv : Nat) (s : State) : Out := .next (s.command 0x2010 (die.val + 1) (.num 2 mv))

/-- FENCE_REQUEST (R572). -/
def execFenceRequest (unit : BitVec 16) (s : State) : Out := .next (s.command 0x3003 3 (.num 2 unit.toNat))

/-- FENCE_CLEAR (R572). -/
def execFenceClear (unit : BitVec 16) (s : State) : Out := .next (s.command 0x3003 2 (.num 2 unit.toNat))

/-- RETIRE_REQUEST (R239, R242). -/
def execRetireRequest (addr : Nat) (s : State) : Out := .next (s.command 0x5021 1 (.num 4 addr))

/-- OBJECT_WRITE (R506). -/
def execObjectWrite (index : BitVec 16) (sub : Byte) (value : ObjValue) (s : State) : Out :=
  .next (s.command index.toNat sub.toNat value)

/-- RWS_FLASH_WRITE (R505): the value that an RWS object holds reaches the flash. -/
def execRwsFlashWrite (index : BitVec 16) (sub : Byte) (s : State) : Out :=
  let i := index.toNat
  let k := sub.toNat
  match objFind i k with
  | none => .next s
  | some o =>
    if o.access ≠ .rws ∨ objKeepsNothing i k ∨ !s.bedOn bedRot then .next s
    else if isNumType o.type then
      match tabFind s.objs.nums (objKey i k) with
      | some v => .next (s.modObjs (fun x => { x with flashNums := tabSet x.flashNums (objKey i k) v }))
      | none => .next s
    else match tabFind s.objs.blobs (objKey i k) with
      | some b => .next (s.modObjs (fun x => { x with flashBlobs := tabSet x.flashBlobs (objKey i k) b }))
      | none => .next s

/-- COUNTER_SNAPSHOT (R517). -/
def execCounterSnapshot (s : State) : Out := .next (if s.agentUp ∧ s.servesIndex 0x8010 then s.counterSnapshot else s)

/-- SNAP (R274): the register is reached while the unit's bed is on and its cluster not fenced (R33, R34). -/
def execSnap (unit : StallUnit) (s : State) : Out :=
  if s.clusterFenced (stallCluster unit) then .next s else .next (s.snapUnit unit)

end Sys2Proof.Machine
end

