-- ==== Sys2Proof/Machine/Breop.lean ====
section
/-! DEFINITION. Breop.lean: the operations of the management protocol (R498 to R512). -/

namespace Sys2Proof.Machine

/-! ### Requests (R500 to R503) -/

/-- A payload's fields: the address word's, and the second word. -/
structure BreopFields where
  index : Nat
  sub : Nat
  type : Nat
  high : Nat
  word1 : Nat
  reserved : Bool
  deriving DecidableEq, Repr

def breopFields (p : List Byte) : BreopFields :=
  let w := leNat (p.take 8)
  { index := bitsOf w 15 0, sub := bitsOf w 23 16, type := bitsOf w 27 24, high := bitsOf w 63 32,
    word1 := leNat ((p.drop 8).take 8), reserved := decide (bitsOf w 31 28 ≠ 0) }

/-- The address word of an answer: TYPE is the object's (R506). -/
def addressWord (o : ObjSpec) (high : Nat) : List Byte :=
  leBytes 8 (o.index + o.sub * 2 ^ 16 + o.type * 2 ^ 24 + high % 2 ^ 32 * 2 ^ 32)

/-- A value with its padding (R503). -/
def padded (b : List Byte) : List Byte := zeroFill (roundUp b.length 8) b

def allZero (b : List Byte) : Bool := b.all (fun x => decide (x = 0))

/-- The oldest admitted request, of the kind that the command serves, is executed and answered (R501), once those before it that are
answered at once have been. -/
def State.serve (s : State) (mine : BreopReq → Bool) (f : BreopReq → State → Nat × List Byte × State)
    (after : BreopReq → Nat → State → State) : State :=
  if !s.agentUp then s
  else
    let s := s.settleAgent
    match s.agent.requests with
    | [] => s
    | r :: rest =>
      if !mine r then s
      else
        let x := s.sessionOf r
        let (st, p, s) := f r ((s.modAgent (fun a => { a with requests := rest })).accept r)
        (after r st (s.answer ((respTo r st p).signed x))).noteSubs.settleAgent

def noAfter (_ : BreopReq) (_ : Nat) (s : State) : State := s

/-- The writer of a request. -/
def writerOf (r : BreopReq) : Writer := { src := r.src, session := if r.auth then some r.session else none }

/-! ### READ and WRITE (R506) -/

/-- An object that a request names by index, subindex and TYPE; TYPE 0x0 is for READ (R503). -/
def State.namedObj (s : State) (x : BreopFields) (any_ : Bool) : Except Nat ObjSpec :=
  match s.findObj x.index x.sub with
  | .error st => .error st
  | .ok o =>
    if !readable o then .error statusAccess
    else if x.type ≠ o.type ∧ ¬(any_ ∧ x.type = 0) then .error statusType
    else .ok o

def State.doRead (r : BreopReq) (s : State) : Nat × List Byte × State :=
  let x := breopFields r.payload
  if r.payload.length ≠ 8 ∨ x.reserved ∨ x.high ≠ 0 then (statusFormat, [], s)
  else match s.namedObj x true with
    | .error st => (st, [], s)
    | .ok o =>
      let t := s.beforeRead r.src o.index o.sub
      let v := t.objValue r.src o
      if 1024 < v.length then (statusLength, [], s) else (statusOk, addressWord o 0 ++ padded v, t)

/-- BREOP_READ (R506). -/
def execBreopRead (s : State) : Out := .next (s.serve (fun r => decide (r.op = 1)) State.doRead noAfter)

/-- The value that a WRITE carries; `none` where its length or padding does not fit its TYPE (R503). -/
def writtenValue (ty : Nat) (b : List Byte) : Option ObjValue :=
  if isNumType ty then
    let n := objTypeBytes ty
    if b.length = 8 ∧ allZero (b.drop n) then some (.num (fin16 ty) (leNat (b.take n))) else none
  else some (.bytes (fin16 ty) b)

def State.doWrite (r : BreopReq) (s : State) : Nat × List Byte × State :=
  let x := breopFields r.payload
  match writtenValue x.type (r.payload.drop 8) with
  | none => (statusFormat, [], s)
  | some v =>
    if r.payload.length < 8 ∨ x.reserved ∨ x.high ≠ 0 then (statusFormat, [], s)
    else if 1032 < r.payload.length then (statusLength, [], s)
    else
      let w := s.writeObject (writerOf r) x.index x.sub v
      (w.1, r.payload.take 8, w.2)

/-- What a WRITE leaves to do once it is answered. -/
def afterDoWrite (r : BreopReq) (st : Nat) (s : State) : State :=
  let x := breopFields r.payload
  match writtenValue x.type (r.payload.drop 8) with
  | none => s
  | some v => s.afterWrite st x.index x.sub v

/-- BREOP_WRITE (R506). -/
def execBreopWrite (s : State) : Out := .next (s.serve (fun r => decide (r.op = 2)) State.doWrite afterDoWrite)

/-! ### Blocks (R507, R508) -/

/-- The records of EVENT_RING that a BLOCK_READ returned whole (R515). -/
def Health.markRead (off n : Nat) (h : Health) : Health :=
  { h with ring := h.ring.map (fun x => (x.1, (x.2.1, x.2.2 || decide (off ≤ 32 * x.1 ∧ 32 * x.1 + 32 ≤ off + n)))) }

def State.doBlockRead (r : BreopReq) (s : State) : Nat × List Byte × State :=
  let x := breopFields r.payload
  let count := bitsOf x.word1 15 0
  if r.payload.length ≠ 16 ∨ x.reserved ∨ x.word1 / 65536 ≠ 0 then (statusFormat, [], s)
  else match s.namedObj x false with
    | .error st => (st, [], s)
    | .ok o =>
      if isNumType o.type then (statusType, [], s)
      else if count = 0 ∨ 1024 < count then (statusLength, [], s)
      else
        let t := if x.high = 0 then s.beforeRead r.src o.index o.sub else s
        let v := t.objValue r.src o
        if v.length < x.high then (statusLength, [], s)
        else
          let d := slice v x.high count
          let t := if o.index = 0x3001 ∧ o.sub = 2 then t.modHealth (Health.markRead x.high d.length) else t
          (statusOk, addressWord o x.high ++ leBytes 8 (d.length + v.length % 2 ^ 32 * 2 ^ 32) ++ padded d, t)

/-- BLOCK_READ (R507). -/
def execBlockRead (s : State) : Out := .next (s.serve (fun r => decide (r.op = 3)) State.doBlockRead noAfter)

/-- The staging of an object. -/
def State.stagingOf (s : State) (o : ObjSpec) : Option Staging :=
  s.agent.staging.find? (fun x => decide (x.index = o.index ∧ x.sub = o.sub))

def State.dropStaging (s : State) (o : ObjSpec) : State :=
  s.modAgent (fun a => { a with staging := a.staging.filter (fun x => decide (x.index ≠ o.index ∨ x.sub ≠ o.sub)) })

/-- A longest value that an object's table gives. -/
def objMaxLen (o : ObjSpec) : Option Nat :=
  match o.check with
  | .len n => some n
  | .maxLen n => some n
  | _ => none

/-- The bytes staged once a block has come: none where another holds the object (BUSY) or the offset does not follow. -/
def stageBlock (held : Option Staging) (w : Writer) (off : Nat) (d : List Byte) : Except Nat (List Byte) :=
  match held with
  | some g =>
    if g.src ≠ w.src ∨ g.session ≠ w.session.getD 0 then .error statusBusy
    else if off = 0 then .ok d
    else if off = g.bytes.length then .ok (g.bytes ++ d) else .error statusLength
  | none => if off = 0 then .ok d else .error statusLength

/-- A new image while one is checked (R528). -/
def State.imageBusy (s : State) (o : ObjSpec) (off : Nat) : Bool :=
  decide (o.index = 0x7004 ∧ o.sub = 1 ∧ off = 0 ∧ s.rot.fwStatus = 1)

/-- A block for an object that the requester may write. -/
def State.takeBlock (s : State) (w : Writer) (o : ObjSpec) (off total : Nat) (final : Bool) (d : List Byte) : Nat × State :=
  match stageBlock (s.stagingOf o) w off d with
  | .error st => (st, s)
  | .ok bs =>
    let s := s.dropStaging o
    if !final then
      let g : Staging :=
        { index := o.index, sub := o.sub, src := w.src, session := w.session.getD 0, bytes := bs, lastRtc := s.aon.rtc }
      (statusOk, s.modAgent (fun a => { a with staging := a.staging ++ [g] }))
    else if total ≠ bs.length then (statusLength, s)
    else s.writeValue w o (.bytes (fin16 o.type) bs)

def State.doBlockWrite (r : BreopReq) (s : State) : Nat × List Byte × State :=
  let x := breopFields r.payload
  let count := bitsOf x.word1 15 0
  let final := bitOf x.word1 16
  let total := bitsOf x.word1 63 32
  let d := slice r.payload 16 count
  let w := writerOf r
  if r.payload.length < 16 ∨ x.reserved ∨ bitsOf x.word1 31 17 ≠ 0 ∨ (!final ∧ total ≠ 0) then (statusFormat, [], s)
  else if count = 0 ∨ 1024 < count then (statusLength, [], s)
  else if r.payload.length ≠ 16 + roundUp count 8 ∨ !allZero (r.payload.drop (16 + count)) then (statusFormat, [], s)
  else match s.findObj x.index x.sub with
    | .error st => (st, [], s)
    | .ok o =>
      match s.writeDenied w o with
      | some st => (st, [], s)
      | none =>
        if isNumType o.type ∨ x.type ≠ o.type then (statusType, [], s)
        else if (objMaxLen o).any (fun n => decide (n < x.high + count)) then (statusLength, [], s)
        else if s.imageBusy o x.high then (statusState, [], s)
        else
          let y := s.takeBlock w o x.high total final d
          (y.1, r.payload.take 16, y.2)

/-- What a FINAL leaves to do once it is answered. -/
def afterBlockWrite (r : BreopReq) (st : Nat) (s : State) : State :=
  let x := breopFields r.payload
  if bitOf x.word1 16 then s.afterWrite st x.index x.sub (.bytes (fin16 x.type) []) else s

/-- BLOCK_WRITE (R507, R508). -/
def execBlockWrite (s : State) : Out := .next (s.serve (fun r => decide (r.op = 4)) State.doBlockWrite afterBlockWrite)

/-- STAGING_DISCARD (R508): the i-th staging has had no block for 1 s. -/
def execStagingDiscard (i : Nat) (s : State) : Out :=
  match s.agent.staging[i]? with
  | none => .next s
  | some g =>
    if 25000000 ≤ (s.aon.rtc - g.lastRtc).toNat then .next (s.modAgent (fun a => { a with staging := listDel a.staging i }))
    else .next s

/-! ### Subscriptions (R509, R510) -/

def isCancel (r : BreopReq) : Bool := decide (r.op = 5) && bitOf (breopFields r.payload).word1 0

/-- A subscription of a source to an object. -/
def subIs (r : BreopReq) (o : ObjSpec) (x : Subscription) : Bool :=
  decide (x.src = r.src ∧ x.index = o.index ∧ x.sub = o.sub)

/-- The next SUB_ID that no subscription holds. -/
def Agent.freeSubId (a : Agent) : Nat :=
  ((List.range 33).map (fun k => (a.nextSub + k) % 65536)).find? (fun n => !a.subs.any (fun x => decide (x.id = n))) |>.getD 0

/-- The answer to a SUBSCRIBE. -/
def subAnswer (r : BreopReq) (id lease : Nat) : List Byte := r.payload.take 8 ++ leBytes 8 (id + lease * 2 ^ 16)

/-- The request's fields are right, and the object can be subscribed to. -/
def State.subObj (s : State) (r : BreopReq) : Except Nat ObjSpec :=
  let x := breopFields r.payload
  if r.payload.length ≠ 16 ∨ x.reserved ∨ 2 ≤ x.word1 then .error statusFormat else s.namedObj x false

def State.doSubscribe (r : BreopReq) (s : State) : Nat × List Byte × State :=
  match s.subObj r with
  | .error st => (st, [], s)
  | .ok o =>
    let ms := if (breopFields r.payload).high = 0 then 10 else (breopFields r.payload).high
    let lease := s.objNum 0x1020 3
    let ses := if r.auth then some r.session else none
    match s.agent.subs.find? (subIs r o) with
    | some x =>
      (statusOk, subAnswer r x.id lease, s.modAgent (fun a => { a with
        subs := modFirst (subIs r o) (fun y => { y with intervalMs := ms, dest := r.dest, via := r.via, renewedRtc := s.aon.rtc, lease := lease })
          a.subs }))
    | none =>
      if 32 ≤ s.agent.subs.length then (statusSubFull, [], s)
      else
        let id := s.agent.freeSubId
        let y : Subscription :=
          { id := id, src := r.src, dest := r.dest, via := r.via, index := o.index, sub := o.sub, intervalMs := ms, session := ses, renewedRtc := s.aon.rtc,
            lease := lease, sentRtc := none, count := 0, lastValue := s.objValue r.src o, changed := false }
        (statusOk, subAnswer r id lease, s.modAgent (fun a => { a with subs := a.subs ++ [y], nextSub := (id + 1) % 65536 }))

/-- SUBSCRIBE (R509). -/
def execSubscribe (s : State) : Out := .next (s.serve (fun r => decide (r.op = 5) && !isCancel r) State.doSubscribe noAfter)

/-- CANCEL ends a subscription; one that is not held leaves nothing to end (log entry 33). -/
def State.doCancel (r : BreopReq) (s : State) : Nat × List Byte × State :=
  match s.subObj r with
  | .error st => (st, [], s)
  | .ok o =>
    match s.agent.subs.find? (subIs r o) with
    | none => (statusOk, subAnswer r 0 0, s)
    | some x => (statusOk, subAnswer r x.id 0, s.modAgent (fun a => { a with subs := delFirst (subIs r o) a.subs }))

/-- CANCEL (R509). -/
def execCancel (s : State) : Out := .next (s.serve isCancel State.doCancel noAfter)

/-- SUBSCRIPTION_LAPSE (R509): LEASE_S seconds after the last SUBSCRIBE. -/
def execSubscriptionLapse (i : Nat) (s : State) : Out :=
  match s.agent.subs[i]? with
  | none => .next s
  | some x =>
    if x.lease * 25000000 ≤ (s.aon.rtc - x.renewedRtc).toNat then
      .next (s.modAgent (fun a => { a with subs := listDel a.subs i }))
    else .next s

/-- A NOTIFY with a value (R510); SEQ in a session is a free value (log entry 34). -/
def State.notify (s : State) (i : Nat) (x : Subscription) (o : ObjSpec) (v : List Byte) : State :=
  let (w, s) := s.freshWord
  let auth := x.session.isSome
  let m : BreopResp :=
    { dst := x.src, sender := x.dest, via := x.via, op := 6, status := 0, reqId := (x.count + 1) % 2 ^ 32, session := x.session.getD 0,
      seq := if auth then w.toNat else 0, auth := auth,
      payload := addressWord o 0 ++ leBytes 8 (x.id + v.length % 2 ^ 32 * 2 ^ 32) ++ (if isNumType o.type then padded v else []),
      tag := [] }
  let ses := s.agent.sessions.find? (fun y => decide (some y.id = x.session))
  let x := { x with count := x.count + 1, sentRtc := some s.aon.rtc, lastValue := v, changed := false }
  (s.sendResp (m.signed ses)).modAgent (fun a => { a with subs := listSet a.subs i x })

/-- A subscription's interval has passed since its last NOTIFY. -/
def Subscription.due (x : Subscription) (rtc : Word) : Bool :=
  x.sentRtc.all (fun t => decide (x.intervalMs * 25000 ≤ (rtc - t).toNat))

/-- NOTIFY (R510): the i-th subscription's object has changed since its last NOTIFY, and its interval has passed. -/
def execNotify (i : Nat) (s : State) : Out :=
  let s := s.noteSubs
  match s.agent.subs[i]? with
  | none => .next s
  | some x =>
    match s.findObj x.index x.sub with
    | .error _ => .next s
    | .ok o =>
      let v := s.objValue x.src o
      if s.agentUp ∧ x.changed ∧ x.due s.aon.rtc then .next (s.notify i x o v) else .next s

end Sys2Proof.Machine
end

