-- ==== Sys2Proof/Machine/Regs.lean ====
section
/-! DEFINITION. Regs.lean: the register blocks read and written at their addresses (R7, R30 to R35, R54 to R56, R69, R114, R167,
R214, R215, R231, R246, R247, R273, R275, R276, R339, R340, R362, R389, R397, R430, R462, R463, R492, R493, R551, R606). -/

namespace Sys2Proof.Machine

/-! ### Words of a block -/

/-- The k-th of a run of counters that begins at `first`, 0 past its end. -/
def runAt (first : Nat) (ws : List Word) (off : Nat) : Nat :=
  if off < first then 0 else ((ws[(off - first) / 8]?).map (·.toNat)).getD 0

/-- Word j of record i in a ring of records of `n` words from `first`; `none` outside it. -/
def ringAt (first records n off : Nat) : Option (Nat × Nat) :=
  if first ≤ off ∧ off < first + records * n * 8 then some ((off - first) / (8 * n), (off - first) / 8 % n) else none

/-! ### FIFO pairs (R69) -/

/-- The FIFO instance n of a unit. -/
def fifoOf (u : RegUnit) (n : Nat) : Option FifoId :=
  match u with
  | .die d c =>
    let k := 3 * d.val + (c.val - 5)
    if c.val < 5 ∨ 7 < c.val ∨ 128 ≤ n then none
    else if n < 64 then some { kind := .hbmRead, idx := 64 * k + n } else some { kind := .hbmWrite, idx := 64 * k + (n - 64) }
  | .link l c =>
    if c < 8 then
      (if n = 0 then some { kind := .fabRx, idx := 8 * l.val + c } else if n = 1 then some { kind := .fabTx, idx := 8 * l.val + c }
       else none)
    else if c = 0x10 then
      (if n = 0 then some { kind := .hostRx, idx := l.val } else if n = 1 then some { kind := .hostTx, idx := l.val } else none)
    else if c = 0x11 then (if n = 0 then some { kind := .ingestRx, idx := l.val } else none)
    else if c = 0x14 then
      (if n < 8 then some { kind := .linkIn, idx := 8 * l.val + n }
       else if n < 16 then some { kind := .linkOut, idx := 8 * l.val + (n - 8) } else none)
    else if c = 0x23 then
      (if n = 0 then some { kind := .mgmtRx, idx := 0 } else if n = 1 then some { kind := .mgmtTx, idx := 0 } else none)
    else none
  | _ => none

/-- The FIFO register at an offset: the instance, and whether it is WM. -/
def fifoReg (u : RegUnit) (off : Nat) : Option (FifoId × Bool) :=
  if 0xF000 ≤ off ∧ off < 0xF800 then (fifoOf u ((off - 0xF000) / 16)).map (fun f => (f, decide (off % 16 = 0))) else none

/-! ### Core engines -/

/-- A stall-counter block (R273); `off` from its start. -/
def stallRead (x : Stall) (off : Nat) : Nat :=
  if off < 0x50 then runAt 0 x.counts.toList off
  else if off = 0x88 then x.snapTick.toNat
  else if 0x90 ≤ off ∧ off < 0xE0 then runAt 0x90 x.snapCounts.toList off
  else 0

def statCode : StatMode → Nat
  | .output => 0
  | .weight => 1
  | .input => 2

/-- STATE of a matrix engine (R339): FIRING, HELD, DRAINING or IDLE. -/
def State.matrixState (s : State) (n : Fin 256) : Nat :=
  let x := s.cores[n].mtx
  if s.matrixFires n then 1 else if x.nextHeld n s.cores[n].tbuf || x.nextWaits then 3 else if x.contexts ≠ 0 then 2 else 0

def State.matrixRead (s : State) (n : Fin 256) (off : Nat) : Nat :=
  let x := s.cores[n].mtx
  if off = 0 then s.matrixState n + x.contexts % 8 * 4 + statCode x.mode * 2 ^ 8
  else runAt 8 [x.firings, x.ballastFirings, x.passes, x.skipped, x.hazardHolds, x.usefulMacs, x.capacityMacs, x.sparsePasses,
    x.expandedPasses, x.blocksFired, x.metaBytes, x.sparseFaults] off

/-- TB_STATUS and the buffer's counters (R340). -/
def tbufRead (x : TransBuf) (off : Nat) : Nat :=
  if off = 0 then (x.panels.toList.filter (·.isSome)).length + 8 * b2n x.rowbuf
  else runAt 8 [x.elemsConverted, x.elemsLimited, x.nanBlocks, x.bytesRead] off

/-- STATE of a vector or row engine. -/
def State.engineState (s : State) (n : Fin 256) (q : QueueId) : Nat :=
  let g := clusterOfCore n
  match s.activeDesc g q with
  | some r =>
    let waits := match q with
      | .vector _ => ((decide (r.q.desc.opcode = 1) && r.q.desc.bit 4 63) || decide (r.q.desc.opcode = 2)) &&
          s.cores[n].vec.ftq.isEmpty
      | _ => false
    if waits then 2 else 1
  | none => if s.clusters[g].waitsSummary q then 3 else 0

def State.vecRead (s : State) (n : Fin 256) (off : Nat) : Nat :=
  let x := s.cores[n].vec
  if off = 0 then s.engineState n (.vector (coreK n)) + x.ftqSlots % 8 * 2 ^ 8 + x.ftq.length % 8 * 2 ^ 12
  else if off = 8 then ((x.ftq.head?).map (·.h0.toNat)).getD 0
  else if off = 0x10 then ((x.ftq.head?).map (·.h1.toNat)).getD 0
  else runAt 0x18 [x.elements, x.tilesConsumed, x.tilesDropped, x.summaries, x.nonfinite, x.limited, x.tilesLost] off

def State.rowRead (s : State) (n : Fin 256) (off : Nat) : Nat :=
  let x := s.cores[n].row
  if off = 0 then s.engineState n (.row (coreK n))
  else runAt 8 [x.rowsDone, x.elements, x.emptyRows, x.summaries, x.nonfinite] off

def State.xferRead (s : State) (n : Fin 256) (off : Nat) : Nat :=
  let x := s.cores[n].xfer
  if off = 0 then b2n (s.activeDesc (clusterOfCore n) (.transfer (coreK n))).isSome + x.readsOut % 128 * 2
  else runAt 8 [x.bytesRead, x.bytesWritten] off

/-- Threads with work left (R275). -/
def ThreadJob.active (j : ThreadJob) : Nat :=
  ((List.range j.next.length).map (fun t =>
    if (j.nextOf t).isSome || j.inFlight.any (fun e => decide (e.thread = t)) then 2 ^ t else 0)).sum

def thrRead (x : ThreadUnit) (off : Nat) : Nat :=
  if off = 0 then
    ((x.job.map (·.active)).getD 0) % 65536 + x.heldCap.toNat * 2 ^ 16 + ((x.job.map (fun j => j.claimed.length)).getD 0) % 256 * 2 ^ 32
  else if off = 8 then x.cap % 256
  else if off = 0x20 then x.slotPeak % 256
  else runAt 0x10 [x.entries, x.capHolds] off

def State.engineRead (s : State) (n : Fin 256) (e : Fin 6) (off : Nat) : Nat :=
  if 0xE000 ≤ off then stallRead s.cores[n].stalls[e] (off - 0xE000)
  else match e with
    | 0 => s.matrixRead n off
    | 1 => tbufRead s.cores[n].tbuf off
    | 2 => s.vecRead n off
    | 3 => s.rowRead n off
    | 4 => s.xferRead n off
    | 5 => thrRead s.cores[n].thr off

/-! ### Cluster units -/

def seqStateCode : SeqState → Nat
  | .halted => 0
  | .running => 1
  | .waitCredit => 2
  | .waitToken => 3
  | .waitSeason => 4
  | .waitSummary => 5
  | .faulted => 6

def Stamp.word (x : Stamp) : Nat → Nat
  | 0 => x.season
  | 1 => x.arriveTick.toNat
  | 2 => x.advanceTick.toNat
  | _ => b2n x.held

def LaunchEntry.word (x : LaunchEntry) : Nat → Nat
  | 0 => x.w0.toNat
  | 1 => x.w1.toNat
  | 2 => x.w2.toNat
  | _ => x.w3.toNat

def Token.word (x : Token) : Nat := x.even.toNat + x.odd.toNat * 2 ^ 8 + x.expect.toNat * 2 ^ 16

/-- The sequencer block (R114). -/
def seqRead (c : Cluster) (off : Nat) : Nat :=
  if off = 0 then seqStateCode c.seq.state + c.seq.pc % 2048 * 2 ^ 16
  else if off = 8 then c.season
  else if off = 0x10 then c.seasonLimit
  else if off = 0x18 then c.stampHead % 256
  else if off = 0x20 then c.latePosts.toNat + c.aheadPosts.toNat * 2 ^ 16 + c.droppedPosts.toNat * 2 ^ 32
  else if off = 0x28 then c.summaries.length
  else match ringAt 0x8000 256 4 off, ringAt 0x20000 256 4 off with
    | some (i, j), _ => ((tabFind c.stamps i).map (fun x => x.word j)).getD 0
    | none, some (i, j) => ((tabFind c.launch i).map (fun x => x.word j)).getD 0
    | none, none =>
      if 0x10000 ≤ off ∧ off < 0x18000 then (c.token ((off - 0x10000) / 8)).word
      else if 0x40000 ≤ off ∧ off < 0x44000 then (tabGet c.seq.imem 0 ((off - 0x40000) / 8)).toNat
      else 0

/-- STATE of Harrow (R167). -/
def State.harrowState (s : State) (g : Fin 32) : Nat :=
  let h := s.clusters[g].harrow
  match h.job with
  | some j =>
    match j.pieces with
    | p :: _ => if ringFree h j.outLog2 < p.bytes.length then 2 else 1
    | [] => 1
  | none =>
    if (s.activeOp g .harrow 1).isSome then 1
    else if (s.headDesc g .harrow).any (fun d => specWaits s.clusters[g] .harrow d.desc) then 3 else 0

def State.harrowRead (s : State) (g : Fin 32) (off : Nat) : Nat :=
  let h := s.clusters[g].harrow
  if off = 0 then s.harrowState g + h.curMb.toNat * 2 ^ 16 + h.curPiece.toNat * 2 ^ 32
  else if off = 8 then h.consumed.toNat
  else if off = 0x10 then h.produced.toNat
  else if off = 0x18 then h.specTemplate.toNat
  else runAt 0x20 [h.expansions, h.edgesEmitted, h.pieces, h.contPieces, h.haloNodes, h.shortDraws, h.specIssued, h.specConfirmed,
    h.specDiscarded, h.topoHits, h.topoMisses] off

def State.rakeRead (s : State) (g : Fin 32) (off : Nat) : Nat :=
  let x := s.clusters[g].rake
  if off = 0 then (s.stagingUsed g).1 % 128
  else runAt 8 [x.rowsGathered, x.bagsPooled, x.rowsCoalesced, x.clocheHits, x.clocheMisses, x.staleRefills, x.specStaged,
    x.specNofit, x.specRefetched, x.forwarded] off

def sprinklerRead (x : Sprinkler) (off : Nat) : Nat :=
  if off = 0 then
    b2n x.free + (x.parts.filter (fun p => decide (p.place = .hot))).length % 32 * 2 + inBuffer x.parts % 8192 * 2 ^ 6
  else runAt 8 [x.contributions, x.partialsSent, x.spills, x.hotDiverts, x.clamped] off

def trimStateCode : TrimState → Nat
  | .untrimmed => 0
  | .trimming => 1
  | .locked => 2
  | .failed => 3

/-- The oscillator block (R55). -/
def oscRead (o : Osc) (off : Nat) : Nat :=
  if off = 0 then o.tick.toNat
  else if off = 8 then o.trimCode.toNat
  else if off = 0x10 then trimStateCode o.trimState + o.error.toNat * 2 ^ 16
  else if off = 0x18 then o.anchorTick.toNat
  else if off = 0x20 then o.anchorRtc.toNat
  else if off = 0x28 then o.rateMon.toNat
  else 0

def State.clusterRead (s : State) (g : Fin 32) (u : Fin 9) (off : Nat) : Nat :=
  if h : 0x7E000 ≤ off ∧ u.val < 4 then stallRead s.clusters[g].stalls[u.val] (off - 0x7E000)
  else match u with
    | 0 => seqRead s.clusters[g] off
    | 1 => s.harrowRead g off
    | 2 => s.rakeRead g off
    | 3 => sprinklerRead s.clusters[g].sprinkler off
    | 7 => oscRead s.clusters[g].osc off
    | _ => 0

/-! ### Die units -/

def trellisRead (d : Die) (off : Nat) : Nat :=
  if off = 0xF8 then d.trellisSeed.toNat
  else if 0x100 ≤ off ∧ off < 0x180 then (d.ticketsOf ((off - 0x100) / 8)).toNat
  else 0

def updStateCode : UpdState → Nat
  | .idle => 0
  | .updating => 1
  | .updated => 2
  | .rerun => 3
  | .committing => 4
  | .committed => 5

def decisionCode : StepDecision → Nat
  | .none => 0
  | .take => 1
  | .clip => 2
  | .skip => 3

def groupKindCode : GroupKind → Nat
  | .factored => 0
  | .unfactored => 1
  | .embedding => 2

/-- A word of a group descriptor (R400). -/
def groupWord (g : GroupDesc) : Nat → Nat
  | 0 => g.recBase % 2 ^ 48 + groupKindCode g.kind * 2 ^ 48 + b2n g.valid * 2 ^ 50 + b2n g.masked * 2 ^ 51 + b2n g.rowSr * 2 ^ 52
  | 1 => g.rows % 2 ^ 32 + g.cols % 2 ^ 32 * 2 ^ 32
  | 2 => g.ownFirst % 2 ^ 32 + g.ownCount % 2 ^ 32 * 2 ^ 32
  | 3 => g.gradAddr % 2 ^ 48
  | 4 => g.beta1.toNat + g.beta2.toNat * 2 ^ 32
  | 5 => g.gamma.toNat + g.eps.toNat * 2 ^ 32
  | 6 => g.lambda.toNat + g.lrMult.toNat * 2 ^ 32
  | _ => g.replicaAddr % 2 ^ 48 + g.replicaFmt % 16 * 2 ^ 48

/-- A word of a STEP_LOG entry (R430). -/
def StepLog.word (x : StepLog) : Nat → Nat
  | 0 => x.t.toNat + decisionCode x.decision * 2 ^ 32 + b2n x.skew * 2 ^ 34
  | 1 => x.norm.toNat + x.c.toNat * 2 ^ 32
  | 2 => x.rtcStart.toNat
  | _ => x.rtcAdvance.toNat

/-- The update unit's block (R430). -/
def updRegs (groups : Tab GroupDesc) (u : UpdateUnit) (off : Nat) : Nat :=
  if off = 0 then updStateCode u.state + decisionCode u.decision * 2 ^ 4 + b2n u.epoch * 2 ^ 8
  else if off = 8 then u.stepNumber.toNat
  else if off = 0x10 then u.stepT.toNat
  else if off = 0x18 then u.voteSum.toNat + u.voteOr * 2 ^ 32
  else if off = 0x20 then u.norm.toNat + u.c.toNat * 2 ^ 32
  else if off = 0x28 then u.lossScaleCur.toNat
  else if off < 0x88 then
    runAt 0x30 [u.stepsTaken, u.stepsClipped, u.stepsSkipped, u.committedRecords, u.committedRows, u.stepSkewRecords, u.nonfinite,
      u.invalid, u.shadowWritten, u.shadowDiscarded, u.shadowRowsDiscarded] off
  else if 0x100 ≤ off ∧ off < 0x120 then
    (((u.colReady.filter (fun g => decide (g / 64 = (off - 0x100) / 8))).eraseDups.map (fun g => 2 ^ (g % 64))).sum)
  else if off = 0x20800 then u.stepLogHead % 64
  else match ringAt 0x10000 256 8 off, ringAt 0x20000 64 4 off with
    | some (i, j), _ => ((tabFind groups i).map (fun x => groupWord x j)).getD 0
    | none, some (i, j) => ((tabFind u.stepLog i).map (fun x => x.word j)).getD 0
    | none, none => 0

/-- STATE of a stack (R246). -/
def State.stackStateCode (s : State) (k : Fin 12) : Nat :=
  if s.stackFenced k then 3 else match s.hbm[k].state with
    | .off => 0
    | .training => 1
    | .ready => 2

/-- The base die's block (R246). -/
def State.stackRead (s : State) (k : Fin 12) (off : Nat) : Nat :=
  let x := s.hbm[k]
  if off = 0 then s.stackStateCode k + x.fencedReq.toNat * 2 ^ 8 + x.retired.length % 2048 * 2 ^ 16
  else if off = 8 then x.lfsrSeed.toNat
  else if off < 0x30 then runAt 0x10 [x.ceCount, x.ueCount, x.wdBites, x.rowSlots] off
  else if off = 0x30 then b2n x.jobKey
  else if 0x1000 ≤ off ∧ off < 0x1200 then (x.ticketsOf ((off - 0x1000) / 8)).toNat
  else if 0x2000 ≤ off ∧ off < 0x2040 then runAt 0x2000 x.grants.toList off
  else match ringAt 0x8000 1024 2 off with
    | some (i, j) => ((x.retired[i]?).map (fun e => leNat (slice (x.retiredBytes e) (8 * j) 8))).getD 0
    | none => 0

def State.dieRead (s : State) (d : Fin 4) (u : Fin 9) (off : Nat) : Nat :=
  if u.val = 0 then trellisRead s.dies[d] off
  else if u.val = 4 then updRegs s.job.groups s.dies[d].upd off
  else if 5 ≤ u.val ∧ u.val ≤ 7 then s.stackRead (fin12 (3 * d.val + (u.val - 5))) off
  else 0

/-! ### Link-die units -/

def portStateCode : PortState → Nat
  | .off => 0
  | .training => 1
  | .keying => 2
  | .up => 3
  | .down => 4
  | .miswired => 5

/-- A fabric port's block (R462). -/
def portRead (x : Port) (off : Nat) : Nat :=
  if off = 0 then
    portStateCode x.state + x.lanesUp.toNat * 2 ^ 8 + x.width % 16 * 2 ^ 16 + x.role % 16 * 2 ^ 24 + x.peerDev % 2 ^ 15 * 2 ^ 32 +
      x.peerPort % 16 * 2 ^ 48
  else if off = 0xF8 then x.egressSeed.toNat
  else if off = 0x100 then x.egressTickets.toNat
  else if off = 0x108 then x.egressTickets8.toNat
  else runAt 8 [x.flitsTx, x.flitsRx, x.replays, x.tagFails, x.fecCorrected, x.fecUncorrected, x.widthChanges, x.txCount] off

/-- The pool's block (R463). -/
def poolRead (x : Pool) (off : Nat) : Nat :=
  if off = 0 then poolCells - vectorSum x.used
  else if off < 0x50 then x.used[fin9 ((off - 8) / 8)] + x.peak[fin9 ((off - 8) / 8)] * 2 ^ 32
  else runAt 0x100 [x.e2eRetransmits, x.duplicates, x.reseqHeld, x.reseqDropped, x.crossings, x.unreachable] off

/-- The link-die egress arbiter's block (R231). -/
def egressRead (x : Pool) (off : Nat) : Nat :=
  if off = 0xF8 then x.egressSeed.toNat
  else if off = 0x100 then x.egressTickets.toNat
  else if off = 0x108 then x.egressTickets8.toNat
  else 0

/-- The host port's block (R492). -/
def hostRead (x : HostPort) (off : Nat) : Nat :=
  if off = 0 then
    maskOf 4 (fun i => x.subs[fin4 i].link) + x.breakout % 4 * 2 ^ 4 + maskOf 4 (fun i => x.subs[fin4 i].keyed) * 2 ^ 6 +
      (x.qps.filter (fun q => q.2.error)).length % 512 * 2 ^ 16
  else if 0x1000 ≤ off ∧ off < 0x1800 then ((tabFind x.qps ((off - 0x1000) / 8)).map (fun q => q.consumed.toNat)).getD 0
  else runAt 8 [x.framesRx, x.framesTx, x.fcsErrors, x.pfcTx, x.pfcRx, x.macsecDrops, x.prioDrops, x.accessNaks, x.rnrNaks] off

/-- STATE of an ingest engine (R493): WAIT_RING while the next record finds no room, DRAINING while an epoch's records leave,
DECODING while it has shards, IDLE. -/
def Ingest.stateCode (x : Ingest) : Nat :=
  match x.emitQ, x.cfg with
  | (r, _) :: _, some c =>
    if x.free c < ((ringPieces c x.outProduced.toNat r).map (fun p => p.2.length)).sum then 3
    else if x.slots.isEmpty ∧ shuffleSlots c ≠ 0 then 2 else 1
  | _, _ => if x.ready.isEmpty ∧ x.decoded.isEmpty then 0 else 1

/-- The ingest engine's block (R493). -/
def ingestRead (x : Ingest) (off : Nat) : Nat :=
  if off = 0 then x.stateCode + x.early.length % 128 * 4
  else if off = 8 then x.nextSeq.toNat
  else if off = 0x10 then x.epoch.toNat + x.slots.length % 2 ^ 32 * 2 ^ 32
  else runAt 0x18 [x.outConsumed, x.outProduced, x.shardsDone, x.shardsFaulted, x.bytesIn, x.bytesDecoded, x.recordsAdmitted,
    x.recordsEmitted] off

/-- ROT_STATUS (R551). -/
def State.rotRead (s : State) (off : Nat) : Nat :=
  if off = 0 then
    s.rot.stage % 8 + b2n s.rot.slot * 2 ^ 3 + b2n s.rot.recovery * 2 ^ 4 + b2n (decide (s.rot.debugState ≠ 0)) * 2 ^ 5 +
      b2n s.job.memKey.isSome * 2 ^ 6 + b2n (!s.ownerKeys.isEmpty) * 2 ^ 7 + s.agent.sessions.length % 8 * 2 ^ 8
  else 0

/-- The always-on block (R606). -/
def State.aonRead (s : State) (off : Nat) : Nat :=
  let a := s.aon
  if off = 0 then a.rtc.toNat
  else if off = 8 then
    b2n a.vinOk + b2n a.stbyOk * 2 + b2n a.xtalOk * 4 + b2n a.wakeSeen * 8 + b2n a.shut * 16 + a.therm.toNat * 2 ^ 8
  else if off = 0x10 then a.resetWord
  else if off = 0x18 then a.vinMv % 65536 + a.stbyMv % 65536 * 2 ^ 16
  else if h : 0x100 ≤ off ∧ off < 0x2F0 then
    let b : Fin 62 := ⟨(off - 0x100) / 8, by omega⟩
    s.bedState b + b2n s.beds[b].target * 8 + s.beds[b].transitions * 2 ^ 8
  else 0

def State.linkRead (s : State) (l : Fin 2) (u off : Nat) : Nat :=
  if u < 8 then portRead s.ports[fin16 (8 * l.val + u)] off
  else match u with
    | 0x10 => hostRead s.hosts[l] off
    | 0x11 => ingestRead s.ingests[l] off
    | 0x12 => poolRead s.pools[l] off
    | 0x13 => egressRead s.pools[l] off
    | 0x20 => s.rotRead off
    | 0x21 => s.aonRead off
    | _ => 0

/-! ### Reads (R31, R32) -/

/-- The 8-byte word at an offset of a block; unassigned offsets read as zero. -/
def State.regWord (s : State) (u : RegUnit) (off : Nat) : Nat :=
  match fifoReg u off with
  | some (f, wm) => if wm then fifoWm (s.fifo f) else fifoStatus (s.fifo f)
  | none => match u with
    | .engine n e => s.engineRead n e off
    | .cluster g x => s.clusterRead g x off
    | .die d x => s.dieRead d x off
    | .link l x => s.linkRead l x off

/-- A read of 4 or 8 bytes at a register address. -/
def State.regRead (s : State) (a n : Nat) : Nat :=
  match regUnitOf a with
  | none => 0
  | some (u, off) => s.regWord u (off / 8 * 8) / 2 ^ (8 * (off % 8)) % 2 ^ (8 * n)

/-! ### Writes (R7, R32) -/

/-- A write of an arbiter's byte T8 (R231, R462). -/
def State.tickets8 (s : State) (u : RegUnit) (v : Byte) : State :=
  match u with
  | .link l c =>
    if c < 8 then s.modPort (fin16 (8 * l.val + c)) (fun x => { x with egressTickets8 := v })
    else s.modPool l (fun x => { x with egressTickets8 := v })
  | _ => s

/-- A seed written at a fabric port or a link-die egress arbiter (R231, R462). -/
def State.egressSeed (s : State) (u : RegUnit) (v : BitVec 16) : State :=
  match u with
  | .link l c =>
    if c < 8 then
      s.modPort (fin16 (8 * l.val + c)) (fun x => { x with egressSeed := v, arbs := reloadArbs v (fun n => n) x.arbs })
    else s.modPool l (fun x => { x with egressSeed := v, egressArbs := reloadArbs v (fun n => n) x.egressArbs })
  | _ => s

/-- A seed written at a Trellis; an arbiter's number is 16 × stop + 4 × output + VC (R231). -/
def State.trellisSeed (s : State) (d : Fin 4) (v : BitVec 16) : State :=
  s.modDie d (fun x => { x with trellisSeed := v, trellisArbs := reloadArbs v (fun k => 16 * (k / 32) + k % 32) x.trellisArbs })

/-- A write of a cluster unit's register; `low` says that bits [31:0] are written. -/
def State.clusterWrite (s : State) (g : Fin 32) (u : Fin 9) (off : Nat) (v : Word) (low : Bool) : State :=
  if h : off = 0x7E080 ∧ u.val < 4 then (if low ∧ v.getLsbD 0 then s.snapUnit (.unit g ⟨u.val, h.2⟩) else s)
  else if u.val = 1 ∧ off = 8 then (if low then s.ringWrite g (v.setWidth 32) else s)
  else if u.val = 1 ∧ off = 0x18 then s.modHarrow g (fun x => { x with specTemplate := v.setWidth 48 })
  else if u.val = 7 ∧ off = 8 then (if low ∧ v.getLsbD 31 then trimRequest g s else s)
  else s

def State.dieWrite (s : State) (d : Fin 4) (u : Fin 9) (off : Nat) (v : Word) (low : Bool) : State :=
  if u.val = 0 then
    if off = 0xF8 then (if low then s.trellisSeed d (v.setWidth 16) else s)
    else if 0x100 ≤ off ∧ off < 0x180 then s.ticketsWrite (.trellis d (fin16 ((off - 0x100) / 8)) 0 0) v
    else s
  else if 5 ≤ u.val ∧ u.val ≤ 7 then
    let k := fin12 (3 * d.val + (u.val - 5))
    if off = 8 then (if low then s.seedWrite k (v.setWidth 16) else s)
    else if 0x1000 ≤ off ∧ off < 0x1200 then s.ticketsWrite (.channel k (Fin.ofNat 64 ((off - 0x1000) / 8))) v
    else s
  else s

def State.linkWrite (s : State) (l : Fin 2) (u off : Nat) (v : Word) (low : Bool) : State :=
  if u < 8 ∨ u = 0x13 then
    if off = 0xF8 then (if low then s.egressSeed (.link l u) (v.setWidth 16) else s)
    else if off = 0x100 then s.ticketsWrite (if u < 8 then .port (fin16 (8 * l.val + u)) 0 else .egress l 0 0) v
    else if off = 0x108 then (if low then s.tickets8 (.link l u) (v.setWidth 8) else s)
    else s
  else if u = 0x10 ∧ 0x1000 ≤ off ∧ off < 0x1800 then (if low then s.recvWrite l ((off - 0x1000) / 8) (v.setWidth 32) else s)
  else if u = 0x11 ∧ off = 0x18 then s.outWrite l v
  else s

/-- A write of the 8-byte word at an offset of a block; read-only and unassigned offsets keep what they hold. -/
def State.regWordWrite (s : State) (u : RegUnit) (off : Nat) (v : Word) (low : Bool) : State :=
  match fifoReg u off with
  | some (f, wm) => if wm ∧ low then s.writeWm f (v.toNat % 2 ^ 32) else s
  | none => match u with
    | .engine n e => if off = 0xE080 ∧ low ∧ v.getLsbD 0 then s.snapUnit (.engine n e) else s
    | .cluster g x => s.clusterWrite g x off v low
    | .die d x => s.dieWrite d x off v low
    | .link l x => s.linkWrite l x off v low

/-- A write of 4 or 8 bytes at a register address; a half keeps the register's other half. -/
def State.regWrite (s : State) (a n v : Nat) : State :=
  match regUnitOf a with
  | none => s
  | some (u, off) =>
    let off8 := off / 8 * 8
    let old := s.regWord u off8
    let low := decide (off % 8 = 0)
    let w := if n = 8 then v
      else if low then v % 2 ^ 32 + old / 2 ^ 32 * 2 ^ 32
      else old % 2 ^ 32 + v % 2 ^ 32 * 2 ^ 32
    s.regWordWrite u off8 (BitVec.ofNat 64 w) low

/-- REGISTER_WRITE (R7, R31 to R34): a write that R31 to R34 refuse is not performed, and its event is raised at the agent
(DESIGN CHOICE, log entry 47: the command names no issuer). -/
def execRegisterWrite (addr : BitVec 48) (value : Word) (wide : Bool) (s : State) : Out :=
  let a := addr.toNat
  let n := if wide then 8 else 4
  if a < unitBase then .next s
  else match s.accessFail .any a n with
    | none => .next (s.regWrite a n value.toNat)
    | some f => .next (s.raiseD uidAgent f.code f.arg0 f.arg1 0)

end Sys2Proof.Machine
end

