-- ==== Sys2Proof/Machine/RowEng.lean ====
section
/-! DEFINITION. RowEng.lean: the row engine (R391 to R396): normalisations and soft-maximum, forward and backward. -/

namespace Sys2Proof.Machine

/-! ### Fields and roles (R391, R392) -/

/-- What an operand slot is for an opcode: reserved, a FULL input or output, an optional COL input, an optional COL
accumulator in FP32, or a ROW output in FP32. -/
inductive RowRole where
  | absent | full | fullOut | colOpt | accOpt | rowOut
  deriving DecidableEq, Repr

/-- R392. -/
def rowRoles (opcode : Nat) : List RowRole :=
  match opcode with
  | 1 => [.full, .fullOut, .colOpt, .colOpt, .absent, .absent]
  | 2 => [.full, .full, .colOpt, .fullOut, .accOpt, .accOpt]
  | 3 => [.full, .fullOut, .absent, .absent, .absent, .absent]
  | 4 => [.full, .full, .absent, .fullOut, .absent, .absent]
  | _ => [.full, .rowOut, .absent, .absent, .absent, .absent]

structure RowOperand where
  loc : Nat
  fmt : Nat
  role : RowRole
  deriving DecidableEq, Repr

structure RowCtl where
  opcode : Nat
  ops : List RowOperand
  rows : Nat
  cols : Nat
  ld : Nat
  arith : Nat
  rms : Bool
  mask : Bool
  summary : Bool
  stat : Nat
  mloc : Nat
  eps : U32
  scale : U32
  deriving DecidableEq, Repr

/-- Byte offset of the word that holds operand i, and its half's first bit. -/
def rowSlot (i : Nat) : Nat × Nat := (if i < 4 then 2 + i / 2 else 7, i % 2 * 32)

def rowCtl (d : Desc) : RowCtl :=
  let op (i : Nat) (role : RowRole) : RowOperand :=
    let (w, b) := rowSlot i
    { loc := d.bits w (b + 25) b, fmt := d.bits w (b + 29) (b + 26), role := role }
  { opcode := d.opcode, ops := (rowRoles d.opcode).mapIdx op, rows := d.bits 4 15 0, cols := d.bits 4 31 16,
    ld := d.bits 4 47 32, arith := d.bits 4 51 48, rms := d.bit 4 52, mask := d.bit 4 53, summary := d.bit 4 54,
    stat := d.bits 5 15 0, mloc := d.bits 5 57 32, eps := BitVec.ofNat 32 (d.bits 6 31 0),
    scale := BitVec.ofNat 32 (d.bits 6 63 32) }

def RowCtl.isNorm (c : RowCtl) : Bool := decide (c.opcode = 1 ∨ c.opcode = 2)
def RowCtl.forward (c : RowCtl) : Bool := decide (c.opcode = 1 ∨ c.opcode = 3 ∨ c.opcode = 5)
def RowCtl.op (c : RowCtl) (i : Nat) : RowOperand := c.ops.getD i { loc := 0, fmt := 0, role := .absent }

/-- Reserved fields (R391, R392). -/
def rowSpans (c : RowCtl) : List Span :=
  [(2, 31, 30), (2, 63, 62), (3, 31, 30), (3, 63, 62), (7, 31, 30), (7, 63, 62), (4, 63, 55), (5, 31, 16), (5, 63, 58)] ++
  (if c.isNorm then [(6, 63, 32)] else [(4, 52, 52), (6, 31, 0)]) ++
  (if c.mask then [] else [(5, 57, 32)]) ++
  (c.ops.mapIdx (fun i o =>
    let (w, b) := rowSlot i
    if o.role = .absent then [(w, b + 29, b)] else if o.fmt = 0 then [(w, b + 25, b)] else [])).flatten

/-- A format code that a role does not take. -/
def rowFmtBad (o : RowOperand) : Bool :=
  match o.role with
  | .absent => false
  | .full => decide (o.fmt = 0 ∨ 3 < o.fmt)
  | .fullOut => decide (o.fmt = 0 ∨ 3 < o.fmt)
  | .colOpt => decide (3 < o.fmt)
  | .accOpt => decide (1 < o.fmt)
  | .rowOut => decide (o.fmt ≠ 1)

/-- Check 1 of R388 with these roles, and R393. -/
def rowBad (d : Desc) (c : RowCtl) : Option Nat :=
  minBad (spansBad (descWords d) (rowSpans c) ++
    c.ops.mapIdx (fun i o => (rowFmtBad o, (rowSlot i).1 * 8 + (rowSlot i).2 / 8 + 3)) ++
    c.ops.mapIdx (fun i o => (decide (o.loc % 64 ≠ 0), (rowSlot i).1 * 8 + (rowSlot i).2 / 8)) ++
    [(decide (c.rows = 0), 32), (decide (c.cols = 0), 34), (decide (c.ld < c.cols), 36), (arithBad c.arith, 38),
     (decide (c.stat % 8 ≠ 0 ∨ 0x10000 < c.stat + 8 * c.rows), 40), (c.mask && decide (c.mloc % 64 ≠ 0), 44)])

/-- The bytes of an operand in memory; 0 for an absent one. -/
def rowOperandBytes (c : RowCtl) (o : RowOperand) : Nat :=
  if o.fmt = 0 then 0
  else
    let n := match o.role with
      | .full => (c.rows - 1) * c.ld + c.cols
      | .fullOut => (c.rows - 1) * c.ld + c.cols
      | .rowOut => c.rows
      | _ => c.cols
    fmtBytes (srcFmt o.fmt) n

/-- Extents by name: operands 0 to 5, 6 the mask, 7 the records. -/
def rowExtents (c : RowCtl) : List (Nat × Nat × Nat × Nat) :=
  (c.ops.mapIdx (fun i o => (i, o.loc, 0, rowOperandBytes c o))).filter (fun e => decide (e.2.2.2 ≠ 0)) ++
  (if c.mask then [(6, c.mloc, 0, c.rows * 4 * cdiv c.cols 32)] else []) ++
  [(7, 0x280000, c.stat, 8 * c.rows)]

def rowIsWritten (c : RowCtl) (name : Nat) : Bool :=
  if name = 7 then c.forward
  else match (c.op name).role with
    | .fullOut => decide (name < 6)
    | .accOpt => decide (name < 6)
    | .rowOut => decide (name < 6)
    | _ => false

def rowIsRead (c : RowCtl) (name : Nat) : Bool :=
  if name = 7 then !c.forward
  else if name = 6 then true
  else match (c.op name).role with
    | .full => true
    | .colOpt => true
    | .accOpt => true
    | _ => false

/-- The field of a written extent that meets a read one (check 4 of R388). -/
def rowOverlap (c : RowCtl) (ps : List (Nat × Nat × Nat)) : Option Nat :=
  let same (w r : Nat) : Bool := decide (w < 6 ∧ r < 6) && decide ((c.op w).role = .fullOut ∧ (c.op r).role = .full) &&
    decide ((c.op w).loc = (c.op r).loc ∧ (c.op w).fmt = (c.op r).fmt)
  firstSome (fun w =>
    if ps.any (fun r => decide (r.1 ≠ w.1) && rowIsRead c r.1 && !same w.1 r.1 && overlap w.2.1 w.2.2 r.2.1 r.2.2)
    then some (if w.1 = 7 then 40 else (rowSlot w.1).1 * 8 + (rowSlot w.1).2 / 8) else none)
    (ps.filter (fun p => rowIsWritten c p.1))

def State.rowCheck (s : State) (n : Fin 256) (q : QDesc) (c : RowCtl) : Except Fail (List (Nat × Nat × Nat)) :=
  match rowBad q.desc c with
  | some o => .error (failFormat q.addr o)
  | none => match s.placeAll n coreLim (rowExtents c) with
    | .error f => .error f
    | .ok ps => match rowOverlap c ps with
      | some o => .error (failFormat q.addr o)
      | none => .ok ps

/-! ### The arithmetic of a row (R394, R395) -/

/-- A sum over the positions taking part by the lane tree. -/
def rowSum (a : Arith) (cols : Nat) (part : Nat → Bool) (step : U32 → Nat → U32) : U32 :=
  rowAcc 0 (fun lane j => if part j then step lane j else lane) (fadd a) cols

/-- The statistics of a row, its outputs before conversion (position by position; one for LSE), and its LSE. -/
structure RowRes where
  stat0 : U32
  stat1 : U32
  out : List U32
  lse : U32
  deriving DecidableEq, Repr

/-- The inputs of one row. -/
structure RowIn where
  n : Nat
  part : Nat → Bool
  x : Nat → U32
  dy : Nat → U32
  gamma : Nat → U32
  beta : Nat → U32
  stat0 : U32
  stat1 : U32

/-- Outputs of a row: +0.0 where a position takes no part. -/
def rowOut (cols : Nat) (part : Nat → Bool) (f : Nat → U32) : List U32 :=
  (List.range cols).map (fun j => if part j then f j else 0)

def normFwdRow (a : Arith) (c : RowCtl) (i : RowIn) : RowRes :=
  let rn := rcpNat i.n
  let mean := if c.rms then 0 else fmul a (rowSum a c.cols i.part (fun l j => fadd a l (i.x j))) rn
  let d (j : Nat) : U32 := if c.rms then i.x j else fsub a (i.x j) mean
  let ss := rowSum a c.cols i.part (fun l j => ffma a (d j) (d j) l)
  let rstd := frsqrt a (fadd a (fmul a ss rn) c.eps)
  { stat0 := mean, stat1 := rstd, lse := 0,
    out := rowOut c.cols i.part (fun j => ffma a (fmul a (d j) rstd) (i.gamma j) (i.beta j)) }

/-- t_j of NORM_BWD. -/
def normT (a : Arith) (c : RowCtl) (i : RowIn) (j : Nat) : U32 :=
  fmul a (if c.rms then i.x j else fsub a (i.x j) i.stat0) i.stat1

def normBwdRow (a : Arith) (c : RowCtl) (i : RowIn) : RowRes :=
  let rn := rcpNat i.n
  let g (j : Nat) : U32 := fmul a (i.dy j) (i.gamma j)
  let sa := if c.rms then 0 else rowSum a c.cols i.part (fun l j => fadd a l (g j))
  let sb := rowSum a c.cols i.part (fun l j => ffma a (g j) (normT a c i j) l)
  { stat0 := i.stat0, stat1 := i.stat1, lse := 0,
    out := rowOut c.cols i.part (fun j =>
      fmul a (fsub a (g j) (fmul a (ffma a (normT a c i j) sb sa) rn)) i.stat1) }

/-- m = tree(z, MAX) over the positions taking part. -/
def rowMax (a : Arith) (cols : Nat) (part : Nat → Bool) (z : Nat → U32) : U32 :=
  rowAcc (redIdent 3 a.sat).v (fun lane j => if part j then fmax a lane (z j) else lane) (fmax a) cols

def softZ (a : Arith) (c : RowCtl) (i : RowIn) (j : Nat) : U32 := fmul a (i.x j) c.scale

/-- m, s, and the LSE of a row. -/
def softStats (a : Arith) (c : RowCtl) (i : RowIn) : U32 × U32 × U32 :=
  let m := rowMax a c.cols i.part (softZ a c i)
  let sm := rowSum a c.cols i.part (fun l j => fadd a l (fexp a (fsub a (softZ a c i j) m)))
  (m, sm, fadd a m (fln a sm))

/-- y_j from x, SCALE, m and s. -/
def softY (a : Arith) (c : RowCtl) (i : RowIn) (m sm : U32) (j : Nat) : U32 :=
  fdiv a (fexp a (fsub a (softZ a c i j) m)) sm

def softmaxFwdRow (a : Arith) (c : RowCtl) (i : RowIn) : RowRes :=
  let (m, sm, lse) := softStats a c i
  { stat0 := m, stat1 := sm, lse := lse, out := rowOut c.cols i.part (softY a c i m sm) }

def lseRow (a : Arith) (c : RowCtl) (i : RowIn) : RowRes :=
  let (m, sm, lse) := softStats a c i
  { stat0 := m, stat1 := sm, lse := lse, out := [lse] }

def softmaxBwdRow (a : Arith) (c : RowCtl) (i : RowIn) : RowRes :=
  let y := softY a c i i.stat0 i.stat1
  let p := rowSum a c.cols i.part (fun l j => ffma a (y j) (i.dy j) l)
  { stat0 := i.stat0, stat1 := i.stat1, lse := 0,
    out := rowOut c.cols i.part (fun j => fmul a (fmul a (y j) (fsub a (i.dy j) p)) c.scale) }

/-- A row with no position taking part (R395). -/
def emptyRow (c : RowCtl) : RowRes :=
  let soft := decide (c.opcode = 3 ∨ c.opcode = 5)
  { stat0 := if soft then ninf32 else 0, stat1 := 0, lse := ninf32,
    out := if c.opcode = 5 then [ninf32] else List.replicate c.cols 0 }

/-! ### Running a descriptor -/

/-- An element of an operand; an absent GAMMA is 1.0 and an absent BETA +0.0 (R392). -/
def State.rowElem (s : State) (a : Arith) (c : RowCtl) (ps : List (Nat × Nat × Nat)) (i : Nat) (dflt : U32) (k : Nat) : U32 :=
  let f := (c.op i).fmt
  if f = 0 then dflt
  else
    let w := fmtBits (srcFmt f) / 8
    srcVal a.sat (srcFmt f) (s.readNat (placeOf ps i + w * k) w)

def State.rowInputs (s : State) (a : Arith) (c : RowCtl) (ps : List (Nat × Nat × Nat)) (r : Nat) : RowIn :=
  let part (j : Nat) : Bool := !c.mask || s.maskBit (placeOf ps 6) c.cols r j
  { n := ((List.range c.cols).filter part).length, part := part,
    x := fun j => s.rowElem a c ps 0 0 (r * c.ld + j),
    dy := fun j => s.rowElem a c ps 1 0 (r * c.ld + j),
    gamma := s.rowElem a c ps 2 one32,
    beta := s.rowElem a c ps 3 0,
    stat0 := BitVec.ofNat 32 (s.readNat (placeOf ps 7 + 8 * r) 4),
    stat1 := BitVec.ofNat 32 (s.readNat (placeOf ps 7 + 8 * r + 4) 4) }

/-- One row by its opcode. -/
def rowEval (a : Arith) (c : RowCtl) (i : RowIn) : RowRes :=
  if i.n = 0 then emptyRow c
  else match c.opcode with
    | 1 => normFwdRow a c i
    | 2 => normBwdRow a c i
    | 3 => softmaxFwdRow a c i
    | 4 => softmaxBwdRow a c i
    | _ => lseRow a c i

/-- Where the output rows go: the slot of the written operand. -/
def rowOutSlot (opcode : Nat) : Nat := if opcode = 2 ∨ opcode = 4 then 3 else 1

/-- DGAMMA or DBETA after a row, column by column (R394). -/
def accRow (a : Arith) (c : RowCtl) (i : RowIn) (dgamma : Bool) (acc : List U32) : List U32 :=
  acc.mapIdx (fun j v =>
    if i.part j then (if dgamma then ffma a (i.dy j) (normT a c i j) v else fadd a v (i.dy j)) else v)

/-- Accumulates DGAMMA (slot 4) or DBETA (slot 5) over the rows and writes it. -/
def State.rowAccumulate (s : State) (a : Arith) (c : RowCtl) (ps : List (Nat × Nat × Nat)) (ins : List RowIn)
    (slot : Nat) (dst : State) : State :=
  if c.opcode = 2 ∧ (c.op slot).fmt ≠ 0 then
    let start := (List.range c.cols).map (fun j => BitVec.ofNat 32 (s.readNat (placeOf ps slot + 4 * j) 4))
    let fin := ins.foldl (fun acc i => accRow a c i (decide (slot = 4)) acc) start
    dst.writeMem (placeOf ps slot) (fin.flatMap (fun v => leBytes 4 v.toNat))
  else dst

/-- RESULT of R390. -/
def rowResult (a : Arith) (c : RowCtl) (ins : List RowIn) (rs : List RowRes) : U32 :=
  let live := (ins.zip rs).filter (fun p => decide (0 < p.1.n))
  match c.opcode with
  | 1 => live.foldl (fun m p => fmax a m p.2.stat1) (redIdent 3 a.sat).v
  | 3 => live.foldl (fun m p => fadd a m p.2.lse) 0
  | 5 => live.foldl (fun m p => fadd a m p.2.lse) 0
  | _ => (ins.zip rs).foldl (fun t p =>
      fadd a t (rowSum a c.cols p.1.part (fun l j => ffma a (p.2.out.getD j 0) (p.2.out.getD j 0) l))) 0

/-- Passes over a row (R396). -/
def rowPasses (c : RowCtl) : Nat :=
  if c.opcode = 3 ∨ (c.opcode = 1 ∧ c.rms = false) then 3 else 2

/-- Runs a row-engine descriptor whose checks have passed. -/
def State.rowRun (s : State) (n : Fin 256) (r : Running) (c : RowCtl) (ps : List (Nat × Nat × Nat)) :
    State × Option Summary :=
  let ac := arithCtlOf c.arith
  let a := stageArith ac
  let unit := (uidEngine n.val 3).toNat
  let ins := (List.range c.rows).map (s.rowInputs a c ps)
  let rs := ins.map (rowEval a c)
  let slot := rowOutSlot c.opcode
  let f := srcFmt (c.op slot).fmt
  let outs := rs.mapIdx (fun i x => rowConvert f ac
    (fun j => if ac.round = 2 then convDraw s.job.pepper r.season unit r.ordinal (i * c.cols + j) else 0) x.out)
  let lse := decide (c.opcode = 5)
  let tally := ((ins.zip outs)).foldl (fun t p =>
    if lse then
      (if p.1.n = 0 then { t with emptyRows := t.emptyRows + 1 }
       else { tallyPos t (p.2.vals.headD 0) (p.2.limits.headD false) with count := t.count + p.1.n })
    else tallyRow p.1.part p.2.vals p.2.limits t) OutTally.zero
  let result := rowResult a c ins rs
  let live := c.rows - tally.emptyRows
  let flags := redFlags 1 live result
  let t := (outs.zipIdx).foldl (fun t p =>
    t.writeMem (placeOf ps slot + (if lse then 4 * p.2 else p.2 * c.ld * fmtBits f / 8)) p.1.bytes) s
  let t := if c.forward then
      t.writeMem (placeOf ps 7) (rs.flatMap (fun x => leBytes 4 x.stat0.toNat ++ leBytes 4 x.stat1.toNat))
    else t
  let t := s.rowAccumulate a c ps ins 5 (s.rowAccumulate a c ps ins 4 t)
  let t := t.modRow n (fun v => { v with
    rowsDone := wrap64 v.rowsDone c.rows, elements := wrap64 v.elements (rowPasses c * c.rows * c.cols),
    emptyRows := wrap64 v.emptyRows tally.emptyRows, nonfinite := wrap64 v.nonfinite tally.nonfinite })
  let sum : Summary :=
    { w0 := summaryWord0 unit (8 + c.opcode) (decide (0 < tally.emptyRows)) (decide (0 < tally.nonfinite) || flags.1)
        (tally.nan || flags.2) (decide (0 < tally.limited)) r.q.desc.postToken r.season
      w1 := twoWords result.toNat live
      w2 := twoWords (sat32 tally.count) (sat32 tally.nonfinite)
      w3 := twoWords tally.amax.toNat (tally.emptyRows % 65536) }
  (t, if c.summary then some sum else none)

/-- The row engine's active descriptor of an opcode, checked and run (R388, R391 to R395). -/
def rowOp (core : Fin 256) (opcode : Nat) (s : State) : State :=
  let g := clusterOfCore core
  let q := QueueId.row (coreK core)
  match s.activeOp g q opcode with
  | none => s
  | some r =>
    let c := rowCtl r.q.desc
    match s.rowCheck core r.q c with
    | .error f => s.failDesc g q r f
    | .ok ps =>
      let (t, sum) := s.rowRun core r c ps
      t.finishDesc g q r sum

/-- NORM_FWD (R394). -/
def execNormFwd (core : Fin 256) (s : State) : Out := .next (rowOp core 1 s)

/-- NORM_BWD (R394). -/
def execNormBwd (core : Fin 256) (s : State) : Out := .next (rowOp core 2 s)

/-- SOFTMAX_FWD (R394). -/
def execSoftmaxFwd (core : Fin 256) (s : State) : Out := .next (rowOp core 3 s)

/-- SOFTMAX_BWD (R394). -/
def execSoftmaxBwd (core : Fin 256) (s : State) : Out := .next (rowOp core 4 s)

/-- LSE (R394). -/
def execLse (core : Fin 256) (s : State) : Out := .next (rowOp core 5 s)

end Sys2Proof.Machine
end

