-- ==== Sys2Proof/Machine/Sequencer.lean ====
section
/-! DEFINITION. Sequencer.lean: the control sequencer's instructions (R114 to R121, R559, R627). -/

namespace Sys2Proof.Machine

/-! ### Fetch, faults and the program counter (R115, R118, R119) -/

/-- A register: s0 reads as zero. -/
def Sequencer.reg (q : Sequencer) (r : Fin 32) : Word := if r = 0 then 0 else q.regs[r]

/-- Writes a register; a write of s0 is discarded (R119). -/
def Sequencer.setReg (q : Sequencer) (r : Fin 32) (v : Word) : Sequencer :=
  if r = 0 then q else { q with regs := q.regs.set r v }

/-- The instruction at the program counter. -/
def Sequencer.word (q : Sequencer) : Word := tabGet q.imem 0 q.pc

/-- FAULTED, and the one sequencer-fault event (R118): cause 0 access, 1 rejected, 2 PC out of range. -/
def State.seqFault (s : State) (g : Fin 32) (cause arg2 : Nat) : State :=
  (s.modSeq g (fun q => { q with state := .faulted })).raiseC g (uidCluster g.val 0) 0x0308
    s.clusters[g].seq.pc cause (arg2 % 2 ^ 32)

def State.seqReject (s : State) (g : Fin 32) : State := s.seqFault g 1 0

/-- A failed access: the low 32 bits of its address. -/
def State.seqFailAccess (s : State) (g : Fin 32) (f : Fail) : State := (s.countUe f).seqFault g 0 f.arg0

/-- Goes to an instruction, or faults where it lies outside 0 to 2,047. -/
def State.seqGoto (s : State) (g : Fin 32) (target : Word) : State :=
  if target.toNat < 2048 then s.modSeq g (fun q => { q with pc := target.toNat }) else s.seqFault g 2 target.toNat

def State.seqPc (s : State) (g : Fin 32) : Word := BitVec.ofNat 64 s.clusters[g].seq.pc

/-- Goes to the next instruction. -/
def State.seqNext (s : State) (g : Fin 32) : State := s.seqGoto g (s.seqPc g + 1)

/-- Writes sd and goes to the next instruction. -/
def State.seqSet (s : State) (g : Fin 32) (r : Fin 32) (v : Word) : State :=
  (s.modSeq g (fun q => q.setReg r v)).seqNext g

/-- The sequencer stays at its instruction in a wait state (R120). -/
def State.seqWait (s : State) (g : Fin 32) (st : SeqState) : State := s.modSeq g (fun q => { q with state := st })

/-- A sequencer that executes: RUNNING on a live cluster, with no load under way. -/
def State.seqRuns (s : State) (g : Fin 32) : Bool :=
  s.clusterLive g && decide (s.clusters[g].seq.state = .running) && s.clusters[g].seq.load.isNone

/-- The immediate, sign-extended (R116). -/
def seqSext (imm : Nat) : Word := (BitVec.ofNat 32 imm).signExtend 64

/-- Executes the instruction at the program counter where it is the row's. A reserved OPC is no row's, and whichever
row is commanded rejects it (R118). -/
def seqRow (opc : Nat) (body : SeqInstr → Fin 32 → State → State) (g : Fin 32) (s : State) : Out :=
  if s.seqRuns g then
    let w := s.clusters[g].seq.word
    let i := seqDecode w
    if (seqUse i.opc).isNone then .next (s.seqReject g)
    else if i.opc ≠ opc then .next s
    else if seqWordBad w then .next (s.seqReject g)
    else .next (body i g s)
  else .next s

/-- The values of sa and sb. -/
def State.seqA (s : State) (g : Fin 32) (i : SeqInstr) : Word := s.clusters[g].seq.reg i.sa
def State.seqB (s : State) (g : Fin 32) (i : SeqInstr) : Word := s.clusters[g].seq.reg i.sb

/-! ### Arithmetic and logic (R116) -/

/-- sd = f sa sb. -/
def seqAlu (f : Word → Word → Word) (i : SeqInstr) (g : Fin 32) (s : State) : State :=
  s.seqSet g i.sd (f (s.seqA g i) (s.seqB g i))

/-- sd = f sa IMM. -/
def seqImm (f : Word → Nat → Word) (i : SeqInstr) (g : Fin 32) (s : State) : State :=
  s.seqSet g i.sd (f (s.seqA g i) i.imm)

/-- NOP (R116): nothing. -/
def execNop (cluster : Fin 32) (s : State) : Out := seqRow 0x00 (fun _ g s => s.seqNext g) cluster s

/-- LDI (R116): sd = sext(IMM). -/
def execLdi (cluster : Fin 32) (s : State) : Out :=
  seqRow 0x01 (fun i g s => s.seqSet g i.sd (seqSext i.imm)) cluster s

/-- LDHI (R116): sd[63:32] = IMM. -/
def execLdhi (cluster : Fin 32) (s : State) : Out :=
  seqRow 0x02 (fun i g s =>
    s.seqSet g i.sd (BitVec.ofNat 64 (i.imm * 2 ^ 32 + (s.clusters[g].seq.reg i.sd).toNat % 2 ^ 32))) cluster s

/-- ADD (R116). -/
def execAdd (cluster : Fin 32) (s : State) : Out := seqRow 0x03 (seqAlu (· + ·)) cluster s

/-- ADDI (R116). -/
def execAddi (cluster : Fin 32) (s : State) : Out := seqRow 0x04 (seqImm (fun a n => a + seqSext n)) cluster s

/-- SUB (R116). -/
def execSub (cluster : Fin 32) (s : State) : Out := seqRow 0x05 (seqAlu (· - ·)) cluster s

/-- AND (R116). -/
def execAnd (cluster : Fin 32) (s : State) : Out := seqRow 0x06 (seqAlu (· &&& ·)) cluster s

/-- OR (R116). -/
def execOr (cluster : Fin 32) (s : State) : Out := seqRow 0x07 (seqAlu (· ||| ·)) cluster s

/-- XOR (R116). -/
def execXor (cluster : Fin 32) (s : State) : Out := seqRow 0x08 (seqAlu (· ^^^ ·)) cluster s

/-- SHL (R116): by IMM[5:0]. -/
def execShl (cluster : Fin 32) (s : State) : Out := seqRow 0x09 (seqImm (fun a n => a <<< (n % 64))) cluster s

/-- SHR (R116): logical, by IMM[5:0]. -/
def execShr (cluster : Fin 32) (s : State) : Out := seqRow 0x0A (seqImm (fun a n => a >>> (n % 64))) cluster s

/-- MUL (R116): the low 64 bits of the product. -/
def execMul (cluster : Fin 32) (s : State) : Out := seqRow 0x0B (seqAlu (· * ·)) cluster s

/-! ### Memory (R118, R119, R627) -/

/-- Reads 8 bytes as the sequencer does, a register or memory, as requester 0 (R224). -/
def State.seqLoad (s : State) (g : Fin 32) (a : Nat) : Except Fail Word :=
  if unitBase ≤ a ∧ a < linkBase + 0x20000000 then
    match s.accessFail (.ofCluster g (.req 0)) a 8 with
    | some f => .error f
    | none => .ok (BitVec.ofNat 64 (s.regRead a 8))
  else
    match s.readChecked (.ofCluster g (.req 0)) a 8 with
    | .error f => .error f
    | .ok bs => .ok (BitVec.ofNat 64 (leNat bs))

/-- Writes 8 bytes as the sequencer does, as requester 1 (R224). -/
def State.seqStore (s : State) (g : Fin 32) (a : Nat) (v : Word) : Except Fail State :=
  if unitBase ≤ a ∧ a < linkBase + 0x20000000 then
    match s.accessFail (.ofCluster g (.req 1)) a 8 with
    | some f => .error f
    | none => .ok (s.regWrite a 8 v.toNat)
  else s.writeChecked (.ofCluster g (.req 1)) a (wordBytes v)

/-- An address that R118 wants 8-byte aligned: a misaligned one is a failed access. -/
def seqAligned (s : State) (g : Fin 32) (a : Nat) (k : Nat → State) : State :=
  if a % 8 = 0 then k a else s.seqFault g 0 a

/-- LD (R116, R118): issued; LOAD_RETURN writes sd. -/
def execLd (cluster : Fin 32) (s : State) : Out :=
  seqRow 0x0C (fun i g s => seqAligned s g (s.seqA g i + seqSext i.imm).toNat (fun a =>
    match s.seqLoad g a with
    | .error f => s.seqFailAccess g f
    | .ok v => (s.noteRead a 8).modSeq g (fun q => { q with load := some (i.sd, v) }))) cluster s

/-- LOAD_RETURN (R627): the data of the LD under way is written to sd. -/
def execLoadReturn (cluster : Fin 32) (s : State) : Out :=
  match s.clusters[cluster].seq.load with
  | some (r, v) =>
    if s.clusterLive cluster then
      .next ((s.modSeq cluster (fun q => { q with load := none })).seqSet cluster r v)
    else .next s
  | none => .next s

/-- ST (R116, R118). -/
def execSt (cluster : Fin 32) (s : State) : Out :=
  seqRow 0x0D (fun i g s => seqAligned s g (s.seqA g i + seqSext i.imm).toNat (fun a =>
    match s.seqStore g a (s.seqB g i) with
    | .error f => s.seqFailAccess g f
    | .ok s => s.seqNext g)) cluster s

/-! ### Branches (R116, R117) -/

/-- BR (R117): targets count whole instructions. -/
def execBr (cluster : Fin 32) (s : State) : Out :=
  seqRow 0x0E (fun i g s =>
    if seqCompare i.cond (s.seqA g i) (s.seqB g i) then s.seqGoto g (s.seqPc g + seqSext i.imm)
    else s.seqNext g) cluster s

/-- JAL (R116): sd = PC + 1, written even where the jump then faults. -/
def execJal (cluster : Fin 32) (s : State) : Out :=
  seqRow 0x0F (fun i g s =>
    (s.modSeq g (fun q => q.setReg i.sd (s.seqPc g + 1))).seqGoto g (s.seqPc g + seqSext i.imm)) cluster s

/-- JR (R116): PC = sa[10:0]; sa[63:11] must be zero. -/
def execJr (cluster : Fin 32) (s : State) : Out :=
  seqRow 0x10 (fun i g s =>
    if (s.seqA g i).toNat < 2048 then s.seqGoto g (s.seqA g i) else s.seqReject g) cluster s

/-! ### Posts, tokens and waits (R84 to R99, R116, R120) -/

/-- A queue has a credit for the sequencer: not the last one while a ready LAUNCH entry waits for it (R97, R99), and
none while the cluster accepts no descriptor (R51). -/
def State.postCredit (s : State) (g : Fin 32) (q : QueueId) : Bool :=
  s.clusterAccepts g && decide (0 < s.credits g q) &&
    !(decide (s.credits g q = 1) && s.clusters[g].launch.any (fun p =>
      launchReady s.clusters[g] p.2 && decide (p.2.queue = queueCode q)))

/-- POST (R95, R97 to R99, R116). -/
def execPost (cluster : Fin 32) (s : State) : Out :=
  seqRow 0x11 (fun i g s =>
    match queueOfCode (i.imm % 256) with
    | none => s.seqReject g
    | some q =>
      seqAligned s g (s.seqA g i).toNat (fun a =>
        if s.postCredit g q then
          match s.postDesc g q a false with
          | .error f => s.seqFailAccess g f
          | .ok s => s.seqNext g
        else s.seqWait g .waitCredit)) cluster s

/-- TPOST (R87, R88, R116): tagged with the current Season plus IMM[17]. -/
def execTpost (cluster : Fin 32) (s : State) : Out :=
  seqRow 0x12 (fun i g s =>
    (s.postToken
      { source := some g.val, cluster := fin32 (i.imm / 4096 % 32), token := i.imm % 4096,
        tag := s.clusters[g].season + i.imm / 2 ^ 17 % 2, any := false, stream := 1 }).seqNext g) cluster s

/-- SETEXP (R86). -/
def execSetexp (cluster : Fin 32) (s : State) : Out :=
  seqRow 0x13 (fun i g s =>
    ((s.modCluster g (fun c => c.setToken (i.imm % 4096)
      { c.token (i.imm % 4096) with expect := BitVec.ofNat 8 (i.imm / 4096) })).settle g).seqNext g) cluster s

/-- WAITT (R116). -/
def execWaitt (cluster : Fin 32) (s : State) : Out :=
  seqRow 0x14 (fun i g s =>
    if s.clusters[g].present (i.imm % 4096) s.clusters[g].season then s.seqNext g
    else s.seqWait g .waitToken) cluster s

/-- WAITS (R116). -/
def execWaits (cluster : Fin 32) (s : State) : Out :=
  seqRow 0x15 (fun i g s =>
    if (s.seqA g i).toNat ≤ s.clusters[g].season then s.seqNext g else s.seqWait g .waitSeason) cluster s

/-- The event context of an entry that LENT does not write: its queue code, and nothing that was posted (R555). -/
def lentContext (e : LaunchEntry) : Nat := if e.isLaunch then e.queue else 0

/-- LENT (R100, R105, R118). An entry of the current Season is one more to wait for (R113). -/
def execLent (cluster : Fin 32) (s : State) : Out :=
  seqRow 0x16 (fun i g s => seqAligned s g (s.seqA g i).toNat (fun a =>
    match s.readChecked (.ofCluster g .any) a 32 with
    | .error f => s.seqFailAccess g f
    | .ok bs =>
      let w (k : Nat) : Word := BitVec.ofNat 64 (leNat ((bs.drop (8 * k)).take 8))
      let e := LaunchEntry.ofWords (w 0) (w 1) (w 2) (w 3)
      if !launchOk e then (s.noteRead a 32).seqReject g
      else if e.kind ≠ 0 ∧ e.season < s.clusters[g].season then
        ((s.noteRead a 32).raiseC g (uidCluster g.val 0) 0x0303 e.season (i.imm % 256) (lentContext e)).seqNext g
      else
        (((s.noteRead a 32).modCluster g (fun c =>
          { c with launch := tabSet c.launch (i.imm % 256) e
                   arriveTick := if e.kind ≠ 0 ∧ e.season = c.season then none else c.arriveTick })).settle g).seqNext g)) cluster s

/-- SETLIM (R116): sa[63:48] must be zero. -/
def execSetlim (cluster : Fin 32) (s : State) : Out :=
  seqRow 0x17 (fun i g s =>
    let v := (s.seqA g i).toNat
    if v < 2 ^ 48 then (s.modCluster g (fun c => { c with seasonLimit := v })).seqNext g
    else s.seqReject g) cluster s

/-! ### Summaries, system values, events and HALT (R116, R121, R559) -/

def Summary.word (x : Summary) : Nat → Word
  | 0 => x.w0
  | 1 => x.w1
  | 2 => x.w2
  | _ => x.w3

/-- RSUM (R116, R121): waits while the queue is empty. -/
def execRsum (cluster : Fin 32) (s : State) : Out :=
  seqRow 0x18 (fun i g s =>
    match s.clusters[g].summaries with
    | [] => s.seqWait g .waitSummary
    | x :: t =>
      ((if bitOf i.imm 8 then s.modCluster g (fun c => { c with summaries := t }) else s).seqSet g i.sd
        (x.word (i.imm % 4)))) cluster s

/-- The system values of RDSYS (R116). -/
def Cluster.system (c : Cluster) (g : Fin 32) : Nat → Word
  | 0 => BitVec.ofNat 64 c.season
  | 1 => c.osc.tick
  | 2 => c.seq.barrierResult
  | _ => BitVec.ofNat 64 g.val

/-- RDSYS (R116). -/
def execRdsys (cluster : Fin 32) (s : State) : Out :=
  seqRow 0x19 (fun i g s => s.seqSet g i.sd (s.clusters[g].system g i.imm)) cluster s

/-- EVENT (R559): class 0xF0 to 0xFF, with sa, sb and sd. -/
def execEvent (cluster : Fin 32) (s : State) : Out :=
  seqRow 0x1A (fun i g s =>
    (s.raiseC g (uidCluster g.val 0) (i.imm % 65536) (s.seqA g i).toNat (s.seqB g i).toNat
      (s.clusters[g].seq.reg i.sd).toNat).seqNext g) cluster s

/-- HALT (R116). -/
def execHalt (cluster : Fin 32) (s : State) : Out :=
  seqRow 0x1B (fun _ g s => s.modSeq g (fun q => { q with state := .halted })) cluster s

/-! ### Resuming (R120) -/

/-- What a waiting sequencer waits for is there. -/
def State.seqMayResume (s : State) (g : Fin 32) : Bool :=
  let c := s.clusters[g]
  let i := seqDecode c.seq.word
  match c.seq.state with
  | .waitCredit => (queueOfCode (i.imm % 256)).any (fun q => s.postCredit g q)
  | .waitToken => c.present (i.imm % 4096) c.season
  | .waitSeason => decide ((s.seqA g i).toNat ≤ c.season)
  | .waitSummary => !c.summaries.isEmpty
  | _ => false

/-- SEQUENCER_RESUME (R120): RUNNING again, and its instruction is executed by the command of its row. -/
def execSequencerResume (cluster : Fin 32) (s : State) : Out :=
  if s.clusterLive cluster ∧ s.seqMayResume cluster then
    .next (s.modSeq cluster (fun q => { q with state := .running }))
  else .next s

end Sys2Proof.Machine
end

