-- ==== Sys2Proof/Machine/Threads.lean ====
section
/-! DEFINITION. Threads.lean: how an entry of the thread unit completes, at memory or at a register, and a bed's stop, which
completes the accesses on their way to it (R31, R36, R263, R265, R268, R583). -/

namespace Sys2Proof.Machine

/-! ### The remote side (R31, R258) -/

/-- Reads the remote element: storage, or a register of 4 or 8 bytes. -/
def State.remoteRead (s : State) (who : Who) (a n : Nat) : Except Fail (List Byte) :=
  match s.readFail who a n with
  | some f => .error f
  | none =>
    if unitBase ≤ a then .ok (leBytes n (s.regRead a n)) else .ok (s.readMem a n)

/-- Writes the remote element. -/
def State.remoteWrite (s : State) (who : Who) (a : Nat) (bs : List Byte) : Except Fail State :=
  if unitBase ≤ a then
    match s.accessFail who a bs.length with
    | some f => .error f
    | none => .ok (s.regWrite a bs.length (leNat bs))
  else s.writeChecked who a bs

/-! ### Completion (R263, R265, R268) -/

/-- Performs entry e of a descriptor. -/
def State.entryMove (s : State) (n : Fin 256) (c : ThreadCtl) (e : Entry) : Except Fail State :=
  if c.store then s.remoteWrite (c.who n) e.remote e.data
  else match s.remoteRead (c.who n) e.remote c.elem with
    | .error f => .error f
    | .ok bs => .ok ((s.noteRead e.remote c.elem).writeMem e.near bs)

/-- Among the entries with a slot in one bank, the one that claimed it first is served first (R268). -/
def entryInTurn (before : List Entry) (e : Entry) : Bool :=
  e.slots.all (fun x => x.isNone || before.all (fun y => !y.slots.contains x))

/-- The i-th entry in flight completes. -/
def State.entryDone (s : State) (n : Fin 256) (j : ThreadJob) (i : Nat) (e : Entry) : State :=
  let c := threadCtl j.run.q.desc
  let j : ThreadJob := { j with inFlight := listDel j.inFlight i }
  match s.entryMove n c e with
  | .error f => s.threadFault n j f
  | .ok s => (s.entryCounted n).threadEnd n j

/-- A write that its descriptor no longer waits for completes at its target; what keeps it from there raises nothing (R570, R583). -/
def State.orphanDone (s : State) (n : Fin 256) (i : Nat) (e : Entry) : State :=
  let s := s.modThr n (fun t => { t with orphans := listDel t.orphans i })
  match s.remoteWrite (.ofCore n (.req 1)) e.remote e.data with
  | .error _ => s
  | .ok s => s

/-- The entries in flight of a core's descriptor. -/
def ThreadUnit.entriesOut (t : ThreadUnit) : List Entry := (t.job.map (·.inFlight)).getD []

/-- ENTRY_COMPLETE (R263, R265, R268): the i-th entry in flight reads or writes its remote element and frees its slots, unless
an earlier one waits for the same bank. The writes of descriptors that a fence or a stop has ended count on after those. -/
def execEntryComplete (core : Fin 256) (i : Nat) (s : State) : Out :=
  let t := s.cores[core].thr
  match t.job, t.entriesOut[i]? with
  | some j, some e =>
    if entryInTurn (t.orphans ++ j.inFlight.take i) e then .next (s.entryDone core j i e) else .next s
  | _, _ =>
    let k := i - t.entriesOut.length
    match t.orphans[k]? with
    | some e => if entryInTurn (t.orphans.take k) e then .next (s.orphanDone core k e) else .next s
    | none => .next s

/-! ### BED_STOP (R36, R583, R584) -/

/-- The bed that supplies what lies at an address. -/
def bedOfAddr (a : Nat) : Option (Fin 62) :=
  if a < hbmEnd then some (bedStack (stackOf a).val)
  else if a < 0x11000000000 then some (bedCluster ((a - 0x10000000000) / 0x2000000))
  else if a < unitBase then some (bedCluster ((a - 0x11000000000) / 0x2000000))
  else (regUnitOf a).map (fun x => regBed x.1)

/-- An entry on its way to a bed. -/
def entryTo (b : Fin 62) (bytes : Nat) (e : Entry) : Bool :=
  decide (bedOfAddr e.remote = some b) || decide (bedOfAddr (e.remote + bytes - 1) = some b)

/-- Completes the first entry of a core's descriptor that is on its way to a bed. -/
def State.completeOne (s : State) (b : Fin 62) (n : Fin 256) : State :=
  match s.cores[n].thr.job with
  | none => s
  | some j =>
    match (List.range j.inFlight.length).find? (fun i =>
        (j.inFlight[i]?).any (entryTo b (threadCtl j.run.q.desc).elem)) with
    | none => s
    | some i => match j.inFlight[i]? with
      | some e => s.entryDone n j i e
      | none => s

/-- Completes a core's first write without a descriptor. -/
def State.completeOrphan (s : State) (n : Fin 256) : State :=
  match s.cores[n].thr.orphans with
  | e :: _ => s.orphanDone n 0 e
  | [] => s

def iterate {α : Type} (f : α → α) : Nat → α → α
  | 0, x => x
  | n + 1, x => iterate f n (f x)

/-- The accesses in flight whose target a bed supplies complete before it leaves the on state (R36). -/
def State.completeInto (s : State) (b : Fin 62) : State :=
  (List.finRange 256).foldl (fun s n =>
    let t := s.cores[n].thr
    if t.entriesOut = [] ∧ t.orphans = [] then s
    else iterate (fun s => s.completeOrphan n) t.orphans.length (iterate (fun s => s.completeOne b n) t.entriesOut.length s)) s

/-- The accesses that a stopped bed's thread units have issued complete at their targets (R583 step 1). -/
def State.completeFrom (s : State) (b : Fin 62) : State :=
  match bedKind b with
  | .cluster g => (coresOf g).foldl (fun s n => iterate (fun s => s.completeOrphan n) s.cores[n].thr.orphans.length s) s
  | _ => s

/-- A granted transfer of a stack has units to move: its bed waits for them (R36, R225). -/
def State.transferOut (s : State) (b : Fin 62) : Bool :=
  match bedKind b with
  | .stack k => s.hbm[k].arbs.any (fun x => x.2.grant.isSome)
  | _ => false

/-- BED_STOP (R36, R583, R584): the highest-numbered bed that may stop, once the accesses on their way to it are complete. -/
def execBedStop (s : State) : Out :=
  match (List.finRange 62).reverse.find? (fun b => s.mayStop b) with
  | none => .next s
  | some b =>
    if s.transferOut b then .next s
    else .next ((((s.completeInto b).modBed b (fun x => { x with phase := .stopping })).stopUnits b).completeFrom b)

end Sys2Proof.Machine
end

