-- ==== Sys2Proof/Machine/Dispatch.lean ====
section
/-! DEFINITION. Dispatch.lean: one arm per command. -/

namespace Sys2Proof.Machine

def exec (i : Instr) (s : State) : Host.Outcome State Fault Refusal :=
  match i with
  | .vcoreSetpointWrite die mv => Sys2Proof.Machine.execVcoreSetpointWrite die mv s
  | .trimWindowEnd cluster count => Sys2Proof.Machine.execTrimWindowEnd cluster count s
  | .trimMeasureEnd cluster count => Sys2Proof.Machine.execTrimMeasureEnd cluster count s
  | .autoRetrim cluster count => Sys2Proof.Machine.execAutoRetrim cluster count s
  | .trimReq cluster => Sys2Proof.Machine.execTrimReq cluster s
  | .rateMonUpdate cluster f => Sys2Proof.Machine.execRateMonUpdate cluster f s
  | .fifoWrite fifo put => Sys2Proof.Machine.execFifoWrite fifo put s
  | .fifoRead fifo => Sys2Proof.Machine.execFifoRead fifo s
  | .pointerCrossing fifo side => Sys2Proof.Machine.execPointerCrossing fifo side s
  | .wmWrite fifo value => Sys2Proof.Machine.execWmWrite fifo value s
  | .pfcPauseRefresh host => Sys2Proof.Machine.execPfcPauseRefresh host s
  | .ballastFiring core => Sys2Proof.Machine.execBallastFiring core s
  | .ballastWindDown core => Sys2Proof.Machine.execBallastWindDown core s
  | .ballastRampStep core => Sys2Proof.Machine.execBallastRampStep core s
  | .tokenPost k => Sys2Proof.Machine.execTokenPost k s
  | .descriptorStart cluster queue => Sys2Proof.Machine.execDescriptorStart cluster queue s
  | .descriptorComplete cluster queue => Sys2Proof.Machine.execDescriptorComplete cluster queue s
  | .queueNop cluster queue => Sys2Proof.Machine.execQueueNop cluster queue s
  | .launchFire cluster => Sys2Proof.Machine.execLaunchFire cluster s
  | .seasonAdvance cluster => Sys2Proof.Machine.execSeasonAdvance cluster s
  | .barrierArrive k => Sys2Proof.Machine.execBarrierArrive k s
  | .barrierRelease k => Sys2Proof.Machine.execBarrierRelease k s
  | .recoveryTimeout kind => Sys2Proof.Machine.execRecoveryTimeout kind s
  | .nop cluster => Sys2Proof.Machine.execNop cluster s
  | .ldi cluster => Sys2Proof.Machine.execLdi cluster s
  | .ldhi cluster => Sys2Proof.Machine.execLdhi cluster s
  | .add cluster => Sys2Proof.Machine.execAdd cluster s
  | .addi cluster => Sys2Proof.Machine.execAddi cluster s
  | .sub cluster => Sys2Proof.Machine.execSub cluster s
  | .and cluster => Sys2Proof.Machine.execAnd cluster s
  | .or cluster => Sys2Proof.Machine.execOr cluster s
  | .xor cluster => Sys2Proof.Machine.execXor cluster s
  | .shl cluster => Sys2Proof.Machine.execShl cluster s
  | .shr cluster => Sys2Proof.Machine.execShr cluster s
  | .mul cluster => Sys2Proof.Machine.execMul cluster s
  | .ld cluster => Sys2Proof.Machine.execLd cluster s
  | .loadReturn cluster => Sys2Proof.Machine.execLoadReturn cluster s
  | .st cluster => Sys2Proof.Machine.execSt cluster s
  | .br cluster => Sys2Proof.Machine.execBr cluster s
  | .jal cluster => Sys2Proof.Machine.execJal cluster s
  | .jr cluster => Sys2Proof.Machine.execJr cluster s
  | .post cluster => Sys2Proof.Machine.execPost cluster s
  | .tpost cluster => Sys2Proof.Machine.execTpost cluster s
  | .setexp cluster => Sys2Proof.Machine.execSetexp cluster s
  | .waitt cluster => Sys2Proof.Machine.execWaitt cluster s
  | .waits cluster => Sys2Proof.Machine.execWaits cluster s
  | .lent cluster => Sys2Proof.Machine.execLent cluster s
  | .setlim cluster => Sys2Proof.Machine.execSetlim cluster s
  | .rsum cluster => Sys2Proof.Machine.execRsum cluster s
  | .rdsys cluster => Sys2Proof.Machine.execRdsys cluster s
  | .event cluster => Sys2Proof.Machine.execEvent cluster s
  | .halt cluster => Sys2Proof.Machine.execHalt cluster s
  | .sequencerResume cluster => Sys2Proof.Machine.execSequencerResume cluster s
  | .sample cluster => Sys2Proof.Machine.execSample cluster s
  | .topoInvalidate cluster => Sys2Proof.Machine.execTopoInvalidate cluster s
  | .topoFill cluster => Sys2Proof.Machine.execTopoFill cluster s
  | .pieceWrite cluster => Sys2Proof.Machine.execPieceWrite cluster s
  | .specGatherPost cluster => Sys2Proof.Machine.execSpecGatherPost cluster s
  | .specConfirm cluster => Sys2Proof.Machine.execSpecConfirm cluster s
  | .ringConsumed cluster value => Sys2Proof.Machine.execRingConsumed cluster value s
  | .gather cluster => Sys2Proof.Machine.execGather cluster s
  | .pool cluster => Sys2Proof.Machine.execPool cluster s
  | .prefetch cluster => Sys2Proof.Machine.execPrefetch cluster s
  | .clocheFill cluster => Sys2Proof.Machine.execClocheFill cluster s
  | .clocheDecay cluster => Sys2Proof.Machine.execClocheDecay cluster s
  | .scatter cluster => Sys2Proof.Machine.execScatter cluster s
  | .flush cluster => Sys2Proof.Machine.execFlush cluster s
  | .armOwner cluster => Sys2Proof.Machine.execArmOwner cluster s
  | .freeWindowClose cluster => Sys2Proof.Machine.execFreeWindowClose cluster s
  | .recordRead cluster k => Sys2Proof.Machine.execRecordRead cluster k s
  | .pooledMember cluster => Sys2Proof.Machine.execPooledMember cluster s
  | .versionCheck cluster k => Sys2Proof.Machine.execVersionCheck cluster k s
  | .stagedRowCopy cluster k => Sys2Proof.Machine.execStagedRowCopy cluster k s
  | .partialAppend k => Sys2Proof.Machine.execPartialAppend k s
  | .partialSum die => Sys2Proof.Machine.execPartialSum die s
  | .transplantCopy k => Sys2Proof.Machine.execTransplantCopy k s
  | .scrub stack addr upset rewritten => Sys2Proof.Machine.execScrub stack addr upset rewritten s
  | .stackReady stack failStep => Sys2Proof.Machine.execStackReady stack failStep s
  | .lotteryDecision arb asks => Sys2Proof.Machine.execLotteryDecision arb asks s
  | .ticketsWrite arb value => Sys2Proof.Machine.execTicketsWrite arb value s
  | .lfsrSeedWrite stack value => Sys2Proof.Machine.execLfsrSeedWrite stack value s
  | .watchdogBite arb ageUs asks => Sys2Proof.Machine.execWatchdogBite arb ageUs asks s
  | .hbmRead access upset issuer => Sys2Proof.Machine.execHbmRead access upset issuer s
  | .hbmWrite access bytes upset issuer => Sys2Proof.Machine.execHbmWrite access bytes upset issuer s
  | .retireRequest addr => Sys2Proof.Machine.execRetireRequest addr s
  | .retiredListFlashCopy stack => Sys2Proof.Machine.execRetiredListFlashCopy stack s
  | .copy core => Sys2Proof.Machine.execCopy core s
  | .fill core => Sys2Proof.Machine.execFill core s
  | .iload core => Sys2Proof.Machine.execIload core s
  | .istore core => Sys2Proof.Machine.execIstore core s
  | .threadIssue core => Sys2Proof.Machine.execThreadIssue core s
  | .entryComplete core k => Sys2Proof.Machine.execEntryComplete core k s
  | .snap unit => Sys2Proof.Machine.execSnap unit s
  | .matmul core => Sys2Proof.Machine.execMatmul core s
  | .matmulFill core => Sys2Proof.Machine.execMatmulFill core s
  | .conv core => Sys2Proof.Machine.execConv core s
  | .convert core => Sys2Proof.Machine.execConvert core s
  | .passStart core => Sys2Proof.Machine.execPassStart core s
  | .passDrainEnd core => Sys2Proof.Machine.execPassDrainEnd core s
  | .tileEnter core => Sys2Proof.Machine.execTileEnter core s
  | .chain core => Sys2Proof.Machine.execChain core s
  | .tileDrop core => Sys2Proof.Machine.execTileDrop core s
  | .normFwd core => Sys2Proof.Machine.execNormFwd core s
  | .normBwd core => Sys2Proof.Machine.execNormBwd core s
  | .softmaxFwd core => Sys2Proof.Machine.execSoftmaxFwd core s
  | .softmaxBwd core => Sys2Proof.Machine.execSoftmaxBwd core s
  | .lse core => Sys2Proof.Machine.execLse core s
  | .gradSend cluster => Sys2Proof.Machine.execGradSend cluster s
  | .update cluster => Sys2Proof.Machine.execUpdate cluster s
  | .rowUpdate die => Sys2Proof.Machine.execRowUpdate die s
  | .commit cluster => Sys2Proof.Machine.execCommit cluster s
  | .lastStepPhases => Sys2Proof.Machine.execLastStepPhases s
  | .chunkCombine k => Sys2Proof.Machine.execChunkCombine k s
  | .noLight port onTransmitFibre => Sys2Proof.Machine.execNoLight port onTransmitFibre s
  | .pmaTrainingDone port lanes inverted reversed => Sys2Proof.Machine.execPmaTrainingDone port lanes inverted reversed s
  | .fecLock port => Sys2Proof.Machine.execFecLock port s
  | .hello rx dev peerPort role shape digest => Sys2Proof.Machine.execHello rx dev peerPort role shape digest s
  | .keyex rx msg => Sys2Proof.Machine.execKeyex rx msg s
  | .laneLoss port lost => Sys2Proof.Machine.execLaneLoss port lost s
  | .flitReceive port flit => Sys2Proof.Machine.execFlitReceive port flit s
  | .nak rx seq => Sys2Proof.Machine.execNak rx seq s
  | .linkRetryLimit port => Sys2Proof.Machine.execLinkRetryLimit port s
  | .rekey port => Sys2Proof.Machine.execRekey port s
  | .keyupdate rx => Sys2Proof.Machine.execKeyupdate rx s
  | .write => Sys2Proof.Machine.execWrite s
  | .rowReq => Sys2Proof.Machine.execRowReq s
  | .rowResp => Sys2Proof.Machine.execRowResp s
  | .scatterAdd => Sys2Proof.Machine.execScatterAdd s
  | .reduce => Sys2Proof.Machine.execReduce s
  | .e2eAck => Sys2Proof.Machine.execE2eAck s
  | .e2eNak => Sys2Proof.Machine.execE2eNak s
  | .unreachable => Sys2Proof.Machine.execUnreachable s
  | .e2eAckTimer k => Sys2Proof.Machine.execE2eAckTimer k s
  | .e2eTimeout k => Sys2Proof.Machine.execE2eTimeout k s
  | .frameReceive host frame => Sys2Proof.Machine.execFrameReceive host frame s
  | .pfcFrame host sub prio time => Sys2Proof.Machine.execPfcFrame host sub prio time s
  | .send host => Sys2Proof.Machine.execSend host s
  | .rdmaWrite host => Sys2Proof.Machine.execRdmaWrite host s
  | .rdmaRead host => Sys2Proof.Machine.execRdmaRead host s
  | .recvConsumed host q value => Sys2Proof.Machine.execRecvConsumed host q value s
  | .shardNotice ing => Sys2Proof.Machine.execShardNotice ing s
  | .shardDecode ing => Sys2Proof.Machine.execShardDecode ing s
  | .admitShard ing => Sys2Proof.Machine.execAdmitShard ing s
  | .emit ing => Sys2Proof.Machine.execEmit ing s
  | .outConsumed ing value => Sys2Proof.Machine.execOutConsumed ing value s
  | .associationSwitch host sub => Sys2Proof.Machine.execAssociationSwitch host sub s
  | .macsecRekey host sub => Sys2Proof.Machine.execMacsecRekey host sub s
  | .subPortLinkChange host sub up => Sys2Proof.Machine.execSubPortLinkChange host sub up s
  | .breopRead => Sys2Proof.Machine.execBreopRead s
  | .breopWrite => Sys2Proof.Machine.execBreopWrite s
  | .blockRead => Sys2Proof.Machine.execBlockRead s
  | .blockWrite => Sys2Proof.Machine.execBlockWrite s
  | .subscribe => Sys2Proof.Machine.execSubscribe s
  | .cancel => Sys2Proof.Machine.execCancel s
  | .notify k => Sys2Proof.Machine.execNotify k s
  | .subscriptionLapse k => Sys2Proof.Machine.execSubscriptionLapse k s
  | .stagingDiscard k => Sys2Proof.Machine.execStagingDiscard k s
  | .sessionTimeout k => Sys2Proof.Machine.execSessionTimeout k s
  | .keptResponseExpiry k => Sys2Proof.Machine.execKeptResponseExpiry k s
  | .mgmtFrame frame => Sys2Proof.Machine.execMgmtFrame frame s
  | .phyInt link => Sys2Proof.Machine.execPhyInt link s
  | .objectWrite index sub value => Sys2Proof.Machine.execObjectWrite index sub value s
  | .registerWrite addr value wide => Sys2Proof.Machine.execRegisterWrite addr value wide s
  | .counterSnapshot => Sys2Proof.Machine.execCounterSnapshot s
  | .challenge src => Sys2Proof.Machine.execChallenge src s
  | .rwsFlashWrite index sub => Sys2Proof.Machine.execRwsFlashWrite index sub s
  | .boot => Sys2Proof.Machine.execBoot s
  | .fwImage value => Sys2Proof.Machine.execFwImage value s
  | .fwImageCheckEnd flashOk => Sys2Proof.Machine.execFwImageCheckEnd flashOk s
  | .fwCommitSvn svn => Sys2Proof.Machine.execFwCommitSvn svn s
  | .measureExtend value => Sys2Proof.Machine.execMeasureExtend value s
  | .quoteRequest nonce => Sys2Proof.Machine.execQuoteRequest nonce s
  | .quoteFormed => Sys2Proof.Machine.execQuoteFormed s
  | .sessionOpen src value total => Sys2Proof.Machine.execSessionOpen src value total s
  | .sessionClose session => Sys2Proof.Machine.execSessionClose session s
  | .ownerKeys keys => Sys2Proof.Machine.execOwnerKeys keys s
  | .macsecKeyex src value => Sys2Proof.Machine.execMacsecKeyex src value s
  | .debugUnlock src value auth => Sys2Proof.Machine.execDebugUnlock src value auth s
  | .jobManifest value => Sys2Proof.Machine.execJobManifest value s
  | .jobEnd => Sys2Proof.Machine.execJobEnd s
  | .eventRecord => Sys2Proof.Machine.execEventRecord s
  | .seasonStall cluster => Sys2Proof.Machine.execSeasonStall cluster s
  | .fence unit cause => Sys2Proof.Machine.execFence unit cause s
  | .capacityPublish => Sys2Proof.Machine.execCapacityPublish s
  | .fenceRequest unit => Sys2Proof.Machine.execFenceRequest unit s
  | .fenceClear unit => Sys2Proof.Machine.execFenceClear unit s
  | .persistentFenceWrite => Sys2Proof.Machine.execPersistentFenceWrite s
  | .sidebandProbe out falls => Sys2Proof.Machine.execSidebandProbe out falls s
  | .sidebandFault out fault => Sys2Proof.Machine.execSidebandFault out fault s
  | .refclkMissing link => Sys2Proof.Machine.execRefclkMissing link s
  | .bedTarget bed on => Sys2Proof.Machine.execBedTarget bed on s
  | .bedStart => Sys2Proof.Machine.execBedStart s
  | .bedOn bed => Sys2Proof.Machine.execBedOn bed s
  | .powerGoodFail bed => Sys2Proof.Machine.execPowerGoodFail bed s
  | .bedStop => Sys2Proof.Machine.execBedStop s
  | .bedOff bed => Sys2Proof.Machine.execBedOff bed s
  | .rotRetry => Sys2Proof.Machine.execRotRetry s
  | .deviceRestart => Sys2Proof.Machine.execDeviceRestart s
  | .clusterReset cluster => Sys2Proof.Machine.execClusterReset cluster s
  | .clusterResetEnd cluster => Sys2Proof.Machine.execClusterResetEnd cluster s
  | .powerMeasure pinW => Sys2Proof.Machine.execPowerMeasure pinW s
  | .vcoreThrottleStep die up => Sys2Proof.Machine.execVcoreThrottleStep die up s
  | .aonPowerUp standby vin => Sys2Proof.Machine.execAonPowerUp standby vin s
  | .crystalFail => Sys2Proof.Machine.execCrystalFail s
  | .inputReversed => Sys2Proof.Machine.execInputReversed s
  | .inputUnderVoltage mv => Sys2Proof.Machine.execInputUnderVoltage mv s
  | .inputOverVoltage mv => Sys2Proof.Machine.execInputOverVoltage mv s
  | .standbyLow mv => Sys2Proof.Machine.execStandbyLow mv s
  | .thermalTrip k => Sys2Proof.Machine.execThermalTrip k s
  | .comparatorRelease c => Sys2Proof.Machine.execComparatorRelease c s
  | .supplyRestart => Sys2Proof.Machine.execSupplyRestart s
  | .thermalRestart => Sys2Proof.Machine.execThermalRestart s
  | .managementWake => Sys2Proof.Machine.execManagementWake s
  | .edgeLinkRetry edge limitHit => Sys2Proof.Machine.execEdgeLinkRetry edge limitHit s
  | .refclkReturn link => Sys2Proof.Machine.execRefclkReturn link s
  | .crystalReturn => Sys2Proof.Machine.execCrystalReturn s
  | .sidebandFaultCleared out => Sys2Proof.Machine.execSidebandFaultCleared out s
  | .oldAssociationExpiry host sub => Sys2Proof.Machine.execOldAssociationExpiry host sub s
  | .jobAdmissionEnd => Sys2Proof.Machine.execJobAdmissionEnd s
  | .pfcPauseExpiry host sub prio => Sys2Proof.Machine.execPfcPauseExpiry host sub prio s
  | .entropyHealthFail => Sys2Proof.Machine.execEntropyHealthFail s
  | .supplyMeasure vinMv stbyMv => Sys2Proof.Machine.execSupplyMeasure vinMv stbyMv s

end Sys2Proof.Machine
end

