-- ==== Sys2Proof/Machine/Tick.lean ====
section
/-! DEFINITION. Tick.lean: one crystal cycle of 40 ns (R47, R50, R272 to R274, R590; log entry 2). -/

namespace Sys2Proof.Machine

/-! ### Under which counter a unit's ticks fall (R272), by the order of R273's offsets -/

def causeBusy : Fin 10 := 0
def causeIdle : Fin 10 := 1
def causeOperand : Fin 10 := 2
def causeConvergence : Fin 10 := 3
def causeCredit : Fin 10 := 4
def causeToken : Fin 10 := 5
def causeBlocked : Fin 10 := 6
def causeBallast : Fin 10 := 7
def causeFabric : Fin 10 := 8
def causeConfirmation : Fin 10 := 9

/-- A unit with nothing started: idle, a token wait at the queue head (R93), or about to start. -/
def State.headCause (s : State) (g : Fin 32) (q : QueueId) : Fin 10 :=
  match s.headDesc g q with
  | none => causeIdle
  | some d => if headState s.clusters[g] q d = .waits then causeToken else causeBusy

/-- A unit with a queue: `active` is the cause while a descriptor is worked on. -/
def State.queueCause (s : State) (g : Fin 32) (q : QueueId) (active : Fin 10) : Fin 10 :=
  if (s.activeDesc g q).isSome then active
  else if s.clusters[g].waitsSummary q then causeCredit
  else if !(s.queue g q).running.isEmpty then causeBusy
  else s.headCause g q

/-- A pass owes tiles for which the finished-tile queue has no room (R328, R369). -/
def Core.tilesWait (c : Core) : Bool :=
  decide (c.vec.ftqSlots ≤ c.vec.ftq.length) && (tileNext c.mtx.jobs).isSome

/-- The ramp holds an array below full rate: in its first three quarters (R79). -/
def BallastState.holds : BallastState → Bool
  | .ramp q => decide (q ≠ 3)
  | _ => false

/-- An operand of a command lies in explicit scratch, which may fall short of the array's rate (R320). -/
def MatrixJob.fromScratch (j : MatrixJob) : Bool :=
  let c := (descMat j.run.q.desc).1
  ([c.aLoc, c.bLoc] ++ (if mxCode c.aFmt then [c.aScale] else []) ++
    (if mxCode c.bFmt ∧ c.sparse ≠ 3 then [c.bScale] else []) ++ (if c.cMode = 0 then [] else [c.cLoc])).any (fun l => bitOf l 25)

/-- A pass fires and makes no progress: the limit of R599 holds it, or operands of its command, the newest with a pass in flight, fall
short, which shows in the buffer, where they come from scratch (R320); operands from the store never do. -/
def State.firingCause (s : State) (n : Fin 256) : Fin 10 :=
  let scratch := (s.cores[n].mtx.jobs.reverse.find? (fun j => j.passes.any Pass.inContext)).any MatrixJob.fromScratch
  let supplied := !scratch || Config.advances (uidEngine n.val 1).toNat s.aon.rtc
  if s.aon.arrayLimit < 100 ∧ supplied then causeBallast else if scratch then causeOperand else causeBusy

/-- The matrix engine (R82, R272, R311): ballast while the array fires ballast, or is held by the ramp or by the limit of R599;
operand wait while its next pass is held, credit wait while that waits for a context or a tile for a slot. -/
def State.matrixCause (s : State) (n : Fin 256) (works : Bool) : Fin 10 :=
  let m := s.cores[n].mtx
  if m.ballast = .ballast then causeBallast
  else if works && s.matrixFires n then causeBusy
  else s.queueCause (clusterOfCore n) (.matrix (coreK n))
    (if m.ballast.holds then causeBallast
     else if s.matrixFires n then s.firingCause n
     else if m.nextHeld n s.cores[n].tbuf then causeOperand
     else if m.nextWaits || s.cores[n].tilesWait then causeCredit
     else if works then causeBusy
     else causeOperand)

/-- A vector engine whose CHAIN takes tiles waits while its queue holds none. -/
def State.vectorCause (s : State) (n : Fin 256) (works : Bool) : Fin 10 :=
  s.queueCause (clusterOfCore n) (.vector (coreK n))
    (if s.engineState n (.vector (coreK n)) = 2 then causeOperand else if works then causeBusy else causeOperand)

/-- A unit on a link die, an edge or a port: a source whose grants are fabric waits (R272). -/
def isFabricUnit (u : BitVec 16) : Bool := decide (0xC000 ≤ u.toNat) || (List.range 8).any (fun e => decide (u = edgeUid e))

/-- The Trellis arbiters at the stops of a packet's way, on a virtual channel (R20, R22, R231). -/
def legArbs (vc : Fin 4) : Leg → List ArbId
  | .mesh d hops => hops.map (fun x => .trellis (Fin.ofNat 4 d) x.1 x.2 vc)
  | .edge _ => []

/-- An access to an address waits on the fabric: it goes to a unit of a link die, or a source on the fabric holds the grant of its
pseudo-channel, or of an arbiter on the way there or back (R272). -/
def State.fabricHolds (s : State) (issuer : Issuer) (a : Nat) : Bool :=
  let held (x : ArbId) : Bool := (s.arb x).grant.any (fun x => isFabricUnit x.ask.source)
  if a < hbmEnd then
    let k := stackOf a
    let way (vc : Fin 4) (a b : Site) : List ArbId := ((s.legsTo a b).getD []).flatMap (legArbs vc)
    held (.channel k (Fin.ofNat 64 (hbmPlace a).pc)) || (way 0 (issuerSite k issuer) (stackSite k)).any held ||
      (way 1 (stackSite k) (issuerSite k issuer)).any held
  else match regUnitOf a with
    | some (.link _ _, _) => true
    | _ => false

/-- The thread unit (R272): its oldest entry waits on the fabric; no thread is ready, one at least for the bank cap alone; or every
thread waits for data or slots. -/
def State.threadCause (s : State) (n : Fin 256) (works : Bool) : Fin 10 :=
  let t := s.cores[n].thr
  s.queueCause (clusterOfCore n) (.thread (coreK n))
    (if works then causeBusy
     else match t.job with
      | none => causeOperand
      | some j =>
        let turns := (List.range j.next.length).map (s.threadTurn n j t.cap)
        if (j.inFlight.head?).any (fun e => s.fabricHolds (.descriptor (clusterOfCore n) (.thread (coreK n))) e.remote) then causeFabric
        else if turns.contains .ready then causeOperand
        else if turns.contains .held then causeConvergence
        else if j.inFlight.isEmpty then causeOperand
        else causeBlocked)

/-- The transfer engine (R272): its oldest access, to the source of a COPY or the destination of a FILL, waits on the fabric. -/
def State.transferCause (s : State) (n : Fin 256) (works : Bool) : Fin 10 :=
  let g := clusterOfCore n
  let q := QueueId.transfer (coreK n)
  let c := (s.activeDesc g q).map (fun r => copyCtl r.q.desc)
  s.queueCause g q
    (if works then causeBusy
     else if c.any (fun c => s.fabricHolds (.descriptor g q) (if c.fill then c.dst else c.src)) then causeFabric
     else causeOperand)

/-- The transposing buffer has no queue: it works while a matrix command or a CONVERT is under way; it waits for operand data, also
such as a pass in flight has still to write (R310), or for the array, which has no context for a further pass (R274). -/
def State.tbufCause (s : State) (n : Fin 256) (works : Bool) : Fin 10 :=
  let m := s.cores[n].mtx
  if m.jobs.isEmpty ∧ (s.matrixNext n 4).isNone then causeIdle
  else if works then causeBusy
  else if m.nextHeld n s.cores[n].tbuf then causeOperand
  else if m.nextWaits then causeCredit
  else causeOperand

def State.engineCause (s : State) (n : Fin 256) (e : Fin 6) (works : Bool) : Fin 10 :=
  let wait := if works then causeBusy else causeOperand
  match e with
  | 0 => s.matrixCause n works
  | 1 => s.tbufCause n works
  | 2 => s.vectorCause n works
  | 3 => s.queueCause (clusterOfCore n) (.row (coreK n)) wait
  | 4 => s.transferCause n works
  | 5 => s.threadCause n works

/-- The sequencer (R120, R272). -/
def Sequencer.cause (q : Sequencer) : Fin 10 :=
  match q.state with
  | .halted => causeIdle
  | .faulted => causeIdle
  | .running => if q.load.isSome then causeOperand else causeBusy
  | .waitCredit => causeCredit
  | .waitToken => causeToken
  | .waitSeason => causeToken
  | .waitSummary => causeOperand

def State.harrowCause (s : State) (g : Fin 32) (works : Bool) : Fin 10 :=
  match s.harrowState g with
  | 1 => if works then causeBusy else causeOperand
  | 2 => causeCredit
  | 3 => causeToken
  | _ => s.headCause g .harrow

/-- A row of a table comes over the fabric: from another device, or by an access that the fabric holds. -/
def State.rowOverFabric (s : State) (g : Fin 32) (q : QueueId) (t pos row : Nat) : Bool :=
  (s.table t).any (fun td => match s.locate (.ofCluster g .any) t td pos row with
    | .ok (dev, _, addr) => decide (dev ≠ s.devNumber) || s.fabricHolds (.descriptor g q) addr
    | .error _ => false)

/-- The oldest access of the Rake front end waits on the fabric: the first row on its way, the next member of a bag, the next list
entry, or, with no gather under way, the answer on a staged row. -/
def State.rakeOnFabric (s : State) (g : Fin 32) : Bool :=
  match s.clusters[g].rake.jobs with
  | [] => !(s.stagedRows g (fun x => match x with
      | .asked _ => true
      | _ => false)).isEmpty
  | j :: _ =>
    let c := rakeCtl j.run.q.desc
    match j.items, j.bag with
    | i :: _, _ => i.tag.isSome || s.rowOverFabric g .rake c.table (i.positions.headD 0) i.row
    | [], some b =>
      (b.tag.isSome && b.reply.isNone) || (match s.readEntry g c b.pos with
        | .ok row => s.rowOverFabric g .rake c.table b.pos row
        | .error _ => false)
    | [], none => s.fabricHolds (.descriptor g .rake) (c.list + j.next * (if c.listFmt = 0 then 4 else 8))

def State.rakeCause (s : State) (g : Fin 32) (works : Bool) : Fin 10 :=
  s.queueCause g .rake (if works then causeBusy else if s.rakeOnFabric g then causeFabric else causeOperand)

/-- What holds a FLUSH back waits on the fabric: its oldest partial for an owner on this device, or, with none left, one that another
device has not acknowledged. -/
def State.flushOnFabric (s : State) (g : Fin 32) : Bool :=
  match s.partials.find? (fun p => decide (p.cluster = some g.val)) with
  | some p => s.rowOverFabric g .sprinkler p.table 0 p.row
  | none => !s.partialsRecorded g

/-- The Sprinkler front end: a SCATTER waits for the previous step's shadow log (R206), a FLUSH for its partials to be recorded. -/
def State.sprinklerCause (s : State) (g : Fin 32) (works : Bool) : Fin 10 :=
  let x := s.clusters[g].sprinkler
  s.queueCause g .sprinkler
    (if works then causeBusy
     else if (s.activeOp g .sprinkler 1).isSome && x.job.isNone && s.shadowPending then causeConfirmation
     else if (s.activeOp g .sprinkler 2).isSome && s.flushOnFabric g then causeFabric
     else causeOperand)

def State.unitCause (s : State) (g : Fin 32) (u : Fin 4) (works : Bool) : Fin 10 :=
  match u with
  | 0 => s.clusters[g].seq.cause
  | 1 => s.harrowCause g works
  | 2 => s.rakeCause g works
  | 3 => s.sprinklerCause g works

/-! ### A crystal cycle -/

/-- `n` ticks under one cause. -/
def Stall.count (n : Nat) (c : Fin 10) (x : Stall) : Stall := { x with counts := x.counts.set c (wrap64 x.counts[c] n) }

/-- A core of a cluster that is on: each engine's ticks fall under one cause. -/
def State.coreTicks (s : State) (n : Fin 256) : Core :=
  let c := s.cores[n]
  let g := clusterOfCore n
  if s.clusterOn g then
    let k := Config.ticks g.val s.aon.rtc
    { c with stalls := Vector.ofFn (fun (e : Fin 6) =>
        c.stalls[e].count k (if s.clusterLive g
          then s.engineCause n e (Config.advances (uidEngine n.val e.val).toNat s.aon.rtc) else causeIdle)) }
  else c

/-- A cluster that is on: its oscillator counts, and its units' ticks fall under one cause each. -/
def State.clusterTicks (s : State) (g : Fin 32) : Cluster :=
  let c := s.clusters[g]
  if s.clusterOn g then
    let k := Config.ticks g.val s.aon.rtc
    { c with
      osc := { c.osc with tick := wrap64 c.osc.tick k }
      stalls := Vector.ofFn (fun (u : Fin 4) =>
        c.stalls[u].count k (if s.clusterLive g
          then s.unitCause g u (Config.advances (uidCluster g.val u.val).toNat s.aon.rtc) else causeIdle)) }
  else c

/-- The regulator of a die that is on moves toward 10 times the effective VCORE, by at most 4 tenths of a millivolt (R47, R598). -/
def State.slewed (s : State) (d : Fin 4) : Die :=
  let x := s.dies[d]
  if s.bedOn (bedDie d.val) then
    let target := 10 * s.vcoreEffective d
    let k := min 4 (Config.slew d.val s.aon.rtc)
    { x with vcore := if x.vcore ≤ target then min target (x.vcore + k) else max target (x.vcore - k) }
  else x

/-- What falls due with a crystal cycle: granules to retire (R239), the end of a job that is ending (R516), the close of a recovery
whose last retry has ended (R112), and changes of subscribed values (R510). -/
def State.cycleDue (s : State) : State := s.retireDue.endEnding.settleRecovery.noteSubs

/-- One crystal cycle: the real-time counter (R590) and the junction measurement (R515), the oscillators and stall counters, the
regulators; then what falls due. -/
def crystalCycle (s : State) : State :=
  if s.aon.powered then
    ({ s with
      clusters := Vector.ofFn s.clusterTicks
      cores := Vector.ofFn s.coreTicks
      dies := Vector.ofFn s.slewed
      aon := { s.aon with rtc := s.aon.rtc + 1, tj := Config.junction s.aon.rtc } } : State).cycleDue
  else s

end Sys2Proof.Machine
end

