-- ==== Sys2Proof/Machine/Step.lean ====
section
/-! DEFINITION. Step.lean: one step of the block, and putting a command in front of its queue. -/

namespace Sys2Proof.Machine

/-- Takes the command at the front of the queue; on an empty queue one crystal cycle passes (log entry 2). -/
def step (s : State) : Host.Outcome State Fault Refusal :=
  match s.pending with
  | [] => .next (crystalCycle s)
  | c :: rest => exec c { s with pending := rest }

/-- Puts the command that a table word spells in front of the queue; no row has bits, so nothing changes. -/
def State.withFetchWord (s : State) (nbits w : Nat) : State :=
  match decodeTableWord nbits w with
  | some c => { s with pending := c :: s.pending }
  | none => s

end Sys2Proof.Machine
end

