-- ==== Sys2Proof/Safety.lean ====
section
/-! DEFINITION. Safety.lean: the words in which the statements are put: what a command answers, what it may change, and the
invariants of the block. -/

namespace Sys2Proof.Machine

/-- A command answers a next state, of which `p` holds. -/
def Yields (c : Instr) (s : State) (p : State → Prop) : Prop := ∃ t, exec c s = .next t ∧ p t

/-- A step that neither faults nor refuses. -/
def Goes (s : State) : Prop := ∃ t, step s = .next t

/-! ### Frames: everything outside the named part is as it was -/

def OnlyCluster (g : Fin 32) (s t : State) : Prop := t = { s with clusters := s.clusters.set g t.clusters[g] }
def OnlyCore (n : Fin 256) (s t : State) : Prop := t = { s with cores := s.cores.set n t.cores[n] }
def OnlyDie (d : Fin 4) (s t : State) : Prop := t = { s with dies := s.dies.set d t.dies[d] }
def OnlyStack (k : Fin 12) (s t : State) : Prop := t = { s with hbm := s.hbm.set k t.hbm[k] }
def OnlyPort (p : Fin 16) (s t : State) : Prop := t = { s with ports := s.ports.set p t.ports[p] }
def OnlyHost (h : Fin 2) (s t : State) : Prop := t = { s with hosts := s.hosts.set h t.hosts[h] }
def OnlyIngest (i : Fin 2) (s t : State) : Prop := t = { s with ingests := s.ingests.set i t.ingests[i] }

/-- Only the records of events and of health change. -/
def OnlyHealth (s t : State) : Prop := t = { s with health := t.health }

/-- A cluster and the event records. -/
def OnlyClusterEvents (g : Fin 32) (s t : State) : Prop :=
  t = { s with clusters := s.clusters.set g t.clusters[g], health := t.health }

/-- Only a cluster's sequencer block: every other part of the cluster is as it was too. -/
def OnlySeq (g : Fin 32) (s t : State) : Prop :=
  OnlyCluster g s t ∧ t.clusters[g] = { s.clusters[g] with seq := t.clusters[g].seq }

/-- A running sequencer whose instruction is `i`, of operation `opc`, and is not rejected by its word. -/
def Runs (s : State) (g : Fin 32) (opc : Nat) (i : SeqInstr) : Prop :=
  s.seqRuns g = true ∧ seqDecode s.clusters[g].seq.word = i ∧ i.opc = opc ∧ seqWordBad s.clusters[g].seq.word = false

/-- The sequencer goes on to instruction `pc`, and nothing else of its block changes. -/
def SeqAt (g : Fin 32) (pc : Nat) (s t : State) : Prop :=
  t.clusters[g].seq = { s.clusters[g].seq with pc := pc }

/-- Register `r` takes `v`, unless it is s0; the sequencer goes on to the next instruction; nothing else changes. -/
def SeqWrites (g : Fin 32) (r : Fin 32) (v : Word) (s t : State) : Prop :=
  OnlySeq g s t ∧ (∀ x, t.clusters[g].seq.reg x = if x = r ∧ r ≠ 0 then v else s.clusters[g].seq.reg x) ∧
    t.clusters[g].seq = { s.clusters[g].seq with regs := t.clusters[g].seq.regs, pc := s.clusters[g].seq.pc + 1 }

/-- A memory that differs only in `n` bytes from an address. -/
def SameMemoryBut (a n : Nat) (s t : State) : Prop := ∀ x, x < a ∨ a + n ≤ x → t.mem.read x = s.mem.read x

/-! ### Requests to the management agent -/

/-- The state with the oldest admitted request taken: one with AUTH uses its session. -/
def State.took (s : State) (r : BreopReq) : State := (s.modAgent (fun a => { a with requests := a.requests.drop 1 })).accept r

/-- `r` is the oldest admitted request; it is not answered yet, its format is right, and its session, where it has one, accepts it. -/
def Asked (s : State) (r : BreopReq) : Prop :=
  s.agentUp = true ∧ s.agent.requests.head? = some r ∧ s.keptFor r.src r.reqId = none ∧ r.badFormat = false ∧
    (r.auth = true → (s.sessionFor r).isSome = true)

/-- The answer to `r` with a status and a payload, signed for its session. -/
def State.responseTo (s : State) (r : BreopReq) (status : Nat) (payload : List Byte) : BreopResp :=
  (respTo r status payload).signed (s.sessionOf r)

/-- A message of the agent leaves by the management port, or is held back while its transmit FIFO asserts FLOW; or, in band, it leaves by
its sub-port, waits there, or is not sent by a sub-port that may not send. -/
def AgentSends (m : BreopResp) (s t : State) : Prop :=
  match m.via with
  | none => t.heldHost = s.heldHost ∧ t.hosts = s.hosts ∧
    if (s.fifo ⟨.mgmtTx, 0⟩).flow = true then t.sent = s.sent ∧ t.heldMgmt = s.heldMgmt ++ [.breop m]
    else t.sent = s.sent ++ [.breop m] ∧ t.heldMgmt = s.heldMgmt
  | some v => t.heldMgmt = s.heldMgmt ∧
    if s.subSends v.host v.sub = false then t.sent = s.sent ∧ t.heldHost = s.heldHost
    else if s.frameWaits v.host v.sub v.prio = true then
      t.sent = s.sent ∧ t.heldHost = s.heldHost ++ [{ host := v.host, sub := v.sub.val, prio := v.prio, msg := .breop m, frames := 1 }]
    else t.sent = s.sent ++ [s.hosts[v.host].subs[v.sub].secure (.breop m)] ∧ t.heldHost = s.heldHost

/-- The answer to `r` is sent, and nothing changes but the agent and what goes out. -/
def Answers (r : BreopReq) (status : Nat) (payload : List Byte) (s t : State) : Prop :=
  AgentSends (s.responseTo r status payload) s t ∧ t.agent.requests = s.agent.requests.drop 1 ∧
    t = { s with sent := t.sent, heldMgmt := t.heldMgmt, heldHost := t.heldHost, hosts := t.hosts, agent := t.agent }

/-- The state after an answer: subscriptions have looked at their objects, and the requests that come next and are not to be executed
are answered too. -/
def Settled (P : State → Prop) (t : State) : Prop := ∃ u : State, P u ∧ t = u.noteSubs.settleAgent

/-- A host port answers on a queue pair: the message goes out, under MACsec where its sub-port has keys, waits where its priority is
paused or the transmit FIFO asserts FLOW, or is not sent by a sub-port that may not send. -/
def HostAnswers (h : Fin 2) (q : QueuePair) (m : Sent) (frames : Nat) (s t : State) : Prop :=
  let i := fin4 q.cfg.sub
  if s.subSends h i = false then t.sent = s.sent ∧ t.heldHost = s.heldHost
  else if s.frameWaits h i q.prio = true then
    t.sent = s.sent ∧ t.heldHost = s.heldHost ++ [{ host := h, sub := q.cfg.sub, prio := q.prio, msg := m, frames := frames }]
  else t.sent = s.sent ++ [s.hosts[h].subs[i].secure m] ∧ t.heldHost = s.heldHost

/-! ### Invariants -/

/-- R100: a launch table never holds an entry that fails its checks. -/
def LaunchTablesOk (s : State) : Prop := ∀ g : Fin 32, ∀ p ∈ s.clusters[g].launch, launchOk p.2 = true

/-- The sequencers' program counters stay in 0 to 2,047 (R118), and Seasons and their limits in 48 bits (R106, R116). -/
def SequencersOk (s : State) : Prop :=
  ∀ g : Fin 32, s.clusters[g].seq.pc < 2048 ∧ s.clusters[g].seasonLimit < 2 ^ 48

/-- The sum of a unit's ten stall counters (R274). -/
def stallSum (v : Vector Word 10) : Word := v.toList.foldl (· + ·) 0

end Sys2Proof.Machine
end

