-- ==== Sys2Proof/Certificates/Slice0/Obligations.lean ====
section
/-! DEFINITION. Obligations.lean: the statements for the provers. -/

open Sys2Proof Sys2Proof.Machine

/-- A window of step 2 decides its bit of TRIM_CODE by the count and sets the next bit; the other bits stay. A
measurement of step 3 asks for one more with the code one higher, or ends the trim LOCKED or FAILED and latches
the anchors. A retrim request starts a measurement unless one runs. Auto-retrim steps the code toward zero error.
The rate monitor takes the factor measured. Nothing outside the cluster changes but the event records and the
count of free values. -/
def Obligations.TrimSearchesAndMeasures : Prop :=
  (∀ (g : Fin 32) (count : Nat) (s : State) (b : Fin 12), s.clusterOn g = true → s.clusters[g].osc.phase = .window b →
    Yields (.trimWindowEnd g count) s (fun t => OnlyCluster g s t ∧
      t.clusters[g] = { s.clusters[g] with osc := t.clusters[g].osc } ∧
      t.clusters[g].osc.trimCode.getLsbD b.val = decide (count ≤ 163840) ∧
      (b.val = 0 → t.clusters[g].osc.phase = .measure true) ∧
      (∀ n : Fin 12, b.val = n.val + 1 → t.clusters[g].osc.phase = .window n ∧ t.clusters[g].osc.trimCode.getLsbD n.val = true) ∧
      (∀ j : Fin 12, j ≠ b → j.val + 1 ≠ b.val →
        t.clusters[g].osc.trimCode.getLsbD j.val = s.clusters[g].osc.trimCode.getLsbD j.val))) ∧
  (∀ (g : Fin 32) (count : Nat) (s : State) (again : Bool), s.clusterOn g = true → s.clusters[g].osc.phase = .measure again →
    Yields (.trimMeasureEnd g count) s (fun t =>
      t = { s with clusters := s.clusters.set g t.clusters[g], health := t.health, free := s.free + 1 } ∧
      (∃ up : Bool, t.clusters[g].osc.error = trimError count up) ∧
      (if trimRepeats count again s.clusters[g].osc then
        t.clusters[g].osc.trimCode = s.clusters[g].osc.trimCode + 1 ∧ t.clusters[g].osc.phase = .measure false
       else t.clusters[g].osc.phase = .idle ∧ t.clusters[g].osc.trimmed = true ∧
        t.clusters[g].osc.anchorTick = s.clusters[g].osc.tick ∧ t.clusters[g].osc.anchorRtc = s.aon.rtc ∧
        t.clusters[g].osc.trimState = if trimWithin30 count then TrimState.locked else .failed))) ∧
  (∀ (g : Fin 32) (count : Nat) (s : State), s.clusterOn g = true → s.objNum 0x4021 1 ≠ 0 →
      s.clusters[g].osc.trimmed = true → s.clusters[g].osc.phase = .idle →
    Yields (.autoRetrim g count) s (fun t =>
      t = { s with clusters := s.clusters.set g t.clusters[g], free := s.free + 1 } ∧
      (∃ up : Bool, t.clusters[g].osc.error = trimError count up) ∧
      t.clusters[g].osc.anchorTick = s.clusters[g].osc.anchorTick ∧ t.clusters[g].osc.anchorRtc = s.clusters[g].osc.anchorRtc ∧
      t.clusters[g].osc.trimCode = retrimCode count s.clusters[g].osc.trimCode)) ∧
  (∀ (g : Fin 32) (s : State), s.clusterOn g = true → s.clusterFenced g = false → s.clusters[g].osc.trimState ≠ .trimming →
    Yields (.trimReq g) s (fun t => OnlyCluster g s t ∧ t.clusters[g] = { s.clusters[g] with
      osc := { s.clusters[g].osc with trimState := .trimming, phase := .measure true } })) ∧
  (∀ (g : Fin 32) (f : BitVec 16) (s : State), s.clusterOn g = true →
    Yields (.rateMonUpdate g f) s (fun t => OnlyCluster g s t ∧
      t.clusters[g] = { s.clusters[g] with osc := { s.clusters[g].osc with rateMon := f } }))

/-- A TRIM_REQ command to a cluster whose trim state is TRIMMING leaves the whole state as it was. The measurement
that ends a retrim, with no further one asked for, leaves STATE LOCKED where its error is within 30 ppm and
FAILED where it is not. -/
def Obligations.RetrimRequestWhileTrimmingHasNoEffect : Prop :=
  (∀ (g : Fin 32) (s : State), s.clusters[g].osc.trimState = .trimming → exec (.trimReq g) s = .next s) ∧
  (∀ (g : Fin 32) (count : Nat) (s : State) (again : Bool), s.clusterOn g = true → s.clusters[g].osc.phase = .measure again →
      trimRepeats count again s.clusters[g].osc = false →
    Yields (.trimMeasureEnd g count) s (fun t =>
      t.clusters[g].osc.trimState = if trimWithin30 count then TrimState.locked else .failed))

/-- In an instance without packets a writer that finds FULL clear stores its data at the tail. In one with packets it
stores a HEAD where no packet is open, and DATA and LAST into an open packet that has room; the LAST writes LEN
and ABORT into the HEAD. With FULL set, or an item that does not fit, the state stays. A reader with EMPTY clear
takes the head; a crossing gives the reader the visible items and the writer the items taken; a WM in range is
taken at once. Only the FIFOs, and the pauses and held messages that follow a FLOW output, change. -/
def Obligations.FifoStoresTakesAndCrosses : Prop :=
  (∀ (f : FifoId) (bits : Nat) (s : State), s.fifoWorks f = true → (s.fifo f).full = false → fifoMaxPacket f.kind = none →
    Yields (.fifoWrite f (.data bits)) s (fun t =>
      (t.fifo f).items = (s.fifo f).items ++ [⟨.data, bits % 2 ^ fifoWidth f.kind, none, false⟩] ∧
      (t.fifo f).wptr = (s.fifo f).wptr + 1 ∧ (t.fifo f).rptr = (s.fifo f).rptr ∧
      (t.fifo f).full = decide (fifoDepth f.kind ≤ (s.fifo f).wptr + 1 - (s.fifo f).rptrSeen) ∧
      t = { s with fifos := t.fifos, hosts := t.hosts, sent := t.sent, heldHost := t.heldHost, heldMgmt := t.heldMgmt })) ∧
  (∀ (f : FifoId) (m : Nat) (s : State), s.fifoWorks f = true → (s.fifo f).full = false → fifoMaxPacket f.kind = some m →
      openPacket (s.fifo f).items = none →
    Yields (.fifoWrite f .head) s (fun t => (t.fifo f).items = (s.fifo f).items ++ [⟨.head, 0, none, false⟩] ∧
      (t.fifo f).wptr = (s.fifo f).wptr + 1 ∧ (t.fifo f).rptr = (s.fifo f).rptr ∧
      t = { s with fifos := t.fifos, hosts := t.hosts, sent := t.sent, heldHost := t.heldHost, heldMgmt := t.heldMgmt })) ∧
  (∀ (f : FifoId) (m n bits : Nat) (s : State), s.fifoWorks f = true → (s.fifo f).full = false →
      fifoMaxPacket f.kind = some m → openPacket (s.fifo f).items = some n → n + 1 ≤ m →
    Yields (.fifoWrite f (.data bits)) s (fun t =>
      (t.fifo f).items = (s.fifo f).items ++ [⟨.data, bits % 2 ^ fifoWidth f.kind, none, false⟩] ∧
      (t.fifo f).wptr = (s.fifo f).wptr + 1 ∧ (t.fifo f).rptr = (s.fifo f).rptr ∧
      t = { s with fifos := t.fifos, hosts := t.hosts, sent := t.sent, heldHost := t.heldHost, heldMgmt := t.heldMgmt })) ∧
  (∀ (f : FifoId) (m n bits : Nat) (abort : Bool) (s : State), s.fifoWorks f = true → (s.fifo f).full = false →
      fifoMaxPacket f.kind = some m → openPacket (s.fifo f).items = some n → n ≤ m →
    Yields (.fifoWrite f (.last bits abort)) s (fun t =>
      (t.fifo f).items = closeHead n abort
        ((s.fifo f).items ++ [⟨.last, bits % 2 ^ fifoWidth f.kind, none, false⟩]) ∧
      (t.fifo f).wptr = (s.fifo f).wptr + 1 ∧ (t.fifo f).rptr = (s.fifo f).rptr ∧
      t = { s with fifos := t.fifos, hosts := t.hosts, sent := t.sent, heldHost := t.heldHost, heldMgmt := t.heldMgmt })) ∧
  (∀ (f : FifoId) (put : FifoPut) (s : State), (s.fifo f).full = true ∨
      ((fifoMaxPacket f.kind).isSome = true ∧ put = .head ∧ (openPacket (s.fifo f).items).isSome = true) ∨
      (∃ bits m, fifoMaxPacket f.kind = some m ∧ put = .data bits ∧ ∀ n, openPacket (s.fifo f).items = some n → m < n + 1) ∨
      (∃ bits a m, fifoMaxPacket f.kind = some m ∧ put = .last bits a ∧ ∀ n, openPacket (s.fifo f).items = some n → m < n) ∨
      (fifoMaxPacket f.kind = none ∧ ∀ bits, put ≠ .data bits) →
    exec (.fifoWrite f put) s = .next s) ∧
  (∀ (f : FifoId) (i : FifoItem) (rest : List FifoItem) (s : State), s.fifoWorks f = true → (s.fifo f).empty = false →
      (s.fifo f).items = i :: rest →
    Yields (.fifoRead f) s (fun t => (t.fifo f).items = rest ∧ (t.fifo f).rptr = (s.fifo f).rptr + 1 ∧
      ((s.fifo f).discard = false → i.abort = false → (t.fifo f).lastRead = i) ∧ t = { s with fifos := t.fifos })) ∧
  (∀ (f : FifoId) (s : State), s.fifoWorks f = true →
    Yields (.pointerCrossing f .reader) s (fun t =>
      (t.fifo f).wptrSeen = (s.fifo f).rptr + visibleItems (s.fifo f).items ∧
      (t.fifo f).empty = decide (visibleItems (s.fifo f).items = 0) ∧ (t.fifo f).items = (s.fifo f).items ∧
      t = { s with fifos := t.fifos, hosts := t.hosts, sent := t.sent, heldHost := t.heldHost, heldMgmt := t.heldMgmt })) ∧
  (∀ (f : FifoId) (s : State), s.fifoWorks f = true →
    Yields (.pointerCrossing f .writer) s (fun t =>
      (t.fifo f).rptrSeen = (s.fifo f).rptr ∧
      (t.fifo f).full = decide (fifoDepth f.kind ≤ (s.fifo f).wptr - (s.fifo f).rptr) ∧
      (t.fifo f).items = (s.fifo f).items ∧
      t = { s with fifos := t.fifos, hosts := t.hosts, sent := t.sent, heldHost := t.heldHost, heldMgmt := t.heldMgmt })) ∧
  (∀ (f : FifoId) (v : U32) (s : State), f.ok = true → s.bedOn (regBed (fifoUnit f).1) = true →
      (regFenceUnit (fifoUnit f).1).any s.fenced = false →
      v.toNat / 65536 < v.toNat % 65536 → v.toNat % 65536 ≤ fifoDepth f.kind →
    Yields (.wmWrite f v) s (fun t => (t.fifo f).high = v.toNat % 65536 ∧ (t.fifo f).low = v.toNat / 65536 ∧
      (t.fifo f).flow = flowNext (s.fifo f).flow (fifoOccupancy (s.fifo f)) (v.toNat % 65536) (v.toNat / 65536) ∧
      (t.fifo f).items = (s.fifo f).items ∧
      t = { s with fifos := t.fifos, hosts := t.hosts, sent := t.sent, heldHost := t.heldHost, heldMgmt := t.heldMgmt }))

/-- A FIFO_READ of a working instance whose EMPTY flag is set gives the idle item, all data bits zero with TAG IDLE,
and leaves the read pointer and the stored items as they were; every other part of the state stays. -/
def Obligations.EmptyFifoReadReturnsIdleItem : Prop :=
  ∀ (f : FifoId) (s : State), s.fifoWorks f = true → (s.fifo f).empty = true →
    Yields (.fifoRead f) s (fun t => (t.fifo f).lastRead = { tag := .idle, bits := 0, len := none, abort := false } ∧
      (t.fifo f).rptr = (s.fifo f).rptr ∧ (t.fifo f).items = (s.fifo f).items ∧ t = { s with fifos := t.fifos })

/-- A WM_WRITE of a value whose LOW is at or above its HIGH, or whose HIGH is above the depth, leaves the instances
as they are and, while the ROT bed is on, appends one configuration event; a valid write takes effect so that
FLOW asserts at once if the occupancy already reaches the new HIGH. -/
def Obligations.WatermarksOutOfOrderAreRefused : Prop :=
  ∀ (f : FifoId) (v : U32) (s : State), f.ok = true → s.bedOn (regBed (fifoUnit f).1) = true →
      (regFenceUnit (fifoUnit f).1).any s.fenced = false →
    (v.toNat % 65536 ≤ v.toNat / 65536 ∨ fifoDepth f.kind < v.toNat % 65536 →
      Yields (.wmWrite f v) s (fun t => OnlyHealth s t ∧
        (s.bedOn bedRot = true → ∃ e : Event, t.health.raised = s.health.raised ++ [e] ∧ e.code = 0x0102))) ∧
    (v.toNat / 65536 < v.toNat % 65536 → v.toNat % 65536 ≤ fifoDepth f.kind →
      Yields (.wmWrite f v) s (fun t => (t.fifo f).high = v.toNat % 65536 ∧ (t.fifo f).low = v.toNat / 65536 ∧
        ((t.fifo f).high ≤ fifoOccupancy (s.fifo f) → (t.fifo f).flow = true)))

/-- A refresh sends a PFC frame with pause time 0xFFFF for the ingest priority while that is held paused, and for
each lossless priority of the pool while those are, on every sub-port whose link is up. A PFC frame received
pauses a priority, or resumes it with time 0. A pause time that runs out resumes. What may go then goes out, and
with nothing held back only the host port changes. A changed link of a sub-port is kept and is a capacity change. -/
def Obligations.PausesAreSentAndKept : Prop :=
  (∀ (h : Fin 2) (s : State),
    Yields (.pfcPauseRefresh h) s (fun t =>
      t.sent = s.sent ++
        (if s.ingestPaused h then (s.subsUp h).map (fun i => Sent.pfc h.val i.val s.hosts[h].ingestPrio 0xFFFF) else []) ++
        (if s.poolPaused h then (s.poolPriorities h).flatMap (fun p =>
          (s.subsUp h).map (fun i => Sent.pfc h.val i.val p 0xFFFF)) else []) ∧
      t = { s with hosts := s.hosts.set h { s.hosts[h] with pfcTx := t.hosts[h].pfcTx }, sent := t.sent })) ∧
  (∀ (h : Fin 2) (sub : Fin 4) (prio : Fin 8) (time : BitVec 16) (s : State), s.hostLive h = true →
      s.subExists h sub = true → s.hosts[h].subs[sub].link = true →
    Yields (.pfcFrame h sub prio time) s (fun t => t.hosts[h].pfcRx = s.hosts[h].pfcRx + 1 ∧
      tabFind t.hosts[h].subs[sub].paused prio.val = (if time = 0 then none else some time.toNat) ∧
      t = { s with hosts := t.hosts, sent := t.sent, heldHost := t.heldHost } ∧ (s.heldHost = [] → OnlyHost h s t))) ∧
  (∀ (h : Fin 2) (sub : Fin 4) (prio : Fin 8) (s : State),
    Yields (.pfcPauseExpiry h sub prio) s (fun t => tabFind t.hosts[h].subs[sub].paused prio.val = none ∧
      t = { s with hosts := t.hosts, sent := t.sent, heldHost := t.heldHost } ∧ (s.heldHost = [] → OnlyHost h s t))) ∧
  (∀ (h : Fin 2) (sub : Fin 4) (up : SubLink) (s : State), s.bedOn (bedHost h.val) = true → s.subExists h sub = true →
      s.hosts[h].subs[sub].link ≠ up.isUp → (up.isUp && s.hosts[h].unclocked) = false →
    Yields (.subPortLinkChange h sub up) s (fun t => t.hosts[h].subs[sub].link = up.isUp ∧ t.health.capCause.isSome = true ∧
      t = { s with hosts := s.hosts.set h t.hosts[h], health := t.health }))

/-- An idle array that has fired, fires no pass any more and is not wound down counts a ballast firing, and no real
one, unless its gap is 0 or its bed has an off request; at the end of the gap it is wound down; a quarter of the
ramp leads to the next, the fourth to the full rate. The parameters are those in force as the idle interval
began. Only the core's array changes. -/
def Obligations.BallastFillsWindsDownAndRamps : Prop :=
  (∀ (n : Fin 256) (s : State), s.clusterLive (clusterOfCore n) = true → s.beds[bedCluster (clusterOfCore n).val].target = true →
      s.cores[n].mtx.ballast ≠ .woundDown → s.arrayReady n = false → s.matrixFires n = false →
      (s.idleParams s.cores[n].mtx).gapNs ≠ 0 →
    Yields (.ballastFiring n) s (fun t => OnlyCore n s t ∧ t.cores[n] = { s.cores[n] with
      mtx := { s.idleParams s.cores[n].mtx with ballast := .ballast, ballastFirings := s.cores[n].mtx.ballastFirings + 1 } })) ∧
  (∀ (n : Fin 256) (s : State), s.beds[bedCluster (clusterOfCore n).val].target = false ∨
      s.clusterLive (clusterOfCore n) = false ∨ s.cores[n].mtx.ballast = .woundDown ∨ s.arrayReady n = true ∨
      s.matrixFires n = true →
    exec (.ballastFiring n) s = .next s) ∧
  (∀ (n : Fin 256) (s : State), s.clusterLive (clusterOfCore n) = true →
      s.cores[n].mtx.ballast ≠ .woundDown → s.arrayReady n = false → s.matrixFires n = false →
      (s.idleParams s.cores[n].mtx).gapNs ≠ 0 →
    Yields (.ballastWindDown n) s (fun t => OnlyCore n s t ∧ t.cores[n] = { s.cores[n] with
      mtx := { s.idleParams s.cores[n].mtx with ballast := .woundDown } })) ∧
  (∀ (n : Fin 256) (q : Fin 4) (s : State), s.cores[n].mtx.ballast = .ramp q →
    Yields (.ballastRampStep n) s (fun t => OnlyCore n s t ∧ t.cores[n] = { s.cores[n] with
      mtx := { s.cores[n].mtx with ballast := if q = 3 then BallastState.busy else .ramp (q + 1) } }))

/-- The i-th post on its way to a live cluster counts, saturating, in the bank of its Season where that is the
current Season or the next; a post of an older Season is discarded, LATE_POSTS rises and a late-token event is
raised; a post of a later one is discarded, AHEAD_POSTS rises and a token-range event is raised; a post to a
cluster that takes none raises DROPPED_POSTS of the posting cluster and no event. The post is no longer on its
way. A post behind another of its own source, stream and destination waits. -/
def Obligations.TokenPostsCountInTheirBank : Prop :=
  (∀ (i : Nat) (p : Post) (s : State), s.posts[i]? = some p → (s.posts.take i).any (samePath p) = false →
      s.clusterLive p.cluster = true →
      p.any = true ∨ p.tag = s.clusters[p.cluster].season ∨ p.tag = s.clusters[p.cluster].season + 1 →
    Yields (.tokenPost i) s (fun t =>
      t.clusters[p.cluster].token p.token = tokenCount (s.clusters[p.cluster].token p.token)
        (if p.any then s.clusters[p.cluster].season else p.tag) ∧
      t.clusters[p.cluster].season = s.clusters[p.cluster].season ∧ t.posts = listDel s.posts i ∧
      t = { s with clusters := s.clusters.set p.cluster t.clusters[p.cluster], posts := t.posts, arrivals := t.arrivals })) ∧
  (∀ (i : Nat) (p : Post) (s : State), s.posts[i]? = some p → (s.posts.take i).any (samePath p) = false →
      p.any = false → s.clusterLive p.cluster = true → p.tag < s.clusters[p.cluster].season →
    Yields (.tokenPost i) s (fun t => t.clusters[p.cluster] =
        { s.clusters[p.cluster] with latePosts := inc16 s.clusters[p.cluster].latePosts } ∧
      t = { s with clusters := s.clusters.set p.cluster t.clusters[p.cluster], posts := listDel s.posts i, health := t.health } ∧
      (s.bedOn bedRot = true → ∃ e : Event, t.health.raised = s.health.raised ++ [e] ∧ e.code = 0x0301))) ∧
  (∀ (i : Nat) (p : Post) (s : State), s.posts[i]? = some p → (s.posts.take i).any (samePath p) = false →
      p.any = false → s.clusterLive p.cluster = true → s.clusters[p.cluster].season + 1 < p.tag →
    Yields (.tokenPost i) s (fun t => t.clusters[p.cluster] =
        { s.clusters[p.cluster] with aheadPosts := inc16 s.clusters[p.cluster].aheadPosts } ∧
      t = { s with clusters := s.clusters.set p.cluster t.clusters[p.cluster], posts := listDel s.posts i, health := t.health } ∧
      (s.bedOn bedRot = true → ∃ e : Event, t.health.raised = s.health.raised ++ [e] ∧ e.code = 0x0302))) ∧
  (∀ (i : Nat) (p : Post) (g : Fin 32) (s : State), s.posts[i]? = some p → (s.posts.take i).any (samePath p) = false →
      p.source = some g.val → s.clusterLive p.cluster = false →
    Yields (.tokenPost i) s (fun t => t.clusters[g] = { s.clusters[g] with droppedPosts := inc16 s.clusters[g].droppedPosts } ∧
      t = { s with clusters := s.clusters.set g t.clusters[g], posts := listDel s.posts i })) ∧
  (∀ (i : Nat) (p : Post) (s : State), s.posts[i]? = some p → (s.posts.take i).any (samePath p) = true →
    exec (.tokenPost i) s = .next s)

/-- The head of a queue whose waits are present starts and frees its place; one that still waits leaves the state as
it was; one whose header fails its checks leaves the queue with a format event. A started NOP may complete. A
descriptor that has done its work leaves the queue, puts the summary it owes into the cluster's queue, and with
POST_EN its token is on its way to the cluster it names, tagged with the Season of its start plus POST_NEXT;
while the summary queue is full a descriptor that owes one stays. -/
def Obligations.DescriptorsStartAndComplete : Prop :=
  (∀ (g : Fin 32) (q : QueueId) (d : QDesc) (s : State), s.clusterAccepts g = true → s.queueLive g q = true →
      s.headDesc g q = some d → headState s.clusters[g] q d = .ready →
    Yields (.descriptorStart g q) s (fun t => (t.queue g q).waiting = (s.queue g q).waiting.drop 1 ∧
      t.credits g q = queueDepth q - ((s.queue g q).waiting.length - 1) ∧
      (∃ r : Running, (t.queue g q).running = (s.queue g q).running ++ [r] ∧ r.q = d ∧
        r.season = s.clusters[g].season ∧ r.phase = .started) ∧
      t = { s with clusters := s.clusters.set g t.clusters[g], cores := t.cores })) ∧
  (∀ (g : Fin 32) (q : QueueId) (d : QDesc) (s : State), s.headDesc g q = some d → headState s.clusters[g] q d = .waits →
    exec (.descriptorStart g q) s = .next s) ∧
  (∀ (g : Fin 32) (q : QueueId) (d : QDesc) (o : Nat) (s : State), s.clusterAccepts g = true → s.queueLive g q = true →
      s.headDesc g q = some d → headerBad q d.desc = some o →
    Yields (.descriptorStart g q) s (fun t => (t.queue g q).waiting = (s.queue g q).waiting.drop 1 ∧
      (t.queue g q).running = (s.queue g q).running ∧
      t = { s with clusters := s.clusters.set g t.clusters[g], health := t.health } ∧
      (s.bedOn bedRot = true → ∃ e : Event, t.health.raised = s.health.raised ++ [e] ∧ e.code = 0x0101))) ∧
  (∀ (g : Fin 32) (q : QueueId) (r : Running) (s : State), s.findRunning g q .started 0 = some r →
    Yields (.queueNop g q) s (fun t => OnlyCluster g s t ∧
      (t.queue g q).running = modFirst (fun y => decide (y = r)) (fun _ => { r with phase := .finished, summary := none })
        (s.queue g q).running)) ∧
  (∀ (g : Fin 32) (q : QueueId) (r : Running) (s : State), s.clusterLive g = true →
      (s.queue g q).running.find? (fun r => decide (r.phase = .finished)) = some r →
      r.summary = none ∨ s.clusters[g].summaries.length < 64 →
    Yields (.descriptorComplete g q) s (fun t =>
      (t.queue g q).running = delFirst (fun y => decide (y = r)) (s.queue g q).running ∧
      t.clusters[g].summaries = s.clusters[g].summaries ++ r.summary.toList ∧
      (r.q.desc.postEn = true → t.posts = s.posts ++
        [⟨some g.val, r.q.desc.postCluster, r.q.desc.postToken, r.season + b2n r.q.desc.postNext, false, 0⟩]) ∧
      (r.q.desc.postEn = false → t.posts = s.posts) ∧
      t = { s with clusters := s.clusters.set g t.clusters[g], cores := t.cores, posts := t.posts })) ∧
  (∀ (g : Fin 32) (q : QueueId) (r : Running) (s : State),
      (s.queue g q).running.find? (fun r => decide (r.phase = .finished)) = some r →
      r.summary.isSome = true → 64 ≤ s.clusters[g].summaries.length →
    exec (.descriptorComplete g q) s = .next s)

/-- A head descriptor without a header error whose WAIT_SEASON is non-zero and below the current Season leaves the
queue without starting, and, while the ROT bed is on, one Season-passed event is raised. -/
def Obligations.PassedSeasonFaultsAtTheHead : Prop :=
  ∀ (g : Fin 32) (q : QueueId) (d : QDesc) (s : State), s.clusterAccepts g = true → s.queueLive g q = true →
      s.headDesc g q = some d → headerBad q d.desc = none → d.desc.waitSeason ≠ 0 → d.desc.waitSeason < s.clusters[g].season →
    Yields (.descriptorStart g q) s (fun t => (t.queue g q).waiting = (s.queue g q).waiting.drop 1 ∧
      (t.queue g q).running = (s.queue g q).running ∧ t.posts = s.posts ∧
      (s.bedOn bedRot = true → ∃ e : Event, t.health.raised = s.health.raised ++ [e] ∧ e.code = 0x0303 ∧
        e.arg0 = BitVec.ofNat 64 d.desc.waitSeason))

/-- The first LAUNCH entry in the table's order whose Season, waits and credit are there fires: the 64 bytes at its
address enter its queue, and it is re-armed at SEASON plus STRIDE or becomes unused; where its read is corrected,
that is counted. Where that read fails, the entry is re-armed in the same way, nothing enters the queue and the
fault's event is raised. With no such entry, or in a cluster that takes no descriptor or has no part in the job,
the state stays. Whatever the state, the command completes, and memory, the cores, the fabric and the power
sequence are as they were. -/
def Obligations.LaunchEntriesFireInOrder : Prop :=
  (∀ (g : Fin 32) (i : Nat) (e : LaunchEntry) (q : QueueId) (bs : List Byte) (s : State),
      s.clusterAccepts g = true → s.clusters[g].active = true → s.launchNext g = some (i, e) → queueOfCode e.queue = some q →
      s.readChecked (.ofCluster g .any) e.descAddr 64 = .ok bs →
    Yields (.launchFire g) s (fun t =>
      (t.queue g q).waiting = (s.queue g q).waiting ++ [{ desc := descOfBytes bs, addr := e.descAddr, launch := true, harrow := false }] ∧
      (e.stride = 0 → ∀ x, tabFind t.clusters[g].launch i = some x → x.kind = 0) ∧
      (e.stride ≠ 0 → e.season + e.stride < 2 ^ 48 → ∀ x, tabFind t.clusters[g].launch i = some x →
        x.season = e.season + e.stride ∧ x.kind = e.kind) ∧
      t = { s with clusters := s.clusters.set g t.clusters[g], arrivals := t.arrivals, hbm := (s.noteRead e.descAddr 64).hbm })) ∧
  (∀ (g : Fin 32) (i : Nat) (e : LaunchEntry) (q : QueueId) (f : Fail) (s : State),
      s.clusterAccepts g = true → s.clusters[g].active = true → s.launchNext g = some (i, e) → queueOfCode e.queue = some q →
      s.readChecked (.ofCluster g .any) e.descAddr 64 = .error f →
    Yields (.launchFire g) s (fun t => (t.queue g q).waiting = (s.queue g q).waiting ∧
      (e.stride = 0 → ∀ x, tabFind t.clusters[g].launch i = some x → x.kind = 0) ∧
      t = { s with clusters := s.clusters.set g t.clusters[g], arrivals := t.arrivals, health := t.health, hbm := (s.countUe f).hbm } ∧
      (s.bedOn bedRot = true → ∃ e : Event, t.health.raised = s.health.raised ++ [e] ∧ e.code = BitVec.ofNat 16 f.code))) ∧
  (∀ (g : Fin 32) (s : State), s.launchNext g = none ∨ s.clusterAccepts g = false ∨ s.clusters[g].active = false →
    exec (.launchFire g) s = .next s) ∧
  (∀ (g : Fin 32) (s : State),
    Yields (.launchFire g) s (fun t =>
      t = { s with clusters := s.clusters.set g t.clusters[g], arrivals := t.arrivals, health := t.health, hbm := t.hbm }))

/-- A live cluster of the job that meets the conditions of R103 advances from S to S + 1: both counts of bank S mod 2
of every token read zero, the BARRIER entries of S re-arm at SEASON plus STRIDE or become unused, and the stamp
record at STAMP_HEAD holds S, the tick of the advance and HELD, and STAMP_HEAD moves on. SEASON_ADVANCE leaves
the state as it was where the Season has reached SEASON_LIMIT, and where a LAUNCH entry of the Season has not
fired or a BARRIER entry of the Season has not been released. -/
def Obligations.SeasonAdvanceIsOneActionUnlessHeld : Prop :=
  (∀ (g : Fin 32) (s : State), s.clusterLive g = true → s.clusters[g].active = true → s.clusters[g].mayAdvance = true →
    Yields (.seasonAdvance g) s (fun t => t.clusters[g].season = s.clusters[g].season + 1 ∧
      t.clusters[g].stampHead = (s.clusters[g].stampHead + 1) % 256 ∧
      (∃ x : Stamp, tabFind t.clusters[g].stamps s.clusters[g].stampHead = some x ∧ x.season = s.clusters[g].season ∧
        x.advanceTick = s.clusters[g].osc.tick ∧ x.held = s.clusters[g].heldFlag) ∧
      (∀ n, (if s.clusters[g].season % 2 = 0 then (t.clusters[g].token n).even else (t.clusters[g].token n).odd) = 0) ∧
      (∀ i e, tabFind s.clusters[g].launch i = some e → e.isBarrier = true → e.season = s.clusters[g].season →
        ∃ x, tabFind t.clusters[g].launch i = some x ∧ (e.stride = 0 → x.kind = 0) ∧
          (e.stride ≠ 0 → e.season + e.stride < 2 ^ 48 → x.season = e.season + e.stride ∧ x.kind = e.kind)) ∧
      t.clusters[g].seq = s.clusters[g].seq ∧ t.aon = s.aon)) ∧
  (∀ (g : Fin 32) (s : State), s.clusters[g].seasonLimit ≤ s.clusters[g].season → exec (.seasonAdvance g) s = .next s) ∧
  (∀ (g : Fin 32) (i : Nat) (e : LaunchEntry) (s : State), (i, e) ∈ s.clusters[g].launch → e.season = s.clusters[g].season →
    e.isLaunch = true ∨ (e.isBarrier = true ∧ e.released = false) → exec (.seasonAdvance g) s = .next s)

/-- A cluster's arrival that the job names is held by its aggregator. At DIE and DEVICE scope the last one missing
ends the wait: a release with the fixed-order sum and the OR of the arrivals is on its way and they are held no
more, unless recovery is open: then the release is withheld and the participants' Seasons are marked HELD. One
that the job does not name is discarded with a barrier-non-participant event, and one for a third Season with a
Season-skew event. A release marks every entry of its Season and scope of a participant that has sent its arrival
as released, and is kept as the last barrier result. A recovery open for more than 10 ms and not yet reported
raises one event. -/
def Obligations.BarriersGatherAndRelease : Prop :=
  (∀ (i : Nat) (a : Arrival) (g : Nat) (s : State), s.arrivals[i]? = some a → a.sender = .cluster g →
      s.arrivalNamed a = true → s.skewed a = false →
      s.held.any (fun b => decide (b.scope = a.scope ∧ b.season = a.season ∧ b.sender = a.sender)) = false →
      State.clustersIn { s with held := s.held ++ [a] } a.scope (arrivalDie a) a.season = false →
    Yields (.barrierArrive i) s (fun t => t = { s with arrivals := listDel s.arrivals i, held := s.held ++ [a] })) ∧
  (∀ (i : Nat) (a : Arrival) (g : Nat) (s : State), s.arrivals[i]? = some a → a.sender = .cluster g →
      a.scope = .die ∨ a.scope = .device → s.arrivalNamed a = true → s.skewed a = false →
      s.held.any (fun b => decide (b.scope = a.scope ∧ b.season = a.season ∧ b.sender = a.sender)) = false →
      State.clustersIn { s with held := s.held ++ [a] } a.scope (arrivalDie a) a.season = true →
    Yields (.barrierArrive i) s (fun t =>
      let as := State.heldFor { s with held := s.held ++ [a] } a.scope (arrivalDie a)
      if s.recoveryOpen then t.held = s.held ++ [a] ∧ t.releases = s.releases ∧
        ∀ h ∈ s.participants a.scope (arrivalDie a), s.clusters[h].season = a.season → t.clusters[h].heldFlag = true
      else t = { s with
        arrivals := listDel s.arrivals i
        held := (s.held ++ [a]).filter (fun b => !(as.filter (fun c => decide (c.season = a.season))).contains b)
        releases := s.releases ++ [⟨a.scope, a.season, arrivalDie a,
          payloadWord (deviceFold (clusterArrivals as a.season))⟩] })) ∧
  (∀ (i : Nat) (a : Arrival) (g : Nat) (s : State), s.arrivals[i]? = some a → a.sender = .cluster g →
      s.arrivalNamed a = false ∨ s.skewed a = true →
    Yields (.barrierArrive i) s (fun t =>
      t = { s with arrivals := listDel s.arrivals i, health := t.health } ∧
      (s.bedOn bedRot = true → ∃ e : Event, t.health.raised = s.health.raised ++ [e] ∧
        e.code = if s.arrivalNamed a then 0x0305 else 0x0309))) ∧
  (∀ (i : Nat) (r : Release) (g : Fin 32) (s : State), s.releases[i]? = some r →
      g ∈ s.participants r.scope r.die → s.clusterFenced g = false → s.clusters[g].season = r.season →
      s.clusters[g].sent.contains r.scope = true →
    Yields (.barrierRelease i) s (fun t => t.clusters[g].seq.barrierResult = r.payload ∧ t.releases = listDel s.releases i ∧
      (∀ p ∈ t.clusters[g].launch, p.2.isBarrier = true → p.2.season = r.season → p.2.scope = r.scope → p.2.released = true) ∧
      t.mem = s.mem)) ∧
  (∀ (k : RecoveryKind) (s : State), s.health.recovery.contains k = false ∨
      (s.aon.rtc - s.health.recoverySince).toNat ≤ 250000 → exec (.recoveryTimeout k) s = .next s) ∧
  (∀ (k : RecoveryKind) (s : State), s.health.recovery.contains k = true → s.health.recoveryRaised = false →
      250000 < (s.aon.rtc - s.health.recoverySince).toNat →
    Yields (.recoveryTimeout k) s (fun t => OnlyHealth s t ∧ t.health.recoveryRaised = true ∧
      (s.bedOn bedRot = true → ∃ e : Event, t.health.raised = s.health.raised ++ [e] ∧ e.code = 0x0306)))

/-- For a running sequencer whose word is the row's and below instruction 2,047: NOP goes on; LDI, LDHI, ADD, ADDI,
SUB, AND, OR, XOR, SHL, SHR and MUL write sd with the value R116 gives, unless sd is s0, and go on. Every other
register, cluster and unit, and all of memory, stay. s0 always reads as zero, and LDI, ADD, MUL and RDSYS with SD
0 change no register and move the PC to the next instruction. -/
def Obligations.SequencerArithmeticWritesOneRegister : Prop :=
  (∀ (g : Fin 32) (i : SeqInstr) (s : State), s.clusters[g].seq.pc + 1 < 2048 →
    (Runs s g 0x00 i → Yields (.nop g) s (fun t => OnlySeq g s t ∧ SeqAt g (s.clusters[g].seq.pc + 1) s t)) ∧
    (Runs s g 0x01 i → Yields (.ldi g) s (SeqWrites g i.sd ((BitVec.ofNat 32 i.imm).signExtend 64) s)) ∧
    (Runs s g 0x02 i → Yields (.ldhi g) s (SeqWrites g i.sd
      (BitVec.ofNat 64 (i.imm * 2 ^ 32 + (s.clusters[g].seq.reg i.sd).toNat % 2 ^ 32)) s)) ∧
    (Runs s g 0x03 i → Yields (.add g) s (SeqWrites g i.sd (s.clusters[g].seq.reg i.sa + s.clusters[g].seq.reg i.sb) s)) ∧
    (Runs s g 0x04 i → Yields (.addi g) s (SeqWrites g i.sd
      (s.clusters[g].seq.reg i.sa + (BitVec.ofNat 32 i.imm).signExtend 64) s)) ∧
    (Runs s g 0x05 i → Yields (.sub g) s (SeqWrites g i.sd (s.clusters[g].seq.reg i.sa - s.clusters[g].seq.reg i.sb) s)) ∧
    (Runs s g 0x06 i → Yields (.and g) s (SeqWrites g i.sd (s.clusters[g].seq.reg i.sa &&& s.clusters[g].seq.reg i.sb) s)) ∧
    (Runs s g 0x07 i → Yields (.or g) s (SeqWrites g i.sd (s.clusters[g].seq.reg i.sa ||| s.clusters[g].seq.reg i.sb) s)) ∧
    (Runs s g 0x08 i → Yields (.xor g) s (SeqWrites g i.sd (s.clusters[g].seq.reg i.sa ^^^ s.clusters[g].seq.reg i.sb) s)) ∧
    (Runs s g 0x09 i → Yields (.shl g) s (SeqWrites g i.sd (s.clusters[g].seq.reg i.sa <<< i.imm) s)) ∧
    (Runs s g 0x0A i → Yields (.shr g) s (SeqWrites g i.sd (s.clusters[g].seq.reg i.sa >>> i.imm) s)) ∧
    (Runs s g 0x0B i → Yields (.mul g) s (SeqWrites g i.sd (s.clusters[g].seq.reg i.sa * s.clusters[g].seq.reg i.sb) s))) ∧
  (∀ (g : Fin 32) (i : SeqInstr) (s : State), s.clusters[g].seq.reg 0 = 0 ∧ (s.clusters[g].seq.pc + 1 < 2048 → i.sd = 0 →
    (Runs s g 0x01 i → Yields (.ldi g) s (fun t => OnlySeq g s t ∧ SeqAt g (s.clusters[g].seq.pc + 1) s t)) ∧
    (Runs s g 0x03 i → Yields (.add g) s (fun t => OnlySeq g s t ∧ SeqAt g (s.clusters[g].seq.pc + 1) s t)) ∧
    (Runs s g 0x0B i → Yields (.mul g) s (fun t => OnlySeq g s t ∧ SeqAt g (s.clusters[g].seq.pc + 1) s t)) ∧
    (Runs s g 0x19 i → Yields (.rdsys g) s (fun t => OnlySeq g s t ∧ SeqAt g (s.clusters[g].seq.pc + 1) s t))))

/-- LD at an accessible aligned address holds the value read, and what was corrected in reading it is counted, until
LOAD_RETURN writes it to sd and goes on. ST at an accessible aligned memory address writes the eight bytes of sb,
least significant first, and no other byte. A store to a register address is a write of that register. -/
def Obligations.SequencerLoadsAndStores : Prop :=
  (∀ (g : Fin 32) (i : SeqInstr) (a : Nat) (bs : List Byte) (s : State), Runs s g 0x0C i →
      a = (s.clusters[g].seq.reg i.sa + (BitVec.ofNat 32 i.imm).signExtend 64).toNat → a % 8 = 0 →
      ¬ (unitBase ≤ a ∧ a < linkBase + 0x20000000) → s.readChecked (.ofCluster g (.req 0)) a 8 = .ok bs →
    Yields (.ld g) s (fun t => OnlySeq g (s.noteRead a 8) t ∧
      t.clusters[g].seq = { s.clusters[g].seq with load := some (i.sd, BitVec.ofNat 64 (leNat bs)) })) ∧
  (∀ (g : Fin 32) (i : SeqInstr) (a : Nat) (s : State), Runs s g 0x0C i →
      a = (s.clusters[g].seq.reg i.sa + (BitVec.ofNat 32 i.imm).signExtend 64).toNat → a % 8 = 0 →
      unitBase ≤ a → a < linkBase + 0x20000000 → s.accessFail (.ofCluster g (.req 0)) a 8 = none →
    Yields (.ld g) s (fun t => OnlySeq g s t ∧
      t.clusters[g].seq = { s.clusters[g].seq with load := some (i.sd, BitVec.ofNat 64 (s.regRead a 8)) })) ∧
  (∀ (g : Fin 32) (r : Fin 32) (v : Word) (s : State), s.clusters[g].seq.load = some (r, v) → s.clusterLive g = true →
      s.clusters[g].seq.pc + 1 < 2048 →
    Yields (.loadReturn g) s (fun t => OnlySeq g s t ∧ t.clusters[g].seq.load = none ∧
      t.clusters[g].seq.pc = s.clusters[g].seq.pc + 1 ∧
      (∀ x, t.clusters[g].seq.reg x = if x = r ∧ r ≠ 0 then v else s.clusters[g].seq.reg x))) ∧
  (∀ (g : Fin 32) (i : SeqInstr) (a : Nat) (s : State), Runs s g 0x0D i → s.clusters[g].seq.pc + 1 < 2048 →
      a = (s.clusters[g].seq.reg i.sa + (BitVec.ofNat 32 i.imm).signExtend 64).toNat → a % 8 = 0 →
      ¬ (unitBase ≤ a ∧ a < linkBase + 0x20000000) → s.accessFail (.ofCluster g (.req 1)) a 8 = none → s.mergeFail a 8 = none →
    Yields (.st g) s (fun t => t.mem.readBytes a 8 = leBytes 8 (s.clusters[g].seq.reg i.sb).toNat ∧ SameMemoryBut a 8 s t ∧
      SeqAt g (s.clusters[g].seq.pc + 1) s t ∧
      t = { s with clusters := s.clusters.set g t.clusters[g], mem := t.mem, hbm := t.hbm })) ∧
  (∀ (g : Fin 32) (i : SeqInstr) (a : Nat) (s : State), Runs s g 0x0D i →
      a = (s.clusters[g].seq.reg i.sa + (BitVec.ofNat 32 i.imm).signExtend 64).toNat → a % 8 = 0 →
      unitBase ≤ a → a < linkBase + 0x20000000 → s.accessFail (.ofCluster g (.req 1)) a 8 = none →
    exec (.st g) s = .next ((s.regWrite a 8 (s.clusters[g].seq.reg i.sb).toNat).seqNext g))

/-- A target within 0 to 2,047 becomes the PC; a BR whose comparison fails goes on; JAL writes the index of the next
instruction to sd; JR takes sa, which must be below 2,048. -/
def Obligations.SequencerBranchesJump : Prop :=
  ∀ (g : Fin 32) (i : SeqInstr) (s : State),
    (Runs s g 0x0E i → seqCompare i.cond (s.clusters[g].seq.reg i.sa) (s.clusters[g].seq.reg i.sb) = true →
      (BitVec.ofNat 64 s.clusters[g].seq.pc + (BitVec.ofNat 32 i.imm).signExtend 64).toNat < 2048 →
      Yields (.br g) s (fun t => OnlySeq g s t ∧
        SeqAt g (BitVec.ofNat 64 s.clusters[g].seq.pc + (BitVec.ofNat 32 i.imm).signExtend 64).toNat s t)) ∧
    (Runs s g 0x0E i → seqCompare i.cond (s.clusters[g].seq.reg i.sa) (s.clusters[g].seq.reg i.sb) = false →
      s.clusters[g].seq.pc + 1 < 2048 →
      Yields (.br g) s (fun t => OnlySeq g s t ∧ SeqAt g (s.clusters[g].seq.pc + 1) s t)) ∧
    (Runs s g 0x0F i → (BitVec.ofNat 64 s.clusters[g].seq.pc + (BitVec.ofNat 32 i.imm).signExtend 64).toNat < 2048 →
      Yields (.jal g) s (fun t => OnlySeq g s t ∧
        t.clusters[g].seq.pc = (BitVec.ofNat 64 s.clusters[g].seq.pc + (BitVec.ofNat 32 i.imm).signExtend 64).toNat ∧
        (∀ x, t.clusters[g].seq.reg x =
          if x = i.sd ∧ i.sd ≠ 0 then BitVec.ofNat 64 s.clusters[g].seq.pc + 1 else s.clusters[g].seq.reg x))) ∧
    (Runs s g 0x10 i → (s.clusters[g].seq.reg i.sa).toNat < 2048 →
      Yields (.jr g) s (fun t => OnlySeq g s t ∧ SeqAt g (s.clusters[g].seq.reg i.sa).toNat s t))

/-- With a credit, POST puts the 64 bytes at sa into the queue IMM names. TPOST sends a token to a global cluster
with the current Season plus IMM[17]. SETEXP sets EXPECT and leaves both counts. LENT writes an entry that passes
its checks and is not of a past Season. SETLIM sets SEASON_LIMIT from sa below 2 to the 48. Each goes on to the
next instruction. -/
def Obligations.SequencerPostsAndWritesEntries : Prop :=
  ∀ (g : Fin 32) (i : SeqInstr) (s : State), s.clusters[g].seq.pc + 1 < 2048 →
    (∀ (q : QueueId) (bs : List Byte), Runs s g 0x11 i → queueOfCode (i.imm % 256) = some q →
      (s.clusters[g].seq.reg i.sa).toNat % 8 = 0 → s.postCredit g q = true →
      s.readChecked (.ofCluster g .any) (s.clusters[g].seq.reg i.sa).toNat 64 = .ok bs →
      Yields (.post g) s (fun t => OnlyCluster g (s.noteRead (s.clusters[g].seq.reg i.sa).toNat 64) t ∧ SeqAt g (s.clusters[g].seq.pc + 1) s t ∧
        (t.queue g q).waiting = (s.queue g q).waiting ++
          [{ desc := descOfBytes bs, addr := (s.clusters[g].seq.reg i.sa).toNat, launch := false, harrow := false }])) ∧
    (Runs s g 0x12 i → Yields (.tpost g) s (fun t =>
      t.posts = s.posts ++ [⟨some g.val, fin32 (i.imm / 4096 % 32), i.imm % 4096,
        s.clusters[g].season + i.imm / 2 ^ 17 % 2, false, 1⟩] ∧ SeqAt g (s.clusters[g].seq.pc + 1) s t ∧
      t = { s with clusters := s.clusters.set g t.clusters[g], posts := t.posts })) ∧
    (Runs s g 0x13 i → Yields (.setexp g) s (fun t => SeqAt g (s.clusters[g].seq.pc + 1) s t ∧
      t = { s with clusters := s.clusters.set g t.clusters[g], arrivals := t.arrivals } ∧
      t.clusters[g].token (i.imm % 4096) =
        { s.clusters[g].token (i.imm % 4096) with expect := BitVec.ofNat 8 (i.imm / 4096) })) ∧
    (∀ (bs : List Byte) (e : LaunchEntry), Runs s g 0x16 i → (s.clusters[g].seq.reg i.sa).toNat % 8 = 0 →
      s.readChecked (.ofCluster g .any) (s.clusters[g].seq.reg i.sa).toNat 32 = .ok bs →
      wordsOf bs 4 = [e.w0, e.w1, e.w2, e.w3] → launchOk e = true → e.kind = 0 ∨ s.clusters[g].season ≤ e.season →
      Yields (.lent g) s (fun t => SeqAt g (s.clusters[g].seq.pc + 1) s t ∧
        t = { s with clusters := s.clusters.set g t.clusters[g], arrivals := t.arrivals
                     hbm := (s.noteRead (s.clusters[g].seq.reg i.sa).toNat 32).hbm } ∧
        ∃ x, tabFind t.clusters[g].launch (i.imm % 256) = some x ∧ x.w0 = e.w0 ∧ x.w1 = e.w1 ∧ x.w2 = e.w2 ∧ x.w3 = e.w3)) ∧
    (Runs s g 0x17 i → (s.clusters[g].seq.reg i.sa).toNat < 2 ^ 48 →
      Yields (.setlim g) s (fun t => OnlyCluster g s t ∧ SeqAt g (s.clusters[g].seq.pc + 1) s t ∧
        t.clusters[g].seasonLimit = (s.clusters[g].seq.reg i.sa).toNat))

/-- Without a credit POST waits in WAIT_CREDIT; WAITT waits in WAIT_TOKEN while the token is absent; WAITS waits in
WAIT_SEASON below its Season; RSUM waits in WAIT_SUMMARY while the queue is empty. The PC and all else stay.
Where the condition holds, WAITT and WAITS go on, and SEQUENCER_RESUME sets RUNNING. RSUM gives the word of the
head summary that IMM[1:0] names and pops the head where IMM[8] is 1. RDSYS gives the Season, the tick count, the
last barrier result or the cluster number. EVENT, of a class from 0xF0 up, raises its class and code with sa, sb
and sd while the ROT bed is on. HALT halts. -/
def Obligations.SequencerWaitsReadsAndSignals : Prop :=
  (∀ (g : Fin 32) (i : SeqInstr) (s : State),
    (∀ q : QueueId, Runs s g 0x11 i → queueOfCode (i.imm % 256) = some q → (s.clusters[g].seq.reg i.sa).toNat % 8 = 0 →
      s.postCredit g q = false →
      Yields (.post g) s (fun t => OnlySeq g s t ∧ t.clusters[g].seq = { s.clusters[g].seq with state := .waitCredit })) ∧
    (Runs s g 0x14 i → s.clusters[g].present i.imm s.clusters[g].season = false →
      Yields (.waitt g) s (fun t => OnlySeq g s t ∧ t.clusters[g].seq = { s.clusters[g].seq with state := .waitToken })) ∧
    (Runs s g 0x14 i → s.clusters[g].present i.imm s.clusters[g].season = true → s.clusters[g].seq.pc + 1 < 2048 →
      Yields (.waitt g) s (fun t => OnlySeq g s t ∧ SeqAt g (s.clusters[g].seq.pc + 1) s t)) ∧
    (Runs s g 0x15 i → s.clusters[g].season < (s.clusters[g].seq.reg i.sa).toNat →
      Yields (.waits g) s (fun t => OnlySeq g s t ∧ t.clusters[g].seq = { s.clusters[g].seq with state := .waitSeason })) ∧
    (Runs s g 0x15 i → (s.clusters[g].seq.reg i.sa).toNat ≤ s.clusters[g].season → s.clusters[g].seq.pc + 1 < 2048 →
      Yields (.waits g) s (fun t => OnlySeq g s t ∧ SeqAt g (s.clusters[g].seq.pc + 1) s t)) ∧
    (Runs s g 0x18 i → s.clusters[g].summaries = [] →
      Yields (.rsum g) s (fun t => OnlySeq g s t ∧ t.clusters[g].seq = { s.clusters[g].seq with state := .waitSummary })) ∧
    (s.clusterLive g = true → s.seqMayResume g = true →
      Yields (.sequencerResume g) s (fun t => OnlySeq g s t ∧
        t.clusters[g].seq = { s.clusters[g].seq with state := .running }))) ∧
  (∀ (g : Fin 32) (i : SeqInstr) (s : State),
    (∀ (x : Summary) (rest : List Summary), Runs s g 0x18 i → s.clusters[g].summaries = x :: rest →
      s.clusters[g].seq.pc + 1 < 2048 →
      Yields (.rsum g) s (fun t => OnlyCluster g s t ∧
        t.clusters[g].summaries = (if bitOf i.imm 8 then rest else x :: rest) ∧
        t.clusters[g].seq.pc = s.clusters[g].seq.pc + 1 ∧
        (i.sd ≠ 0 → t.clusters[g].seq.reg i.sd = [x.w0, x.w1, x.w2, x.w3].getD (i.imm % 4) 0))) ∧
    (Runs s g 0x19 i → s.clusters[g].seq.pc + 1 < 2048 →
      Yields (.rdsys g) s (SeqWrites g i.sd ([BitVec.ofNat 64 s.clusters[g].season, s.clusters[g].osc.tick,
        s.clusters[g].seq.barrierResult, BitVec.ofNat 64 g.val].getD i.imm 0) s)) ∧
    (Runs s g 0x1A i → s.clusters[g].seq.pc + 1 < 2048 →
      Yields (.event g) s (fun t => SeqAt g (s.clusters[g].seq.pc + 1) s t ∧
        t = { s with clusters := s.clusters.set g t.clusters[g], health := t.health } ∧
        (s.bedOn bedRot = true → ∃ e : Event, t.health.raised = s.health.raised ++ [e] ∧ e.unit = uidCluster g.val 0 ∧
          e.code.toNat = i.imm ∧ 0xF000 ≤ i.imm ∧ e.arg0 = s.clusters[g].seq.reg i.sa ∧
          e.arg1 = s.clusters[g].seq.reg i.sb ∧ e.arg2 = s.clusters[g].seq.reg i.sd))) ∧
    (Runs s g 0x1B i → Yields (.halt g) s (fun t => OnlySeq g s t ∧
      t.clusters[g].seq = { s.clusters[g].seq with state := .halted })))

/-- A running sequencer whose word is rejected, whose LD, ST, POST or LENT address is not 8-byte aligned, whose LD
fails its access, whose JR target lies outside its instructions, whose BR jumps outside them, or which falls
through instruction 2,047 is FAULTED with its PC kept, and while the ROT bed is on exactly one sequencer-fault
event with PC and cause is raised. No register, memory or other unit changes, but the records of uncorrectable
errors of a stack whose data could not be read. -/
def Obligations.SequencerFaultsStopIt : Prop :=
  ∀ (g : Fin 32) (i : SeqInstr) (s : State), s.seqRuns g = true → seqDecode s.clusters[g].seq.word = i →
    let Faulted (u : State) (cause arg2 : Nat) (t : State) : Prop := OnlyClusterEvents g u t ∧
      t.clusters[g] = { s.clusters[g] with seq := { s.clusters[g].seq with state := .faulted } } ∧
      (s.bedOn bedRot = true → ∃ e : Event, t.health.raised = s.health.raised ++ [e] ∧ e.code = 0x0308 ∧
        e.arg0 = BitVec.ofNat 64 s.clusters[g].seq.pc ∧ e.arg1 = BitVec.ofNat 64 cause ∧ e.arg2 = BitVec.ofNat 64 arg2)
    (seqWordBad s.clusters[g].seq.word = true → i.opc = 0x19 → Yields (.rdsys g) s (Faulted s 1 0)) ∧
    (seqWordBad s.clusters[g].seq.word = true → i.opc = 0x0E → Yields (.br g) s (Faulted s 1 0)) ∧
    (0x1B < i.opc → Yields (.nop g) s (Faulted s 1 0)) ∧
    (seqWordBad s.clusters[g].seq.word = false → i.opc = 0x0C → ∀ a : Nat,
      a = (s.clusters[g].seq.reg i.sa + (BitVec.ofNat 32 i.imm).signExtend 64).toNat → a % 8 ≠ 0 →
      Yields (.ld g) s (Faulted s 0 (a % 2 ^ 32))) ∧
    (seqWordBad s.clusters[g].seq.word = false → i.opc = 0x0D → ∀ a : Nat,
      a = (s.clusters[g].seq.reg i.sa + (BitVec.ofNat 32 i.imm).signExtend 64).toNat → a % 8 ≠ 0 →
      Yields (.st g) s (Faulted s 0 (a % 2 ^ 32))) ∧
    (seqWordBad s.clusters[g].seq.word = false → i.opc = 0x11 → (queueOfCode (i.imm % 256)).isSome = true →
      (s.clusters[g].seq.reg i.sa).toNat % 8 ≠ 0 →
      Yields (.post g) s (Faulted s 0 ((s.clusters[g].seq.reg i.sa).toNat % 2 ^ 32))) ∧
    (seqWordBad s.clusters[g].seq.word = false → i.opc = 0x16 → (s.clusters[g].seq.reg i.sa).toNat % 8 ≠ 0 →
      Yields (.lent g) s (Faulted s 0 ((s.clusters[g].seq.reg i.sa).toNat % 2 ^ 32))) ∧
    (seqWordBad s.clusters[g].seq.word = false → i.opc = 0x0C → ∀ (a : Nat) (f : Fail),
      a = (s.clusters[g].seq.reg i.sa + (BitVec.ofNat 32 i.imm).signExtend 64).toNat → a % 8 = 0 →
      ¬ (unitBase ≤ a ∧ a < linkBase + 0x20000000) → s.readChecked (.ofCluster g (.req 0)) a 8 = .error f →
      Yields (.ld g) s (Faulted (s.countUe f) 0 (f.arg0 % 2 ^ 32))) ∧
    (seqWordBad s.clusters[g].seq.word = false → i.opc = 0x10 → 2048 ≤ (s.clusters[g].seq.reg i.sa).toNat →
      Yields (.jr g) s (Faulted s 1 0)) ∧
    (seqWordBad s.clusters[g].seq.word = false → i.opc = 0x0E → ∀ a : Nat,
      a = (BitVec.ofNat 64 s.clusters[g].seq.pc + (BitVec.ofNat 32 i.imm).signExtend 64).toNat → 2048 ≤ a →
      seqCompare i.cond (s.clusters[g].seq.reg i.sa) (s.clusters[g].seq.reg i.sb) = true →
      Yields (.br g) s (Faulted s 2 (a % 2 ^ 32))) ∧
    (seqWordBad s.clusters[g].seq.word = false → i.opc = 0x00 → s.clusters[g].seq.pc = 2047 →
      Yields (.nop g) s (Faulted s 2 2048))

/-- A SAMPLE that starts shows in CUR_MB and CUR_PIECE, and with SPEC its gathers are undecided. A started SAMPLE
that passes its checks and samples every seed becomes the command whose pieces wait, in order, for the output
ring, and its counts are added; one that faults while it samples keeps the pieces closed before, followed by an
ABORT piece. Nothing but its cluster changes, and nothing is written to memory. TOPO_FILL places the first line
on its way in its set. TOPO_INVALIDATE empties the topology cache, drops the lines on their way and finishes; no
other part of the machine changes and its counters stay. -/
def Obligations.SampleLaysOutItsPieces : Prop :=
  (∀ (g : Fin 32) (d : QDesc) (s : State), s.clusterAccepts g = true → s.headDesc g .harrow = some d →
      headState s.clusters[g] .harrow d = .ready → d.desc.opcode = 1 →
    Yields (.descriptorStart g .harrow) s (fun t => OnlyCluster g s t ∧
      t.clusters[g].harrow.curMb = BitVec.ofNat 16 (d.desc.bits 6 15 0) ∧ t.clusters[g].harrow.curPiece = 0 ∧
      (d.desc.bit 2 54 = true → t.clusters[g].harrow.spec = some ⟨s.clusters[g].season, d.desc.bits 7 43 32, .undecided, 0⟩) ∧
      (d.desc.bit 2 54 = false → t.clusters[g].harrow.spec = s.clusters[g].harrow.spec))) ∧
  (∀ (g : Fin 32) (r : Running) (h : GraphHdr) (u : Unit) (st : GSt) (s : State), s.activeOp g .harrow 1 = some r →
      r.phase = .started → s.sampleCheck g r.q (s.sampleCtl g r.q.desc) = .ok h →
      s.sampleRun g h (s.sampleCtl g r.q.desc) r.season = .ok u st →
    Yields (.sample g) s (fun t => OnlyCluster g s t ∧
      t.clusters[g].harrow.job = some (sampleJob h (s.sampleCtl g r.q.desc) r.season none st) ∧
      t.clusters[g].harrow.expansions = s.clusters[g].harrow.expansions + BitVec.ofNat 64 st.expansions ∧
      t.clusters[g].harrow.shortDraws = s.clusters[g].harrow.shortDraws + BitVec.ofNat 64 st.short ∧
      t.clusters[g].harrow.produced = s.clusters[g].harrow.produced ∧
      { r with phase := .working } ∈ (t.queue g .harrow).running)) ∧
  (∀ (g : Fin 32) (r : Running) (h : GraphHdr) (f : Fail) (st : GSt) (s : State), s.activeOp g .harrow 1 = some r →
      r.phase = .started → s.sampleCheck g r.q (s.sampleCtl g r.q.desc) = .ok h →
      s.sampleRun g h (s.sampleCtl g r.q.desc) r.season = .error f st →
    Yields (.sample g) s (fun t => OnlyCluster g s t ∧
      t.clusters[g].harrow.job = some (sampleJob h (s.sampleCtl g r.q.desc) r.season (some f) st) ∧
      { r with phase := .working } ∈ (t.queue g .harrow).running)) ∧
  (∀ (g : Fin 32) (l : TopoLine) (rest : List TopoLine) (s : State), s.clusters[g].harrow.fills = l :: rest →
    Yields (.topoFill g) s (fun t => OnlyCluster g s t ∧ t.clusters[g].harrow =
      { s.clusters[g].harrow with fills := rest, topo := topoInstall s.clusters[g].topoKib l s.clusters[g].harrow.topo })) ∧
  (∀ (g : Fin 32) (r : Running) (s : State), s.activeOp g .harrow 2 = some r →
      firstNonzero (descWords r.q.desc) bodySpans = none →
    Yields (.topoInvalidate g) s (fun t => OnlyCluster g s t ∧
      t.clusters[g].harrow = { s.clusters[g].harrow with topo := [], fills := [] } ∧
      { r with phase := .finished, summary := none } ∈ (t.queue g .harrow).running))

/-- Every piece that a SAMPLE lays out is a whole number of 256-byte units, at least one, and bytes 8 to 15 of its
header hold the row count and the edge count. -/
def Obligations.EveryPieceIsWholeUnits : Prop :=
  ∀ (h : GraphHdr) (c : SampleCtl) (season idx : Nat) (last : Bool) (us : List SeedUnit),
    let p := buildPiece h c season idx last us
    p.bytes.length % 256 = 0 ∧ 256 ≤ p.bytes.length ∧ 8 * p.rows + 8 * p.edges ≤ p.bytes.length ∧
    (p.bytes.drop 8).take 8 = leBytes 8 (p.rows + p.edges * 2 ^ 32)

/-- PIECE_WRITE puts the next piece into the ring ranges that follow RING_PRODUCED and moves RING_PRODUCED by its
length; PIECES rises by one, the PIECE_TOKEN is posted, and every byte outside those ranges reads as before.
Without room nothing happens. RING_CONSUMED takes a value that does not pass RING_PRODUCED and refuses another
with an event. SPEC_GATHER_POST puts the gather of the oldest piece, the template with its row list, count and
flag, behind the Rake queue and counts it. SPEC_CONFIRM counts the command's gathers as confirmed and leaves none
of Harrow's gathers under way unconfirmed. Nothing outside the cluster changes, but the ring, the posts, the
event of a command that ended with a fault, and the counts of the rows read for a confirmed command. -/
def Obligations.PiecesGoIntoTheRingAndGathersFollow : Prop :=
  (∀ (g : Fin 32) (r : Running) (j : SampleJob) (p : Piece) (rest : List Piece) (s : State),
      s.clusters[g].harrow.job = some j → s.activeOp g .harrow 1 = some r → j.pieces = p :: rest →
      p.bytes.length ≤ ringFree s.clusters[g].harrow j.outLog2 →
      s.piecePlace g (ringParts s.clusters[g].harrow j p.bytes.length) = none →
    Yields (.pieceWrite g) s (fun t =>
      t.clusters[g].harrow.produced = s.clusters[g].harrow.produced + BitVec.ofNat 32 p.bytes.length ∧
      t.clusters[g].harrow.pieces = s.clusters[g].harrow.pieces + 1 ∧
      t.clusters[g].harrow.edgesEmitted = s.clusters[g].harrow.edgesEmitted + BitVec.ofNat 64 p.edges ∧
      t.clusters[g].harrow.haloNodes = s.clusters[g].harrow.haloNodes + BitVec.ofNat 64 p.halos ∧
      t.posts = s.posts ++ (j.pieceToken.map (fun k => (⟨some g.val, g, k, j.season, false, 2 + j.mb⟩ : Post))).toList ∧
      t.mem = (s.writeParts (ringParts s.clusters[g].harrow j p.bytes.length) p.bytes).mem ∧
      (∀ a, (∀ w ∈ ringParts s.clusters[g].harrow j p.bytes.length, a < w.1 ∨ w.1 + w.2 ≤ a) →
        t.mem.read a = s.mem.read a) ∧
      t = { s with clusters := s.clusters.set g t.clusters[g], mem := t.mem, hbm := t.hbm, posts := t.posts, health := t.health })) ∧
  (∀ (g : Fin 32) (r : Running) (j : SampleJob) (p : Piece) (rest : List Piece) (s : State),
      s.clusters[g].harrow.job = some j → s.activeOp g .harrow 1 = some r → j.pieces = p :: rest →
      ringFree s.clusters[g].harrow j.outLog2 < p.bytes.length → exec (.pieceWrite g) s = .next s) ∧
  (∀ (g : Fin 32) (v : U32) (s : State), s.clusterLive g = true → ringPasses s.clusters[g].harrow v = false →
    Yields (.ringConsumed g v) s (fun t => OnlyCluster g s t ∧
      t.clusters[g].harrow = { s.clusters[g].harrow with consumed := v })) ∧
  (∀ (g : Fin 32) (v : U32) (s : State), s.clusterLive g = true → ringPasses s.clusters[g].harrow v = true →
    Yields (.ringConsumed g v) s (fun t => OnlyHealth s t ∧
      (s.bedOn bedRot = true → ∃ e : Event, t.health.raised = s.health.raised ++ [e] ∧ e.code = 0x0102 ∧
        e.unit = uidCluster g.val 1))) ∧
  (∀ (g : Fin 32) (x : SpecPost) (rest : List SpecPost) (bs : List Byte) (s : State), s.clusters[g].harrow.toPost = x :: rest →
      s.credits g .rake ≠ 0 → s.clusterLive g = true → s.readChecked (.ofCluster g .any) s.clusters[g].harrow.specTemplate.toNat 64 = .ok bs →
    Yields (.specGatherPost g) s (fun t => OnlyCluster g (s.noteRead s.clusters[g].harrow.specTemplate.toNat 64) t ∧ t.clusters[g].harrow.toPost = rest ∧
      t.clusters[g].harrow.specIssued = s.clusters[g].harrow.specIssued + 1 ∧
      (t.queue g .rake).waiting = (s.queue g .rake).waiting ++
        [{ desc := specDesc bs x, addr := s.clusters[g].harrow.specTemplate.toNat, launch := false, harrow := true }])) ∧
  (∀ (g : Fin 32) (x : SpecCommand) (s : State), s.clusters[g].undecided = some x → s.clusters[g].confirmDue x = true →
    Yields (.specConfirm g) s (fun t => OnlyCluster g (s.countReads s.clusters[g].specReads) t ∧
      t.clusters[g].harrow.specConfirmed = s.clusters[g].harrow.specConfirmed + BitVec.ofNat 64 x.gathers ∧
      (∀ j ∈ t.clusters[g].rake.jobs, isSpecGather j.run.q = true → j.confirmed = true) ∧
      (∀ y ∈ t.clusters[g].rake.staged, y.run.q.harrow = true → y.confirmed = true) ∧
      (∃ y, t.clusters[g].harrow.spec = some y ∧ y.decision = .confirmed ∧ y.season = x.season)))

/-- For a fresh ordinary one-row command whose ranges and record may be accessed, and whose row is found in the
Cloche, GATHER writes its output row at DST_ADDR, counts it and finishes, and PREFETCH finishes without a write.
Where the row must be fetched, GATHER and PREFETCH leave it on its way at position 0 and write nothing. -/
def Obligations.GatherTakesItsRows : Prop :=
  ∀ (g : Fin 32) (r : Running) (td : TableDesc) (row slot : Nat) (src : RowSource) (s : State),
    let c := rakeCtl r.q.desc
    r.phase = .started → s.rakeJob g r = none → s.rakeBad r.q.desc c = none → s.table c.table = some td → c.spec = false →
    c.count = 1 → s.decayDue g = false → s.readEntry g c 0 = .ok row → s.rowSource g c.table td 0 row = .ok (src, slot) →
    s.rakeCheck g c td = .ok () →
    let Pending (fill : Bool) (t : State) : Prop := OnlyCluster g s t ∧ ∃ j ∈ t.clusters[g].rake.jobs,
      j.run = { r with phase := .working } ∧ j.next = 1 ∧ j.fault = none ∧ j.items =
        [{ row := row, positions := [0], fill := fill, epoch := td.commitEpoch, tag := none }]
    (∀ (bs : List Byte) (w : State), s.activeOp g .rake 1 = some r → (s.rowLookup g c td row).1 = .record bs →
        s.writeChecked (.ofCluster g .any) c.dst (outRow td c.outFmt bs) = .ok w →
      Yields (.gather g) s (fun t => t.mem = w.mem ∧
        (∀ a, a < c.dst ∨ c.dst + (outRow td c.outFmt bs).length ≤ a → t.mem.read a = s.mem.read a) ∧
        t.clusters[g].rake.rowsGathered = s.clusters[g].rake.rowsGathered + 1 ∧
        t = { s with clusters := s.clusters.set g t.clusters[g], mem := w.mem, hbm := w.hbm } ∧
        { r with phase := .finished, summary := none } ∈ (t.queue g .rake).running)) ∧
    (∀ fill : Bool, s.activeOp g .rake 1 = some r → (s.rowLookup g c td row).1 = .fetch fill →
      Yields (.gather g) s (Pending fill)) ∧
    (∀ bs : List Byte, s.activeOp g .rake 3 = some r → (s.rowLookup g c td row).1 = .record bs →
      Yields (.prefetch g) s (fun t => OnlyCluster g s t ∧
        t.clusters[g].rake.rowsGathered = s.clusters[g].rake.rowsGathered ∧
        { r with phase := .finished, summary := none } ∈ (t.queue g .rake).running)) ∧
    (∀ fill : Bool, s.activeOp g .rake 3 = some r → (s.rowLookup g c td row).1 = .fetch fill →
      Yields (.prefetch g) s (Pending fill))

/-- A fresh POOL opens its first bag at the bounds read for it. A member read here is added to the partial of its
owner device and stack, and the bag moves on. A bag whose members are all taken is combined, written at its
output row and counted. -/
def Obligations.PooledGathersAccumulateBags : Prop :=
  ∀ (g : Fin 32) (r : Running) (td : TableDesc) (s : State),
    let c := rakeCtl r.q.desc
    s.activeOp g .rake 2 = some r → s.rakeBad r.q.desc c = none → s.table c.table = some td →
    (∀ a b : Nat, r.phase = .started → s.rakeJob g r = none → 0 < c.count → s.rakeCheck g c td = .ok () →
        s.bagBounds g c 0 = .ok (a, b) →
      Yields (.pool g) s (fun t => OnlyCluster g s t ∧ ∃ j ∈ t.clusters[g].rake.jobs, j.run = { r with phase := .working } ∧
        j.bag = some ⟨a, a, b, [], none, none⟩)) ∧
    (∀ (j : RakeJob) (b : Bag) (w : State), s.rakeJob g r = some j → j.bag = some b → b.stop ≤ b.pos →
        s.writeChecked (.ofCluster g .any) (c.dst + j.next * outBytes td c.outFmt)
          (outElems c.outFmt (outBytes td c.outFmt) (bagResult c td.dim (b.stop - b.start) b.parts)) = .ok w →
      Yields (.pool g) s (fun t => t.mem = w.mem ∧
        t.clusters[g].rake.bagsPooled = s.clusters[g].rake.bagsPooled + 1)) ∧
    (∀ (j : RakeJob) (b : Bag) (row slot addr : Nat) (rec : List Byte) (wt : Option U32), s.rakeJob g r = some j →
        j.bag = some b → b.pos < b.stop → b.tag = none → s.readEntry g c b.pos = .ok row →
        s.locate (.ofCluster g .any) c.table td b.pos row = .ok (s.devNumber, slot, addr) → j.recent.find? (fun x => decide (x.1 = row)) = none →
        s.rowComing c.table td row = false → s.readChecked (.ofCluster g (.req 2)) addr td.stride = .ok rec → s.poolWeight g c b.pos = .ok wt →
      Yields (.pooledMember g) s (fun t => t.mem = s.mem ∧ ∃ j' ∈ t.clusters[g].rake.jobs, j'.run = j.run ∧
        j'.next = j.next ∧ j'.fault = j.fault ∧ ∃ b', j'.bag = some b' ∧ b'.pos = b.pos + 1 ∧ b'.stop = b.stop ∧
        b'.parts = tabSet b.parts (16 * s.devNumber + (stackOf addr).val) (poolAdd c.poolOp wt
          (tabGet b.parts (List.replicate td.dim (poolIdent c.poolOp)) (16 * s.devNumber + (stackOf addr).val))
          (decodeRecord td rec))))

/-- A row of an ordinary GATHER that lies here is read where it lies, counted for its slot and written to its
position. A staged row of a confirmed gather whose VERSION is unchanged is current, a changed one stale and
counted. A current staged row is copied from the staging area to its destination and counted. CLOCHE_FILL puts
the first record on its way, with the COMMIT_EPOCH of its issue, into the way that holds its row and changes no
count. CLOCHE_DECAY, once DECAY accesses are counted, halves every use count, unprotects what falls below half of
HOT and counts anew. -/
def Obligations.RecordsAreReadCheckedAndCached : Prop :=
  (∀ (g : Fin 32) (i row addr slot p epoch : Nat) (j : RakeJob) (td : TableDesc) (rec : List Byte) (w s : State),
      let c := rakeCtl j.run.q.desc
      (s.rakeItems g)[i]? = some (j, ⟨row, [p], false, epoch, none⟩) → s.table c.table = some td →
      s.rowSource g c.table td p row = .ok (.localRow addr, slot) → c.opcode = 1 → c.spec = false → s.rowComing c.table td row = false → s.readChecked (.ofCluster g (.req 2)) addr td.stride = .ok rec →
      s.writeChecked (.ofCluster g .any) (c.dst + p * outBytes td c.outFmt) (outRow td c.outFmt rec) = .ok w →
    Yields (.recordRead g i) s (fun t => t.mem = w.mem ∧
      t.clusters[g].rake.rowsGathered = s.clusters[g].rake.rowsGathered + 1 ∧
      (tabGet t.hbm[stackOf addr].loads (0, 0) (loadKey c.table slot)).1 =
        satInc32 (tabGet s.hbm[stackOf addr].loads (0, 0) (loadKey c.table slot)).1)) ∧
  (∀ (g : Fin 32) (i slot addr : Nat) (x : StagedGather) (r : StagedRow) (td : TableDesc) (bs : List Byte) (s : State),
      (s.stagedRows g (fun st => decide (st = .unchecked)))[i]? = some (x, r) →
      s.table (rakeCtl x.run.q.desc).table = some td →
      s.rowSource g (rakeCtl x.run.q.desc).table td r.pos r.row = .ok (.localRow addr, slot) →
      s.rowComing (rakeCtl x.run.q.desc).table td r.row = false → s.readChecked (.ofCluster g (.req 2)) addr 16 = .ok bs →
    Yields (.versionCheck g i) s (fun t => t.mem = s.mem ∧ ∃ x' ∈ t.clusters[g].rake.staged, x'.run = x.run ∧
      (recVersion bs = r.version → { r with status := .current } ∈ x'.rows ∧
        t.clusters[g].rake.specRefetched = s.clusters[g].rake.specRefetched) ∧
      (recVersion bs ≠ r.version → { r with status := .stale } ∈ x'.rows ∧
        t.clusters[g].rake.specRefetched = s.clusters[g].rake.specRefetched + 1))) ∧
  (∀ (g : Fin 32) (i : Nat) (x : StagedGather) (r : StagedRow) (td : TableDesc) (rec : List Byte) (w s : State),
      let c := rakeCtl x.run.q.desc
      (s.stagedRows g (fun st => decide (st = .current)))[i]? = some (x, r) → s.table c.table = some td →
      s.readRanges (stager g) (blockParts x.blocks (r.pos * td.stride) td.stride) = .ok rec →
      s.writeChecked (.ofCluster g (.req 4)) (c.dst + r.pos * outBytes td c.outFmt) (outRow td c.outFmt rec) = .ok w →
    Yields (.stagedRowCopy g i) s (fun t => t.mem = w.mem ∧
      t.clusters[g].rake.rowsGathered = s.clusters[g].rake.rowsGathered + 1)) ∧
  (∀ (g : Fin 32) (f : ClocheFill) (rest : List ClocheFill) (td : TableDesc) (w : ClocheWay) (s : State),
      let k := clocheSet (s.clocheSets g td) f.table f.row
      s.clusters[g].rake.fills = f :: rest → s.table f.table = some td → s.clocheSets g td ≠ 0 →
      findWay (tabGet s.clusters[g].rake.cloche [] k) f.table f.row = some w →
    Yields (.clocheFill g) s (fun t => OnlyCluster g s t ∧ t.clusters[g].rake.fills = rest ∧
      findWay (tabGet t.clusters[g].rake.cloche [] k) f.table f.row = some { w with record := f.record, epoch := f.epoch })) ∧
  (∀ (g : Fin 32) (s : State), s.objNum 0x4210 4 ≤ s.clusters[g].rake.accesses →
    Yields (.clocheDecay g) s (fun t => OnlyCluster g s t ∧ t.clusters[g].rake.accesses = 0 ∧
      ∀ k, tabGet t.clusters[g].rake.cloche [] k =
        (tabGet s.clusters[g].rake.cloche [] k).map (decayWay (s.objNum 0x4210 1))))

/-- A one-row ORDERED SCATTER into a front end without partials holds one partial, its gradient added to +0.0, and
finishes. A FLUSH sends the selected partial (of its micro-batch and tables, in FREE mode any) of a row owned
here to this device's back ends, closes a FREE window, and finishes once it is recorded; a full FREE window sends
its own. ARM_OWNER writes its SEASON to OWNER_SEASON of the table's descriptor. A partial with none of its
sender's ahead of it to the same back end is recorded there: an ORDERED one of a row owned here, not recorded
before and with room in the log, with its source and micro-batch; a FREE one opens its accumulator from +0.0.
TRANSPLANT_COPY sends the next row of a moving shard to its new owner, in WRITE packets of at most 4,096 bytes at
rising addresses. -/
def Obligations.ContributionsCombineAndLeave : Prop :=
  (∀ (g : Fin 32) (r : Running) (td : TableDesc) (row : Nat) (grad : List U32) (s : State),
      let c := scatterCtl r.q.desc
      s.activeOp g .sprinkler 1 = some r → r.phase = .started → s.scatterBad r.q.desc c = none → s.table c.table = some td →
      td.frozen = false → s.shadowPending = false → s.clusters[g].sprinkler.free = false → s.clusters[g].sprinkler.parts = [] →
      tabGet s.clusters[g].sprinkler.taken 0 c.mb ≤ c.firstPos + 1 → c.expand = 0 → c.count = 1 →
      s.scatterEntry g c 0 = .ok row → s.scatterOwner g c.table td 0 row = .ok () →
      s.checkAll (.ofCluster g .any) (scatterRanges c td.dim) = .ok () → s.gradRow g c td.dim 0 0 = .ok grad →
    Yields (.scatter g) s (fun t => OnlyCluster g s t ∧
      t.clusters[g].sprinkler.contributions = s.clusters[g].sprinkler.contributions + 1 ∧
      tabGet t.clusters[g].sprinkler.taken 0 c.mb = c.firstPos + 1 ∧
      (∃ p, t.clusters[g].sprinkler.parts = [p] ∧ p.table = c.table ∧ p.row = row ∧ p.mb = c.mb ∧
        p.elems = grad.map (fun v => fadd arithRne 0 v)) ∧
      { r with phase := .finished, summary := none } ∈ (t.queue g .sprinkler).running)) ∧
  (∀ (g : Fin 32) (r : Running) (td : TableDesc) (p : FrontPartial) (slot addr : Nat) (s : State),
      s.activeOp g .sprinkler 2 = some r → r.phase = .started → firstNonzero (descWords r.q.desc) flushSpans = none →
      s.frozenIn (r.q.desc.bits 2 31 16) = none →
      s.clusters[g].sprinkler.parts.filter (fun p => s.clusters[g].sprinkler.free || (decide (p.mb = r.q.desc.bits 2 15 0) &&
        bitOf (r.q.desc.bits 2 31 16) p.table)) = [p] →
      s.table p.table = some td → s.locate .any p.table td 0 p.row = .ok (s.devNumber, slot, addr) →
    Yields (.flush g) s (fun t => t.mem = s.mem ∧
      t.partials = s.partials ++ [⟨some g.val, s.devNumber, p.table, p.row, p.mb,
        s.dies[dieOfCluster g].upd.stepNumber.toNat, p.elems, s.clusters[g].sprinkler.free⟩] ∧
      p ∉ t.clusters[g].sprinkler.parts ∧ tabGet t.clusters[g].sprinkler.taken 0 (r.q.desc.bits 2 15 0) = 0 ∧
      t.clusters[g].sprinkler.windowPos = 0 ∧
      { r with phase := .working } ∈ (t.queue g .sprinkler).running)) ∧
  (∀ (g : Fin 32) (r : Running) (s : State), s.activeOp g .sprinkler 2 = some r → r.phase = .working →
      s.partialsRecorded g = true →
    Yields (.flush g) s (fun t => OnlyCluster g s t ∧
      { r with phase := .finished, summary := none } ∈ (t.queue g .sprinkler).running)) ∧
  (∀ (g : Fin 32) (td : TableDesc) (p : FrontPartial) (slot addr : Nat) (s : State), s.clusters[g].sprinkler.free = true →
      s.objNum 0x4220 2 ≤ s.clusters[g].sprinkler.windowPos → s.clusters[g].sprinkler.parts = [p] →
      s.table p.table = some td → s.locate .any p.table td 0 p.row = .ok (s.devNumber, slot, addr) →
    Yields (.freeWindowClose g) s (fun t => t.clusters[g].sprinkler.parts = [] ∧ t.clusters[g].sprinkler.windowPos = 0 ∧
      t.partials.length = s.partials.length + 1 ∧ t.mem = s.mem)) ∧
  (∀ (g : Fin 32) (r : Running) (td : TableDesc) (s : State), s.activeOp g .sprinkler 3 = some r →
      firstNonzero (descWords r.q.desc) armSpans = none → s.table (r.q.desc.bits 2 3 0) = some td →
      s.clusters[g].season < r.q.desc.bits 3 47 0 → td.ownerSeason = 0 →
    Yields (.armOwner g) s (fun t => t.mem = s.mem ∧
      t.table (r.q.desc.bits 2 3 0) = some { td with ownerSeason := r.q.desc.bits 3 47 0 } ∧
      { r with phase := .finished, summary := none } ∈ (t.queue g .sprinkler).running)) ∧
  (∀ (i : Nat) (p : PartialMsg) (td : TableDesc) (slot addr : Nat) (s : State),
      let k := stackOf addr
      s.partials[i]? = some p → (s.partials.take i).any (s.partialBehind p) = false → s.table p.table = some td → s.locate .any p.table td 0 p.row = .ok (s.devNumber, slot, addr) →
      s.rowComing p.table td p.row = false → s.granuleFail (.req 3) addr 1 (addr / 4096) = none → p.free = false →
      logHas p.table p.row p.source p.mb s.hbm[k].log = false →
      logBytes s.hbm[k] + partialBytes p.elems.length ≤ s.logArea k →
    Yields (.partialAppend i) s (fun t => OnlyStack k { s with partials := listDel s.partials i } t ∧
      ∃ r ∈ t.hbm[k].log, r.table = p.table ∧ r.row = p.row ∧ (p.source, p.mb, p.elems) ∈ r.parts)) ∧
  (∀ (i : Nat) (p : PartialMsg) (td : TableDesc) (slot addr : Nat) (s : State),
      let k := stackOf addr
      s.partials[i]? = some p → (s.partials.take i).any (s.partialBehind p) = false → s.table p.table = some td → s.locate .any p.table td 0 p.row = .ok (s.devNumber, slot, addr) →
      s.rowComing p.table td p.row = false → s.granuleFail (.req 3) addr 1 (addr / 4096) = none → p.free = true →
      logAcc p.table p.row s.hbm[k].log = none →
      logBytes s.hbm[k] + partialBytes p.elems.length ≤ s.logArea k →
    Yields (.partialAppend i) s (fun t => OnlyStack k { s with partials := listDel s.partials i } t ∧
      ∃ r ∈ t.hbm[k].log, r.table = p.table ∧ r.row = p.row ∧ r.acc = some (p.elems.map (fun v => fadd arithRne 0 v)))) ∧
  (∀ (i : Nat) (m : MoveJob) (td : TableDesc) (bs : List Byte) (s : State),
      let row := m.shard * 2 ^ td.shardLog2 + m.nextRow
      s.moves[i]? = some m → s.table m.table = some td → m.nextRow < m.rows →
      s.readChecked (.req 4) (recordAddr td m.oldSlot row) td.stride = .ok bs →
      (s.route m.newDevice (flowSide s.devNumber m.newDevice 0)).isSome = true →
    Yields (.transplantCopy i) s (fun t => t.mem = s.mem ∧
      t.moves = listSet s.moves i { m with nextRow := m.nextRow + 1 } ∧
      ∀ (n : Nat) (b : List Byte), (payloadParts (bs.length / maxPayload) bs)[n]? = some b →
        ∃ y ∈ (t.txFlow m.newDevice 0).unacked, y.ptype = .write ∧ y.dst = m.newDevice ∧ y.payload = b ∧
          y.key0 = BitVec.ofNat 64 (recordAddr td m.newSlot row + maxPayload * n)))

/-- For every asking set that is not empty the arbiter decides and its winner is in the set. While some asker holds
tickets the winner holds some, the LFSR takes 16 steps and RR stays; while none does, the LFSR stays and RR goes
to the place after the winner. The decision itself moves no grant. -/
def Obligations.LotteryDrawsFromTheAskers : Prop :=
  ∀ (n : Nat) (as : Asking) (a : Arbiter), as ≠ [] →
    ∃ r x, lottery n as a = some (r, x) ∧ x.grant = a.grant ∧ ∃ p ∈ as, p.1 = r ∧ (0 < askTotal as → 0 < p.2) ∧
      (0 < askTotal as → x.lfsr = lfsrSteps 16 a.lfsr ∧ x.rr = a.rr) ∧
      (askTotal as = 0 → x.lfsr = a.lfsr ∧ x.rr = (r + 1) % max 8 n)

/-- A decision at a pseudo-channel whose transfer has ended grants the winner, of the requests that wait and those
that come, the first of its own, which waits no more, and counts the grant; while a transfer is under way none is
made. A decision at a Trellis output or a link die's egress grants its winner, and none while flow control stops
it. A contest without askers keeps what has come. A decision at any arbiter, a fabric port's among them,
completes and leaves memory, clusters, cores and beds as they were. A TICKETS write is in force at once and
revokes no grant; one that is not reached changes nothing; a seed other than 0 reloads every arbiter of the
stack. A bite on requester 2 or above, once its grant has lasted as long as its limit, ends that grant, sets the
requester's fence bit, counts and raises its event, and a grant that follows is another requester's; memory
stays. At any arbiter, a bite on a grant that has lasted its limit raises its event, and one on a younger grant,
or on none, changes nothing. -/
def Obligations.GrantsTicketsAndBites : Prop :=
  (∀ (k : Fin 12) (pc : Fin 64) (asks : List Ask) (r : Nat) (x : Arbiter) (s : State),
      let a := ArbId.channel k pc
      s.arbLive a = true → (s.arb a).grant = none →
      lottery 8 (s.asking a (s.arbWaiting a asks)) (s.arb a) = some (r, x) →
    Yields (.lotteryDecision a asks) s (fun t =>
      t = { s with hbm := s.hbm.set k t.hbm[k], lastArb := some (a, r) } ∧
      (∃ y ∈ s.arbWaiting a asks, y.requester.val = r ∧
        t.arb a = { x with grant := some ⟨y, 0, s.objNum 0x5010 1⟩, queue := askDrop a (s.arbWaiting a asks) r }) ∧
      t.hbm[k].grants[r % 8] = s.hbm[k].grants[r % 8] + 1)) ∧
  (∀ (k : Fin 12) (pc : Fin 64) (asks : List Ask) (s : State), (s.arb (.channel k pc)).grant.isSome = true →
    exec (.lotteryDecision (.channel k pc) asks) s = .next s) ∧
  (∀ (d : Fin 4) (stop : Fin 16) (output : Fin 5) (vc : Fin 4) (asks : List Ask) (r : Nat) (x : Arbiter) (s : State),
      let a := ArbId.trellis d stop output vc
      s.arbLive a = true → s.arbStopped a = false →
      lottery 5 (s.asking a (s.arbWaiting a asks)) (s.arb a) = some (r, x) →
    Yields (.lotteryDecision a asks) s (fun t =>
      t = { s with dies := s.dies.set d t.dies[d], lastArb := some (a, r) } ∧
      ∃ y ∈ s.arbWaiting a asks, y.requester.val = r ∧
        t.arb a = { x with grant := some ⟨y, 0, s.objNum 0x5010 1⟩, queue := askDrop a (s.arbWaiting a asks) r })) ∧
  (∀ (l edge : Fin 2) (vc : Fin 4) (asks : List Ask) (r : Nat) (x : Arbiter) (s : State),
      let a := ArbId.egress l edge vc
      s.arbLive a = true → s.arbStopped a = false →
      lottery 9 (s.asking a (s.arbWaiting a asks)) (s.arb a) = some (r, x) →
    Yields (.lotteryDecision a asks) s (fun t =>
      t = { s with pools := s.pools.set l t.pools[l], lastArb := some (a, r) } ∧
      ∃ y ∈ s.arbWaiting a asks, y.requester.val = r ∧
        t.arb a = { x with grant := some ⟨y, 0, s.objNum 0x5010 1⟩, queue := askDrop a (s.arbWaiting a asks) r })) ∧
  (∀ (a : ArbId) (asks : List Ask) (s : State), (∀ p vc, a ≠ .port p vc) → s.arbLive a = true → s.arbStopped a = false →
      (s.arb a).grant = none → s.asking a (s.arbWaiting a asks) = [] →
    Yields (.lotteryDecision a asks) s (fun t => t.arb a = { s.arb a with queue := s.arbWaiting a asks } ∧
      t = { s with hbm := t.hbm, dies := t.dies, pools := t.pools })) ∧
  (∀ (a : ArbId) (asks : List Ask) (s : State), s.arbLive a = false ∨ s.arbStopped a = true →
    exec (.lotteryDecision a asks) s = .next s) ∧
  (∀ (a : ArbId) (asks : List Ask) (s : State),
    Yields (.lotteryDecision a asks) s (fun t => t.mem = s.mem ∧ t.clusters = s.clusters ∧ t.cores = s.cores ∧
      t.beds = s.beds ∧ t.aon = s.aon ∧ t.job = s.job ∧ t.rot = s.rot)) ∧
  (∀ (a : ArbId) (v : Word) (s : State), s.arbLive a = true →
    Yields (.ticketsWrite a v) s (fun t => t.arb a = s.arb a ∧
      (∀ r < arbWidth a, r ≠ 8 → t.arbTickets a r = bitsOf v.toNat (8 * r + 7) (8 * r)) ∧
      t = { s with hbm := t.hbm, dies := t.dies, pools := t.pools, ports := t.ports })) ∧
  (∀ (a : ArbId) (v : Word) (s : State), s.arbLive a = false → exec (.ticketsWrite a v) s = .next s) ∧
  (∀ (k : Fin 12) (pc : Fin 64) (v : BitVec 16) (s : State), s.bedOn (bedStack k.val) = true → s.stackFenced k = false →
      v ≠ 0 →
    Yields (.lfsrSeedWrite k v) s (fun t => OnlyStack k s t ∧ t.hbm[k].lfsrSeed = v ∧
      (t.arb (.channel k pc)).rr = 0 ∧ (t.arb (.channel k pc)).grant = (s.arb (.channel k pc)).grant ∧
      (t.arb (.channel k pc)).lfsr =
        (if v ^^^ BitVec.ofNat 16 pc.val = 0 then 0xACE1 else v ^^^ BitVec.ofNat 16 pc.val))) ∧
  (∀ (k : Fin 12) (v : BitVec 16) (s : State),
    Yields (.lfsrSeedWrite k v) s (fun t => t = { s with hbm := s.hbm.set k t.hbm[k], health := t.health })) ∧
  (∀ (k : Fin 12) (pc : Fin 64) (age : Nat) (asks : List Ask) (g : Grant) (s : State),
      (s.arb (.channel k pc)).grant = some g → 2 ≤ g.ask.requester.val → g.ask.requester.val < 8 → g.limitUs ≤ age + 1 →
    Yields (.watchdogBite (.channel k pc) age asks) s (fun t =>
      bitOf t.hbm[k].fencedReq.toNat g.ask.requester.val = true ∧ t.hbm[k].wdBites = s.hbm[k].wdBites + 1 ∧
      (asks = [] → (s.arb (.channel k pc)).queue = [] → (t.arb (.channel k pc)).grant = none) ∧
      (∀ g', (t.arb (.channel k pc)).grant = some g' → g'.moved = 0 ∧ g'.ask.requester ≠ g.ask.requester) ∧
      (s.bedOn bedRot = true → ∃ e ∈ t.health.raised, e.code = 0x0703) ∧
      t = { s with hbm := s.hbm.set k t.hbm[k], health := t.health, lastArb := t.lastArb })) ∧
  (∀ (a : ArbId) (age : Nat) (asks : List Ask) (g : Grant) (s : State), (s.arb a).grant = some g → g.limitUs ≤ age + 1 →
    Yields (.watchdogBite a age asks) s (fun t => t.aon = s.aon ∧ t.beds = s.beds ∧
      (s.bedOn bedRot = true → ∃ e ∈ t.health.raised, e.code = 0x0703))) ∧
  (∀ (a : ArbId) (age : Nat) (asks : List Ask) (s : State), (∀ g, (s.arb a).grant = some g → age + 1 < g.limitUs) →
    exec (.watchdogBite a age asks) s = .next s)

/-- An LFSR_SEED_WRITE of 0 to a stack whose registers are reached leaves everything but the event records as it was
and, while the ROT bed is on, appends one configuration event of the stack. -/
def Obligations.ZeroSeedIsRefused : Prop :=
  ∀ (k : Fin 12) (s : State), s.bedOn (bedStack k.val) = true → s.stackFenced k = false →
    Yields (.lfsrSeedWrite k 0) s (fun t => OnlyHealth s t ∧
      (s.bedOn bedRot = true → ∃ e : Event, t.health.raised = s.health.raised ++ [e] ∧ e.code = 0x0102 ∧
        e.unit = uidStack k.val))

/-- A unit of a granted transfer with errors in one to three bytes is read as it was written and counts one corrected
event of its granule; one without errors counts none. A unit with errors in four or five bytes, one that is
poisoned and one stored at another address is uncorrectable: it is poisoned and counted. A write of a whole unit
writes its bytes and ends its poison; a part of a clean unit is merged. An access that the rules refuse moves no
byte and raises its event, and one without a grant waits. A scrub counts a corrected unit and rewrites it without
errors; where another requester has written the unit meanwhile, what that wrote stands. A trained stack is READY
and reads as zero. The first retired entry not on the flash goes there. -/
def Obligations.AccessUnitsAreProtected : Prop :=
  (∀ (r : Fin 8) (a n : Nat) (u : Upset) (iss : Issuer) (g : Grant) (s : State), a < hbmEnd → a % 64 = 0 →
      s.unitFail r.val a iss = none → s.unitGrant r.val a false iss = some g → (s.fifo (hbmFifo .hbmRead a)).flow = false →
      ((s.upsetUnit a u).errorsAt a).length = n → n ≤ 3 → u.misplaced = false →
      s.hbm[stackOf a].poisoned.contains a = false →
      ((s.hbm[stackOf a].ceEvents.find? (fun x => decide (x.1 = a / 4096 * 4096))).map (·.2)).getD 0 + 1 < s.objNum 0x5010 3 →
    Yields (.hbmRead ⟨r, a⟩ u iss) s (fun t => t.hbm[stackOf a].ceCount = s.hbm[stackOf a].ceCount + (if n = 0 then 0 else 1) ∧
      (∃ x, t.lastAccess = some x ∧ x.unit = a ∧ x.requester = r.val ∧ x.write = false ∧ x.data = s.readMem a 64) ∧
      t = { s with hbm := s.hbm.set (stackOf a) t.hbm[stackOf a], lastAccess := t.lastAccess })) ∧
  (∀ (r : Fin 8) (a n : Nat) (u : Upset) (iss : Issuer) (g : Grant) (s : State), a < hbmEnd → a % 64 = 0 →
      iss = .baseDie ∨ iss = .linkDie 0 ∨ iss = .linkDie 1 →
      s.unitFail r.val a iss = none → s.unitGrant r.val a false iss = some g → (s.fifo (hbmFifo .hbmRead a)).flow = false →
      ((s.upsetUnit a u).errorsAt a).length = n →
      u.misplaced = true ∨ s.hbm[stackOf a].poisoned.contains a = true ∨ n = 4 ∨ n = 5 →
    Yields (.hbmRead ⟨r, a⟩ u iss) s (fun t => t.mem = s.mem ∧ t.hbm[stackOf a].poisoned.contains a = true ∧
      t.hbm[stackOf a].ueCount = s.hbm[stackOf a].ueCount + 1)) ∧
  (∀ (r : Fin 8) (a : Nat) (bs : List Byte) (u : Upset) (iss : Issuer) (g : Grant) (s : State),
      a < hbmEnd → a % 64 = 0 → bs.length = 64 → s.unitFail r.val a iss = none → s.unitGrant r.val a true iss = some g →
      (s.fifo (hbmFifo .hbmWrite a)).flow = false →
    Yields (.hbmWrite ⟨r, a⟩ bs u iss) s (fun t => t.readMem a 64 = bs ∧ SameMemoryBut a 64 s t ∧
      t.hbm[stackOf a].poisoned.contains a = false ∧
      t = { s with hbm := t.hbm, mem := t.mem, lastAccess := t.lastAccess })) ∧
  (∀ (r : Fin 8) (a unit : Nat) (bs : List Byte) (u : Upset) (iss : Issuer) (g : Grant) (s : State),
      unit = a / 64 * 64 → a < hbmEnd → bs ≠ [] → bs.length < 64 → a % 64 + bs.length ≤ 64 →
      s.unitFail r.val unit iss = none → s.unitGrant r.val unit true iss = some g → (s.fifo (hbmFifo .hbmWrite unit)).flow = false →
      (s.upsetUnit unit u).errorsAt unit = [] → u.misplaced = false → s.hbm[stackOf unit].poisoned.contains unit = false →
      s.partPoisoned a bs.length = [] →
    Yields (.hbmWrite ⟨r, a⟩ bs u iss) s (fun t => t.readMem a bs.length = bs ∧ SameMemoryBut a bs.length s t ∧
      t = { s with hbm := t.hbm, mem := t.mem, lastAccess := t.lastAccess })) ∧
  (∀ (r : Fin 8) (a : Nat) (u : Upset) (f : Fail) (s : State), a < hbmEnd → a % 64 = 0 → s.unitFail r.val a .baseDie = some f →
    Yields (.hbmRead ⟨r, a⟩ u .baseDie) s (fun t => t.mem = s.mem ∧
      (s.bedOn bedRot = true → ∃ e : Event, t.health.raised = s.health.raised ++ [e] ∧ e.code = BitVec.ofNat 16 f.code))) ∧
  (∀ (r : Fin 8) (a : Nat) (u : Upset) (iss : Issuer) (s : State),
      s.unitFail r.val a iss = none → s.unitGrant r.val a false iss = none → exec (.hbmRead ⟨r, a⟩ u iss) s = .next s) ∧
  (∀ (k : Fin 12) (a n : Nat) (u : Upset) (s : State), stackOf a = k → a < hbmEnd → a % 64 = 0 →
      s.stackReady k = true → s.reqFenced (.req 7) k = false → s.objNum 0x5010 2 ≠ 0 →
      (s.scrubStart k).hbm[k].scrubbed.contains a = false →
      ((s.upsetUnit a u).errorsAt a).length = n → 1 ≤ n → n ≤ 3 → u.misplaced = false → s.hbm[k].poisoned.contains a = false →
      ((s.hbm[k].ceEvents.find? (fun x => decide (x.1 = a / 4096 * 4096))).map (·.2)).getD 0 + 1 < s.objNum 0x5010 3 →
    (∀ bs : List Byte, bs.length = 64 →
      Yields (.scrub k a u (some bs)) s (fun t => t.hbm[k].scrubbed.contains a = true ∧ t.readMem a 64 = bs ∧
        SameMemoryBut a 64 s t ∧ t = { s with hbm := t.hbm, mem := t.mem })) ∧
    Yields (.scrub k a u none) s (fun t => OnlyStack k s t ∧ t.hbm[k].ceCount = s.hbm[k].ceCount + 1 ∧
      t.hbm[k].scrubbed.contains a = true ∧ t.errorsAt a = [])) ∧
  (∀ (k : Fin 12) (a : Nat) (s : State), s.bedOn (bedStack k.val) = true → s.hbm[k].state = .training → regionOf a = k.val →
    Yields (.stackReady k none) s (fun t => t.hbm[k] = { s.hbm[k] with state := .ready } ∧ t.mem.read a = 0 ∧
      t = { s with hbm := s.hbm.set k t.hbm[k], mem := t.mem })) ∧
  (∀ (k : Fin 12) (pre post : List Retired) (e : Retired) (s : State), s.bedOn bedRot = true → s.hbm[k].retired = pre ++ e :: post →
      pre.all (·.flashed.isSome) = true → e.flashed = none →
    Yields (.retiredListFlashCopy k) s (fun t => OnlyStack k s t ∧
      t.hbm[k].retired = pre ++ { e with flashed := some (s.hbm[k].poisonBit e) } :: post))

/-- For a COPY or FILL that passes its checks and meets no poisoned unit, every byte of every destination row holds
afterwards the source byte from before, or the byte of FILL_VALUE at its place, every byte outside the
destination rows reads as before, BYTES_WRITTEN rises by all rows, and the descriptor may complete. -/
def Obligations.CopyAndFillMoveEveryRow : Prop :=
  ∀ (n : Fin 256) (r : Running) (s : State),
    let g := clusterOfCore n
    let q := QueueId.transfer (coreK n)
    let c := copyCtl r.q.desc
    s.copyCheck n r.q c = .ok () → (State.copyRows n c c.rows 0 s).2 = none →
    let Rest (t : State) : Prop := (∀ a, (∀ i < c.rows, a < c.dst + i * c.dstStride ∨ c.dst + i * c.dstStride + c.rowBytes ≤ a) →
        t.mem.read a = s.mem.read a) ∧
      t.cores[n].xfer.bytesWritten = s.cores[n].xfer.bytesWritten + BitVec.ofNat 64 (c.rows * c.rowBytes) ∧
      { r with phase := .finished, summary := none } ∈ (t.queue g q).running ∧
      t = { s with clusters := s.clusters.set g t.clusters[g], cores := s.cores.set n t.cores[n], mem := t.mem, hbm := t.hbm }
    (s.activeOp g q 1 = some r → Yields (.copy n) s (fun t => Rest t ∧ ∀ i < c.rows, ∀ j < c.rowBytes,
      t.mem.read (c.dst + i * c.dstStride + j) = s.mem.read (c.src + i * c.srcStride + j))) ∧
    (s.activeOp g q 2 = some r → Yields (.fill n) s (fun t => Rest t ∧ ∀ i < c.rows, ∀ j < c.rowBytes,
      t.mem.read (c.dst + i * c.dstStride + j) = BitVec.ofNat 8 (c.value / 256 ^ (j % 8))))

/-- A started ILOAD or ISTORE that passes its checks has its threads' first entries at 0 to THREADS - 1. An issued
entry that claims slots joins those in flight, and its thread goes on by THREADS; one that lies in the core's own
window moves its element and counts at once; one whose address fails raises its event and posts no token. A
completed load writes its element, from memory or a register, to its near place, a completed store to its remote
one, and counts in ENTRIES; an entry that must wait for an earlier one of its bank stays. -/
def Obligations.ThreadsIssueAndComplete : Prop :=
  (∀ (n : Fin 256) (r : Running) (s : State),
      let g := clusterOfCore n
      let q := QueueId.thread (coreK n)
      r.phase = .started → s.threadCheck n r.q (threadCtl r.q.desc) = .ok () →
      let Taken (t : State) : Prop := t.cores[n].thr.job =
          some ⟨{ r with phase := .working }, List.range (threadCtl r.q.desc).threads, [], [], false⟩ ∧
        t = { s with clusters := s.clusters.set g t.clusters[g], cores := s.cores.set n t.cores[n] }
      (s.activeOp g q 1 = some r → Yields (.iload n) s Taken) ∧ (s.activeOp g q 2 = some r → Yields (.istore n) s Taken)) ∧
  (∀ (n : Fin 256) (j : ThreadJob) (t i : Nat) (held : List Nat) (s : State), s.cores[n].thr.job = some j →
      s.threadScan n j s.cores[n].thr.cap s.cores[n].thr.turn j.next.length = (held, some t) → j.nextOf t = some i →
      let c := threadCtl j.run.q.desc
      let e := s.threadEntry n c t i
      (s.accessFail (c.who n) e.remote c.elem = none → e.slots ≠ [] →
        Yields (.threadIssue n) s (fun t' => OnlyCore n s t' ∧ ∃ j', t'.cores[n].thr.job = some j' ∧ j'.run = j.run ∧
          j'.next = listSet j.next t (i + c.threads) ∧ j'.inFlight = j.inFlight ++ [e])) ∧
      (s.accessFail (c.who n) e.remote c.elem = none → e.slots = [] →
        Yields (.threadIssue n) s (fun t' => t'.cores[n].thr.entries = s.cores[n].thr.entries + 1 ∧
          t'.mem = (if c.store then s.writeMem e.remote e.data else s.writeMem e.near (s.readMem e.remote c.elem)).mem ∧
          (∀ j', t'.cores[n].thr.job = some j' → j'.inFlight = j.inFlight ∧ j'.next = listSet j.next t (i + c.threads)) ∧
          t' = { s with clusters := t'.clusters, cores := s.cores.set n t'.cores[n], mem := t'.mem, hbm := t'.hbm })) ∧
      (∀ f : Fail, s.accessFail (c.who n) e.remote c.elem = some f → j.failed = false →
        Yields (.threadIssue n) s (fun t' => t'.mem = s.mem ∧ t'.posts = s.posts ∧
          (∀ j', t'.cores[n].thr.job = some j' → j'.failed = true ∧ j'.inFlight = j.inFlight) ∧
          (s.bedOn bedRot = true → ∃ e : Event, t'.health.raised = s.health.raised ++ [e] ∧ e.code = BitVec.ofNat 16 f.code)))) ∧
  (∀ (n : Fin 256) (j : ThreadJob) (i : Nat) (e : Entry) (s : State), s.cores[n].thr.job = some j → j.inFlight[i]? = some e →
      let c := threadCtl j.run.q.desc
      let Counted (t : State) : Prop := t.cores[n].thr.entries = s.cores[n].thr.entries + 1 ∧
        ∀ j', t.cores[n].thr.job = some j' → j'.inFlight = listDel j.inFlight i
      (entryInTurn (s.cores[n].thr.orphans ++ j.inFlight.take i) e = false → exec (.entryComplete n i) s = .next s) ∧
      (∀ bs : List Byte, entryInTurn (s.cores[n].thr.orphans ++ j.inFlight.take i) e = true → c.store = false →
        e.remote < unitBase → s.readChecked (.ofCore n (.req 0)) e.remote c.elem = .ok bs →
        Yields (.entryComplete n i) s (fun t => Counted t ∧ t.mem = (s.writeMem e.near bs).mem ∧
          SameMemoryBut e.near bs.length s t)) ∧
      (entryInTurn (s.cores[n].thr.orphans ++ j.inFlight.take i) e = true → c.store = false →
        unitBase ≤ e.remote → s.readFail (.ofCore n (.req 0)) e.remote c.elem = none →
        Yields (.entryComplete n i) s (fun t => Counted t ∧
          t.mem = (s.writeMem e.near (leBytes c.elem (s.regRead e.remote c.elem))).mem)) ∧
      (∀ w : State, entryInTurn (s.cores[n].thr.orphans ++ j.inFlight.take i) e = true → c.store = true →
        e.remote < unitBase → s.writeChecked (.ofCore n (.req 1)) e.remote e.data = .ok w →
        Yields (.entryComplete n i) s (fun t => Counted t ∧ t.mem = w.mem ∧ SameMemoryBut e.remote e.data.length s t)))

/-- The first started command of an array that passes its checks joins the array's commands with the passes that it
is cut into, all still to start; the array's mode register takes its mode. Only its core and its cluster's queue
change: no memory is written yet. -/
def Obligations.MatrixCommandsBecomePasses : Prop :=
  ∀ (n : Fin 256) (r : Running) (s : State),
    let Taken (mode : StatMode) (bs : List Byte) (ps : List Pass) (t : State) : Prop :=
      t.cores[n].mtx.jobs = s.cores[n].mtx.jobs ++ [⟨{ r with phase := .working }, mode, bs, ps⟩] ∧
      t.cores[n].mtx.mode = mode ∧ { r with phase := .working } ∈ (t.queue (clusterOfCore n) (.matrix (coreK n))).running ∧
      t = { s with clusters := s.clusters.set (clusterOfCore n) t.clusters[clusterOfCore n],
                   cores := s.cores.set n t.cores[n] }
    (∀ (ps : List (Nat × Nat × Nat)) (bs : List Byte),
      let c := matmulCtl r.q.desc
      s.matrixNext n 1 = some r → s.matCheck n r.q c = .ok ps → s.metaCheck n r.q c ps = .ok bs →
      Yields (.matmul n) s (Taken (c.modeTaken bs) bs (c.passes (c.modeTaken bs) bs))) ∧
    (∀ (ps : List (Nat × Nat × Nat)) (bs : List Byte),
      let c := fillCtl r.q.desc
      s.matrixNext n 2 = some r → s.matCheck n r.q c = .ok ps → s.metaCheck n r.q c ps = .ok bs →
      Yields (.matmulFill n) s (Taken (c.modeTaken bs) bs (c.passes (c.modeTaken bs) bs))) ∧
    (∀ ps : List (Nat × Nat × Nat),
      let v := convCtl r.q.desc
      s.matrixNext n 3 = some r → s.convCheck n r.q v (v.mat r.q.desc) = .ok ps →
      Yields (.conv n) s (Taken .output [] v.passes))

/-- The first pass not yet started, not held and with a context free, fires: the firings rise by its array periods
and the bytes it will write are fixed from the operands as they stand; memory stays. A held one counts one hazard
hold and does not fire; a skipped one counts as skipped and fires nothing. The first pass that may drain writes
those bytes and counts. The next tile enters the finished-tile queue while a slot is free, and its rows lie in
the lowest free slot. A CONVERT that passes its checks while every pass before it has started converts all its M
× K elements, raises ELEMS_CONVERTED by them and finishes; memory is as its run leaves it, and the array fires
nothing. -/
def Obligations.PassesFireDrainAndConvert : Prop :=
  (∀ (n : Fin 256) (before : List MatrixJob) (j : MatrixJob) (p : Pass) (s : State),
      let o := s.startOps n j p
      nextPass [] s.cores[n].mtx.jobs = some (before, j, p) → s.cores[n].mtx.nextHeld n s.cores[n].tbuf = false →
      p.skipped = false → s.cores[n].mtx.contexts < 4 → (∀ x ∈ before, x.run ≠ j.run) →
    Yields (.passStart n) s (fun t => t.mem = s.mem ∧
      t.cores[n].mtx.firings = s.cores[n].mtx.firings + BitVec.ofNat 64 p.periods ∧
      ∃ j' ∈ t.cores[n].mtx.jobs, j'.run = j.run ∧ ∃ p' ∈ j'.passes, p'.phase = .firing ∧ p'.row0 = p.row0 ∧
        p'.col0 = p.col0 ∧ p'.writes = passWrites o p (s.passOut n j.run o p (s.passGroups n j.run o p).1 (s.passGroups n j.run o p).2))) ∧
  (∀ (n : Fin 256) (before : List MatrixJob) (j : MatrixJob) (p : Pass) (s : State),
      nextPass [] s.cores[n].mtx.jobs = some (before, j, p) → s.cores[n].mtx.nextHeld n s.cores[n].tbuf = true → p.held = false →
    Yields (.passStart n) s (fun t => OnlyCore n s t ∧ t.cores[n].mtx.hazardHolds = s.cores[n].mtx.hazardHolds + 1 ∧
      t.cores[n].mtx.firings = s.cores[n].mtx.firings)) ∧
  (∀ (n : Fin 256) (before : List MatrixJob) (j : MatrixJob) (p : Pass) (s : State),
      nextPass [] s.cores[n].mtx.jobs = some (before, j, p) → s.cores[n].mtx.nextHeld n s.cores[n].tbuf = false →
      p.skipped = true →
    Yields (.passStart n) s (fun t => t.cores[n].mtx.skipped = s.cores[n].mtx.skipped + 1 ∧
      t.cores[n].mtx.firings = s.cores[n].mtx.firings)) ∧
  (∀ (n : Fin 256) (j : MatrixJob) (p : Pass) (s : State), drainNext s.cores[n].mtx.jobs = some (j, p) →
    Yields (.passDrainEnd n) s (fun t => t.mem = (s.writeAll p.writes).mem ∧
      t.cores[n].mtx.passes = s.cores[n].mtx.passes + 1 ∧
      (∀ a, (∀ w ∈ p.writes, a < w.1 ∨ w.1 + w.2.length ≤ a) → t.mem.read a = s.mem.read a) ∧
      t = { s with clusters := t.clusters, cores := s.cores.set n t.cores[n], mem := t.mem, hbm := t.hbm })) ∧
  (∀ (n : Fin 256) (j : MatrixJob) (p : Pass) (x : Tile) (s : State), tileNext s.cores[n].mtx.jobs = some (j, p, x) →
      s.cores[n].vec.ftq.length < s.cores[n].vec.ftqSlots →
    let y : SlotTile := ⟨x.h0, x.h1, freeSlot s.cores[n].vec⟩
    Yields (.tileEnter n) s (fun t => t.cores[n].vec.ftq = s.cores[n].vec.ftq ++ [y] ∧
      t.mem = (s.storeTile n y.slot x).mem ∧
      (∀ a, (∀ i < y.rows, a < tileRowAddr n y.slot y.fmt i ∨ tileRowAddr n y.slot y.fmt i + y.cols * tileElem y.fmt ≤ a) →
        t.mem.read a = s.mem.read a))) ∧
  (∀ (n : Fin 256) (s : State), s.cores[n].vec.ftqSlots ≤ s.cores[n].vec.ftq.length → exec (.tileEnter n) s = .next s) ∧
  (∀ (n : Fin 256) (r : Running) (ps : List (Nat × Nat × Nat)) (s : State),
    let c := convertCtl r.q.desc
    s.matrixNext n 4 = some r → nextPass [] s.cores[n].mtx.jobs = none → s.convertCheck n r.q c = .ok ps →
    Yields (.convert n) s (fun t =>
      t.cores[n].tbuf.elemsConverted = s.cores[n].tbuf.elemsConverted + BitVec.ofNat 64 (c.m * c.k) ∧
      t.cores[n].mtx = s.cores[n].mtx ∧ t.mem = (s.convertRun n r c ps).mem ∧
      { r with phase := .finished, summary := none } ∈ (t.queue (clusterOfCore n) (.matrix (coreK n))).running))

/-- A CHAIN without FTQ that passes its checks changes no byte outside its destination, scale and row-result extents,
counts its positions and may complete with its summary. One with FTQ whose queue is empty keeps the stage words
that it has read and waits; otherwise it takes the head tile and writes nothing before the last, and with the
last its destination, scales and row results. TILE_DROP takes the head tile and counts it, and ends at the tile
with LAST. -/
def Obligations.ChainsWriteTheirResults : Prop :=
  (∀ (n : Fin 256) (r : Running) (stages : List Word) (ps : List (Nat × Nat × Nat)) (s : State),
      let c := chainCtl r.q.desc
      let q := QueueId.vector (coreK n)
      s.activeOp (clusterOfCore n) q 1 = some r → r.phase = .started → s.chainCheck n r.q c = .ok (stages, ps) →
      c.ftq = false →
    Yields (.chain n) s (fun t =>
      (∀ a, (∀ p ∈ ps, isWritten p.1 = true → a < p.2.1 ∨ p.2.1 + p.2.2 ≤ a) → t.mem.read a = s.mem.read a) ∧
      t.cores[n].vec.elements = s.cores[n].vec.elements + BitVec.ofNat 64 (c.rows * c.cols) ∧
      ∃ x, (x.isSome = c.summary) ∧ { r with phase := .finished, summary := x } ∈ (t.queue (clusterOfCore n) q).running)) ∧
  (∀ (n : Fin 256) (r : Running) (stages : List Word) (ps : List (Nat × Nat × Nat)) (x : SlotTile) (rest : List SlotTile) (s : State),
      let c := chainCtl r.q.desc
      let q := QueueId.vector (coreK n)
      s.activeOp (clusterOfCore n) q 1 = some r → r.phase = .started → s.chainCheck n r.q c = .ok (stages, ps) →
      c.ftq = true → s.cores[n].vec.ftq = x :: rest → tileMismatch c x = false → x.last = false →
    Yields (.chain n) s (fun t => t.mem = s.mem ∧ t.cores[n].vec.ftq = rest ∧
      t.cores[n].vec.tilesConsumed = s.cores[n].vec.tilesConsumed + 1 ∧
      { r with phase := .working } ∈ (t.queue (clusterOfCore n) q).running)) ∧
  (∀ (n : Fin 256) (r : Running) (stages : List Word) (ps : List (Nat × Nat × Nat)) (x : SlotTile) (rest : List SlotTile) (s : State),
      let c := chainCtl r.q.desc
      let q := QueueId.vector (coreK n)
      s.activeOp (clusterOfCore n) q 1 = some r → r.phase = .started → s.chainCheck n r.q c = .ok (stages, ps) →
      c.ftq = true → s.cores[n].vec.ftq = x :: rest → tileMismatch c x = false → x.last = true →
    Yields (.chain n) s (fun t => t.cores[n].vec.ftq = rest ∧
      (∀ a, (∀ p ∈ ps, isWritten p.1 = true → a < p.2.1 ∨ p.2.1 + p.2.2 ≤ a) → t.mem.read a = s.mem.read a) ∧
      t.cores[n].vec.elements = s.cores[n].vec.elements + BitVec.ofNat 64 (c.rows * c.cols) ∧
      ∃ y, (y.isSome = c.summary) ∧ { r with phase := .finished, summary := y } ∈ (t.queue (clusterOfCore n) q).running)) ∧
  (∀ (n : Fin 256) (r : Running) (stages : List Word) (ps : List (Nat × Nat × Nat)) (s : State),
      let c := chainCtl r.q.desc
      let q := QueueId.vector (coreK n)
      s.activeOp (clusterOfCore n) q 1 = some r → r.phase = .started → s.chainCheck n r.q c = .ok (stages, ps) →
      c.ftq = true → s.cores[n].vec.ftq = [] →
    Yields (.chain n) s (fun t => OnlyCore n s t ∧ t.cores[n].vec.job = some ⟨stages, []⟩ ∧
      { r with phase := .working } ∈ (t.queue (clusterOfCore n) q).running)) ∧
  (∀ (n : Fin 256) (r : Running) (x : SlotTile) (rest : List SlotTile) (s : State),
      let q := QueueId.vector (coreK n)
      s.activeOp (clusterOfCore n) q 2 = some r → firstNonzero (descWords r.q.desc) bodySpans = none →
      s.cores[n].vec.ftq = x :: rest →
    Yields (.tileDrop n) s (fun t => t.mem = s.mem ∧ t.cores[n].vec.ftq = rest ∧
      t.cores[n].vec.tilesDropped = s.cores[n].vec.tilesDropped + 1 ∧
      { r with phase := if x.last then Phase.finished else .working, summary := if x.last then none else r.summary } ∈
        (t.queue (clusterOfCore n) q).running))

/-- Each of the five commands that passes its checks changes no byte outside its written extents, counts its rows and
may complete. After a forward one the record of every row holds the two statistics that its rule gives for the
row. -/
def Obligations.RowEngineKeepsItsRecords : Prop :=
  ∀ (n : Fin 256) (r : Running) (ps : List (Nat × Nat × Nat)) (s : State),
    let g := clusterOfCore n
    let q := QueueId.row (coreK n)
    let c := rowCtl r.q.desc
    let a := stageArith (arithCtlOf c.arith)
    s.rowCheck n r.q c = .ok ps →
    let Done (t : State) : Prop :=
      (∀ x, (∀ p ∈ ps, rowIsWritten c p.1 = true → x < p.2.1 ∨ p.2.1 + p.2.2 ≤ x) → t.mem.read x = s.mem.read x) ∧
      t.cores[n].row.rowsDone = s.cores[n].row.rowsDone + BitVec.ofNat 64 c.rows ∧
      { r with phase := .finished, summary := (s.rowRun n r c ps).2 } ∈ (t.queue g q).running
    let Records (t : State) : Prop := ∀ i < c.rows,
      t.readNat (placeOf ps 7 + 8 * i) 4 = (rowEval a c (s.rowInputs a c ps i)).stat0.toNat ∧
      t.readNat (placeOf ps 7 + 8 * i + 4) 4 = (rowEval a c (s.rowInputs a c ps i)).stat1.toNat
    (s.activeOp g q 1 = some r → Yields (.normFwd n) s (fun t => Done t ∧ Records t)) ∧
    (s.activeOp g q 2 = some r → Yields (.normBwd n) s Done) ∧
    (s.activeOp g q 3 = some r → Yields (.softmaxFwd n) s (fun t => Done t ∧ Records t)) ∧
    (s.activeOp g q 4 = some r → Yields (.softmaxBwd n) s Done) ∧
    (s.activeOp g q 5 = some r → Yields (.lse n) s (fun t => Done t ∧ Records t))

/-- A started GRAD_SEND whose fields and source pass adds its values, FP32 or BF16 widened, as this device's chunks
of its group; no memory changes. A ready chunk leaves the staging region; at its root a gradient chunk is written
to the group's landing area, and elsewhere its sum goes to the parent in the root's tree. A started UPDATE whose
fields pass and that may start records micro-batch count and learning rate for each of its groups and adds their
units to the die's work; one whose groups have none here completes. PARTIAL_SUM forms the sum of the next row's
partials. ROW_UPDATE does the first item that may be done and takes it from the work. -/
def Obligations.GradientsAndUpdatesWorkThrough : Prop :=
  (∀ (g : Fin 32) (r : Running) (x : GroupDesc) (bs : List Byte) (s : State),
      let c := gradCtl r.q.desc
      let size := if c.bf16 then 2 else 4
      s.activeOp g .update 1 = some r → r.phase = .started → s.updLive (dieOfCluster g) = true →
      s.gradBad r.q.desc c = none → s.group c.group = some x → s.updRead (dieOfCluster g) c.src (size * c.count) = .ok bs →
    Yields (.gradSend g) s (fun t => t.mem = s.mem ∧ t = { s with clusters := t.clusters, chunks := t.chunks, hbm := t.hbm } ∧
      t.chunks = s.chunks ++ (s.cutChunks c.group x c.first c.count).map (fun y =>
        { group := c.group, first := y.2.1, root := y.1, kind := 0, sender := s.devNumber,
          step := s.dies[dieOfCluster g].upd.stepNumber.toNat,
          elems := (List.range y.2.2).map (fun i =>
            let w := leNat ((bs.drop (size * (y.2.1 + i - c.first))).take size)
            if c.bf16 then widen bf16 w else BitVec.ofNat 32 w) }))) ∧
  (∀ (i : Nat) (p : ChunkPart) (x : GroupDesc) (w s : State), s.chunks[i]? = some p → s.chunkReady p = true →
      (∀ d : Fin 4, s.dies[d].upd.commit = none) → p.root = s.devNumber → p.kind = 0 → s.group p.group = some x →
      ({ s with chunks := s.chunks.filter (fun y => !y.same p) }.stepHeader (s.chunkSum p).2).updWrite
        (dieOfStack (stackOf (landAddr x p.first))) (landAddr x p.first)
        (f32Bytes (s.chunkSum p).1) = .ok w →
    Yields (.chunkCombine i) s (fun t => t.mem = w.mem ∧ t.chunks = s.chunks.filter (fun y => !y.same p))) ∧
  (∀ (i m : Nat) (p : ChunkPart) (s : State), s.chunks[i]? = some p → s.chunkReady p = true →
      (∀ d : Fin 4, s.dies[d].upd.commit = none) → p.root ≠ s.devNumber →
      s.effParent p.root treeDepth s.devNumber = some m →
    Yields (.chunkCombine i) s (fun t =>
      let w := { s with chunks := s.chunks.filter (fun y => !y.same p) }.trySend m .reduce (s.chunkSum p).2
        (reduceKey0 p.group p.first) (reduceKey1 p.root p.kind) (f32Bytes (s.chunkSum p).1)
      t = { w with clusters := t.clusters } ∧ t.chunks = s.chunks.filter (fun y => !y.same p))) ∧
  (∀ (g : Fin 32) (r : Running) (s : State),
      let c := updCtl r.q.desc
      let d := dieOfCluster g
      let new_ := (s.groupsIn c).flatMap (fun x => s.groupWork d x.1 x.2)
      s.activeOp g .update 2 = some r → r.phase = .started → s.updLive d = true → updBad r.q.desc c = none →
      updGate s.dies[d].upd r.season = .go →
    Yields (.update g) s (fun t => t.mem = s.mem ∧ t.dies[d].upd.work = s.dies[d].upd.work ++ new_ ∧
      (∀ x ∈ s.groupsIn c, tabFind t.dies[d].upd.groups x.1 = some (c.mb, c.lr)) ∧
      (s.dies[d].upd.work ++ new_ ≠ [] → t.dies[d].upd.state = .updating ∧
        { r with phase := .working } ∈ (t.queue g .update).running) ∧
      (s.dies[d].upd.work ++ new_ = [] → t.dies[d].upd.state = .updated ∧ t.dies[d].upd.job = none))) ∧
  (∀ (d : Fin 4) (tb row k : Nat) (td : TableDesc) (l : LogRow) (s : State), s.updLive d = true →
      s.dies[d].upd.sumNext = some (tb, row, k) → s.table tb = some td → s.stackFail (.onDie d.val (.req 5)) (fin12 k) = none →
      s.hbm[fin12 k].log.find? (logRowIs tb row) = some l →
    Yields (.partialSum d) s (fun t => OnlyDie d s t ∧
      t.dies[d].upd.gsums = s.dies[d].upd.gsums ++ [(tb, row, gsumOf td.dim l)])) ∧
  (∀ (d : Fin 4) (w : UpdWork) (s : State), s.updLive d = true →
      s.workNext s.dies[d].upd [] s.dies[d].upd.work = some w →
      delFirst (fun x => decide (x = w)) s.dies[d].upd.work ≠ [] →
    Yields (.rowUpdate d) s (fun t => t.dies[d].upd.work = delFirst (fun x => decide (x = w)) s.dies[d].upd.work ∧
      t = (s.doWork d w).modUpd d (fun u => { u with work := t.dies[d].upd.work })))

/-- The first COMMIT of a unit without an UPDATE under way decides by the vote and CLIP_NORM: any flag in the vote's
upper half, or a sum that is not finite, is a SKIP, which changes no byte; otherwise it clips or takes. A second
cluster's COMMIT of the same vote completes. LAST_STEP_PHASES gives seven entries of 16 bytes. -/
def Obligations.CommitDecidesByTheVote : Prop :=
  (∀ (g : Fin 32) (r : Running) (s : State),
      let d := dieOfCluster g
      let vote : Word := BitVec.ofNat 64 (r.q.desc.bits 2 63 0)
      let clip : U32 := BitVec.ofNat 32 (r.q.desc.bits 3 31 0)
      s.activeOp g .update 3 = some r → commitBad r.q.desc clip = none → s.dies[d].upd.commit = none →
      s.dies[d].upd.job = none → s.updLive d = true →
    Yields (.commit g) s (fun t => t.dies[d].upd.decision = (decideStep vote clip).2.1 ∧
      t.dies[d].upd.norm = fsqrt arithRne (vote.setWidth 32) ∧
      (vote.toNat / 2 ^ 32 ≠ 0 ∨ isFinite32 (vote.setWidth 32) = false → t.dies[d].upd.decision = .skip ∧ t.mem = s.mem) ∧
      (t.dies[d].upd.decision = .take ∨ t.dies[d].upd.decision = .clip ∨ t.dies[d].upd.decision = .skip))) ∧
  (∀ (g : Fin 32) (r : Running) (c : CommitJob) (s : State),
      let d := dieOfCluster g
      s.updLive d = true → s.activeOp g .update 3 = some r → commitBad r.q.desc (BitVec.ofNat 32 (r.q.desc.bits 3 31 0)) = none →
      s.dies[d].upd.commit = some c → ¬ (c.cluster = g.val ∧ c.run = r) → c.vote = BitVec.ofNat 64 (r.q.desc.bits 2 63 0) →
      c.clipNorm = BitVec.ofNat 32 (r.q.desc.bits 3 31 0) →
    Yields (.commit g) s (fun t => OnlyCluster g s t ∧
      { r with phase := .finished, summary := none } ∈ (t.queue g .update).running)) ∧
  (∀ (n dec season : Nat) (s : State), s.phaseDue = some (n, dec, season) →
    Yields .lastStepPhases s (fun t => t = { s with phaseDue := none, phases := t.phases } ∧
      t.phases.length = 8 + 7 * 16 ∧ t.phases.take 5 = leBytes 4 n ++ leBytes 1 dec))

/-- With lanes trained a port goes on to FEC, with FEC locked it takes its width and sends HELLO, the required
neighbour brings it to key exchange, and a valid peer signature installs the keys of the exchange and makes it
UP. No light brings it DOWN with its event, and so do no good lane and a signature that is not valid; another
neighbour makes it MISWIRED, and so does a retrain to a peer that the running job does not list. Corrected
codewords count whatever the flit. -/
def Obligations.PortsComeUpStepByStep : Prop :=
  ∀ (p : Fin 16) (s : State),
    (∀ tx : Bool, s.portAt p .pma = true →
      Yields (.noLight p tx) s (fun t => t.ports[p].state = .down ∧ t.ports[p].width = 0 ∧
        (s.bedOn bedRot = true → ∃ e ∈ t.health.raised, e.code = (if tx then 0x0902 else 0x0901) ∧ e.unit = uidPort p.val))) ∧
    (∀ (lanes inv : BitVec 8) (rev : Bool), s.portAt p .pma = true →
        (if s.ports[p].keepKeys then lanes &&& s.ports[p].lanesGood else lanes) ≠ 0 →
      Yields (.pmaTrainingDone p lanes inv rev) s (fun t =>
        t.ports[p] = { s.ports[p] with
          lanesGood := if s.ports[p].keepKeys then lanes &&& s.ports[p].lanesGood else lanes, step := .fec } ∧
        t = { s with ports := s.ports.set p t.ports[p], health := t.health })) ∧
    (∀ (lanes inv : BitVec 8) (rev : Bool), s.portAt p .pma = true →
        (if s.ports[p].keepKeys then lanes &&& s.ports[p].lanesGood else lanes) = 0 →
      Yields (.pmaTrainingDone p lanes inv rev) s (fun t => t.ports[p].state = .down ∧ t.ports[p].width = 0 ∧
        (s.bedOn bedRot = true → ∃ e ∈ t.health.raised, e.code = 0x0905 ∧ e.unit = uidPort p.val))) ∧
    (s.portAt p .fec = true → s.ports[p].keepKeys = false → s.ports[p].worn = false →
      Yields (.fecLock p) s (fun t => t.ports[p].step = .hello ∧ t.ports[p].width = laneCount s.ports[p].lanesGood ∧
        ∃ h, t.sent = s.sent ++ [.hello p.val (s.portDev p) (portRole p) (s.portShape p) ownDigestW h])) ∧
    (s.portAt p .fec = true → s.ports[p].keepKeys = true →
      Yields (.fecLock p) s (fun t => t.ports[p].width = laneCount s.ports[p].lanesGood ∧
        t.ports[p].state = if s.peerBarred s.ports[p].peerDev s.ports[p].peerDigest then .miswired else .up)) ∧
    (∀ (dev role shape : Nat) (pp : Fin 16) (dg : BitVec 512) (c : LinkCarry) (k : Nat), s.portAt p .hello = true →
        dev = s.neighbour p → role = roleOpposite (portRole p) → pp.val = role + 8 * (p.val / 8) → shape = s.portShape p →
        s.peerBarred dev dg = false → s.ports[p].worn = false →
      Yields (.hello ⟨p, c, k⟩ dev pp role shape dg) s (fun t => t.ports[p].state = .keying ∧ t.ports[p].peerDev = dev ∧
        t.ports[p].peerDigest = dg ∧ t.ports[p].fecCorrected = wrap64 s.ports[p].fecCorrected k ∧
        ∃ h, t.sent = s.sent ++ [.keyex p.val identityCert h])) ∧
    (∀ (dev role shape : Nat) (pp : Fin 16) (dg : BitVec 512) (c : LinkCarry) (k : Nat), s.portAt p .hello = true →
        dev ≠ s.neighbour p ∨ role ≠ roleOpposite (portRole p) ∨ pp.val ≠ roleOpposite (portRole p) + 8 * (p.val / 8) ∨
          shape ≠ s.portShape p →
      Yields (.hello ⟨p, c, k⟩ dev pp role shape dg) s (fun t => t.ports[p].state = .miswired ∧ t.sent = s.sent)) ∧
    (∀ (ss : BitVec 256) (sig : List Byte) (c : LinkCarry) (k : Nat), s.portOn p = true → s.ports[p].state = .keying →
        s.rot.halted = false → s.ports[p].keyex.secret = some ss →
        s.peerBarred s.ports[p].peerDev s.ports[p].peerDigest = false → s.ports[p].keepKeys = false →
        ackedFlits c.ackSeq s.ports[p].replay = [] →
      Yields (.keyex ⟨p, c, k⟩ (.signature sig)) s (fun t =>
        (s.peerSigned p sig = true → t = { s with ports := s.ports.set p t.ports[p], gone := [] } ∧
          t.ports[p].state = .up ∧
          t.ports[p].keys = some (s.linkKeys p ss sig).1 ∧ t.ports[p].salts = (s.linkKeys p ss sig).2 ∧
          t.ports[p].txCount = 0 ∧ t.ports[p].expectSeq = 0 ∧ t.ports[p].nextSeq = 0) ∧
        (s.peerSigned p sig = false → t.ports[p].state = .down ∧ t.ports[p].keys = none ∧
          (s.bedOn bedRot = true → ∃ e ∈ t.health.raised, e.code = 0x0904 ∧ e.unit = uidPort p.val))))

/-- A good flit in order, for whose packet the channel can take its cells, raises the expected SEQ and FLITS_RX; a
damaged one is discarded and a NAK names the SEQ expected. A NAK that acknowledges nothing new sends the flits
from its SEQ on again. Lost lanes and the retry limit retrain with the keys kept, and lanes that are all lost
bring the port DOWN. REKEY, at a TX_COUNT of 2^46, sends KEYUPDATE; it and a KEYUPDATE received advance both keys
and restart TX_COUNT, unless the entropy source has failed (R521). -/
def Obligations.LinksRetryRetrainAndRekey : Prop :=
  ∀ (p : Fin 16) (s : State), s.portLive p = true →
    (∀ (f : Flit) (n : Nat), s.bedOn (bedHost (p.val / 8)) = true →
        (f.check = .clean ∧ n = 0) ∨ f.check = .corrected n → f.ftype ≠ .idle → f.seq = s.ports[p].expectSeq →
        (s.carryIn p (flitCarry f)).roomFor p f = true →
      Yields (.flitReceive p f) s (fun t => t.ports[p].expectSeq = (s.ports[p].expectSeq + 1) % 4096 ∧
        t.ports[p].flitsRx = wrap64 s.ports[p].flitsRx 1 ∧ t.ports[p].fecCorrected = wrap64 s.ports[p].fecCorrected n ∧
        t.mem = s.mem)) ∧
    (∀ f : Flit, s.bedOn (bedHost (p.val / 8)) = true → f.check = .fecBad ∨ f.check = .tagBad → s.ports[p].worn = false →
      Yields (.flitReceive p f) s (fun t => (∃ h tag, t.sent = s.sent ++ [.nakFlit p.val s.ports[p].expectSeq h tag]) ∧
        t.ports[p].expectSeq = s.ports[p].expectSeq ∧ t.ports[p].flitsRx = s.ports[p].flitsRx ∧
        t.ports[p].fecUncorrected = wrap64 s.ports[p].fecUncorrected (b2n (decide (f.check = .fecBad))) ∧
        t.ports[p].tagFails = wrap64 s.ports[p].tagFails (b2n (decide (f.check = .tagBad))))) ∧
    (∀ (seq k : Nat) (c : LinkCarry) (fs : List TxFlit), ackedFlits c.ackSeq s.ports[p].replay = [] →
        ackedFlits ((seq + 4095) % 4096) s.ports[p].replay = [] →
        s.ports[p].replay.dropWhile (fun f => decide (f.seq ≠ seq % 4096)) = fs → fs ≠ [] →
        s.ports[p].keys = none ∨ s.ports[p].txCount.toNat + fs.length ≤ 2 ^ 46 →
      Yields (.nak ⟨p, c, k⟩ seq) s (fun t => t.ports[p].replays = wrap64 s.ports[p].replays fs.length ∧
        t.ports[p].replay = s.ports[p].replay ∧ t.ports[p].flitsRx = wrap64 s.ports[p].flitsRx 1 ∧
        t.ports[p].fecCorrected = wrap64 s.ports[p].fecCorrected k ∧ t.sent.length = s.sent.length + fs.length ∧ t = { s with ports := s.ports.set p t.ports[p], sent := t.sent, health := t.health })) ∧
    (∀ lost : BitVec 8, s.ports[p].lanesUp &&& ~~~lost ≠ s.ports[p].lanesUp → s.ports[p].lanesUp &&& ~~~lost ≠ 0 →
      Yields (.laneLoss p lost) s (fun t => t.ports[p].state = .training ∧ t.ports[p].step = .pma ∧
        t.ports[p].keepKeys = true ∧ t.ports[p].keys = s.ports[p].keys ∧
        t.ports[p].width = laneCount (s.ports[p].lanesUp &&& ~~~lost) ∧
        t = { s with ports := s.ports.set p t.ports[p], health := t.health })) ∧
    (∀ lost : BitVec 8, s.ports[p].lanesUp ≠ 0 → s.ports[p].lanesUp &&& ~~~lost = 0 →
      Yields (.laneLoss p lost) s (fun t => t.ports[p].state = .down ∧ t.ports[p].width = 0)) ∧
    (s.objNum 0x6010 2 ≤ max s.ports[p].failures s.ports[p].failuresTx →
      Yields (.linkRetryLimit p) s (fun t => OnlyPort p s t ∧ t.ports[p].state = .training ∧ t.ports[p].step = .pma ∧
        t.ports[p].keys = s.ports[p].keys)) ∧
    (s.ports[p].worn = true → s.rot.halted = false →
      Yields (.rekey p) s (fun t => t.ports[p].keys = s.ports[p].keys.map (fun k => (nextLinkKey k.1, nextLinkKey k.2)) ∧
        t.ports[p].txCount = 0 ∧ (∃ h tag, t.sent = s.sent ++ [.keyupdate p.val h tag]) ∧
        t = { s with ports := s.ports.set p t.ports[p], sent := t.sent })) ∧
    (∀ (c : LinkCarry) (k : Nat), Yields (.keyupdate ⟨p, c, k⟩) s (fun t =>
      t.ports[p].fecCorrected = wrap64 s.ports[p].fecCorrected k ∧
      (s.rot.halted = false → t.ports[p].keys = s.ports[p].keys.map (fun x => (nextLinkKey x.1, nextLinkKey x.2)) ∧
        t.ports[p].txCount = 0) ∧
      (s.rot.halted = true → t.ports[p].keys = s.ports[p].keys) ∧
      (ackedFlits c.ackSeq s.ports[p].replay = [] → s.health.recovery = [] → OnlyPort p s t)))

/-- A delivered WRITE that its access rules allow writes its payload at its address and no other byte. A ROW_REQ of a
row owned here is answered on its flow with the record, or its VERSION, in packets of at most 4,096 bytes. A
ROW_RESP reaches the pooled member that asked. A SCATTER_ADD becomes a partial for the back ends, a REDUCE on its
way up a value in the staging region; one on its way down adds none and changes no byte. -/
def Obligations.DeliveredPacketsTakeEffect : Prop :=
  (∀ (p : Packet) (x w s : State), s.pick .write anyPacket = some (p, x) →
      x.writeChecked (.req (x.writeRequester p.key0.toNat)) p.key0.toNat p.payload = .ok w →
    Yields .write s (fun t => t = { w with incoming := t.incoming, early := t.early } ∧
      SameMemoryBut p.key0.toNat p.payload.length s t ∧ t.delivered = x.delivered)) ∧
  (∀ (p : Packet) (td : TableDesc) (slot addr : Nat) (rec : List Byte) (x s : State),
      let k := rowKeys p
      let payload := if k.versionOnly then leBytes 2 (recVersion rec) else rec
      s.pick .rowReq (fun p => !s.rowWaits p) = some (p, x) → s.table k.table = some td →
      s.locate .any k.table td 0 k.row = .ok (s.devNumber, slot, addr) →
      s.readChecked (.req 2) addr (if k.versionOnly then 16 else td.stride) = .ok rec →
      (s.route p.src (flowSide s.devNumber p.src 1)).isSome = true →
    Yields .rowReq s (fun t => t.mem = s.mem ∧ t.delivered = x.delivered ∧
      ∀ part ∈ payloadParts (payload.length / maxPayload) payload, ∃ y ∈ (t.txFlow p.src 1).unacked,
        y.ptype = .rowResp ∧ y.dst = p.src ∧ y.key1 = p.key1 ∧ y.payload = part)) ∧
  (∀ (p : Packet) (g : Fin 32) (j : RakeJob) (x s : State),
      let k := rowKeys p
      s.pick .rowResp anyPacket = some (p, x) → rakeOfUnit k.unit = some g → k.status = 0 →
      (s.rakeItems g).find? (fun y => decide (y.2.tag = some k.tag)) = none →
      (s.stagedRows g (fun st => decide (st = .asked k.tag ∨ st = .reading k.tag))) = [] →
      s.clusters[g].rake.jobs.find? (fun j => j.bag.any (fun b => decide (b.tag = some k.tag))) = some j →
    Yields .rowResp s (fun t => t = { s with clusters := s.clusters.set g t.clusters[g], delivered := x.delivered } ∧
      ∃ j' ∈ t.clusters[g].rake.jobs, j'.run = j.run ∧
        j'.bag = j.bag.map (fun b => { b with reply := some p.payload }))) ∧
  (∀ (p : Packet) (x s : State), s.pick .scatterAdd anyPacket = some (p, x) →
    Yields .scatterAdd s (fun t => t = { s with delivered := x.delivered, partials := t.partials } ∧
      ∃ m, t.partials = s.partials ++ [m] ∧ m.source = p.src ∧ m.row = bitsOf p.key0.toNat 39 0 ∧
        m.table = bitsOf p.key0.toNat 43 40 ∧ m.mb = bitsOf p.key0.toNat 63 48 ∧ m.step = p.step ∧
        m.elems = f32s p.payload (p.payload.length / 4))) ∧
  (∀ (p : Packet) (x s : State), s.pick .reduce anyPacket = some (p, x) → (chunkOfPacket p).kind ≠ 2 →
    Yields .reduce s (fun t => t = { s with delivered := x.delivered, chunks := s.chunks ++ [chunkOfPacket p], gone := t.gone })) ∧
  (∀ (p : Packet) (x s : State), s.pick .reduce anyPacket = some (p, x) → (chunkOfPacket p).kind = 2 →
      (∀ d : Fin 4, s.dies[d].upd.commit = none) →
    Yields .reduce s (fun t => t.delivered = x.delivered ∧ t.chunks = s.chunks ∧ t.mem = s.mem))

/-- An E2E_ACK drops the packets of its flow up to ACK_PSN, and those past it stay. An E2E_NAK, and a time-out, queue
every unacknowledged packet of the flow again while its route stands and count them. UNREACHABLE drops the packet
that it returns and no other (a value of a reduction may go out again on the same channel, past the device). The
acknowledgement timer queues a cumulative E2E_ACK. -/
def Obligations.FlowsAcknowledgeAndRetransmit : Prop :=
  (∀ (p : Packet) (x s : State),
      let fvc := bitsOf p.key0.toNat 33 32
      s.pick .e2eAck anyPacket = some (p, x) → fvc ≠ 2 →
    Yields .e2eAck s (fun t => t.delivered = x.delivered ∧ (t.txFlow p.src fvc).unacked =
      (s.txFlow p.src fvc).unacked.filter (fun q => !decide (psnAhead (bitsOf p.key0.toNat 31 0) q.psn < 2 ^ 31)))) ∧
  (∀ (p : Packet) (x s : State),
      let fvc := bitsOf p.key0.toNat 33 32
      s.pick .e2eAck anyPacket = some (p, x) →
    Yields .e2eAck s (fun t => t.delivered = x.delivered ∧ ∀ q ∈ (s.txFlow p.src fvc).unacked,
      2 ^ 31 ≤ psnAhead (bitsOf p.key0.toNat 31 0) q.psn → q ∈ (t.txFlow p.src fvc).unacked)) ∧
  (∀ (p : Packet) (x s : State),
      let f := s.txFlow p.src (bitsOf p.key0.toNat 33 32)
      let side := flowSide s.devNumber f.dst f.fvc
      s.pick .e2eNak anyPacket = some (p, x) → (∀ q ∈ f.unacked, (s.route q.dst side).isSome = true) →
    Yields .e2eNak s (fun t => t.txFlows = s.txFlows ∧ t.mem = s.mem ∧
      t.pools[fin2 side].e2eRetransmits = s.pools[fin2 side].e2eRetransmits + BitVec.ofNat 64 f.unacked.length)) ∧
  (∀ (i : Nat) (f : TxFlow) (s : State),
      let side := flowSide s.devNumber f.dst f.fvc
      (s.txFlows.filter (fun f => decide (f.unacked ≠ [])))[i]? = some f →
      (∀ q ∈ f.unacked, (s.route q.dst side).isSome = true) →
    Yields (.e2eTimeout i) s (fun t => t.txFlows = s.txFlows ∧ t.mem = s.mem ∧
      t.pools[fin2 side].e2eRetransmits = s.pools[fin2 side].e2eRetransmits + BitVec.ofNat 64 f.unacked.length)) ∧
  (∀ (p q : Packet) (f : TxFlow) (x s : State), s.pick .unreachable anyPacket = some (p, x) →
      s.returned (bitsOf p.key0.toNat 31 0) (bitsOf p.key0.toNat 35 32) = some (f, q) → f.fvc ≠ 2 →
    Yields .unreachable s (fun t => t.delivered = x.delivered ∧
      (q.ptype ≠ .reduce → (t.txFlow f.dst f.fvc).unacked = f.unacked.filter (fun y => !decide (y = q))) ∧
      ∀ y ∈ f.unacked, y ≠ q → y ∈ (t.txFlow f.dst f.fvc).unacked)) ∧
  (∀ (i : Nat) (f : RxFlow) (port : Fin 16) (a b : Bool) (s : State),
      (s.rxFlows.filter (fun f => decide (0 < f.sinceAck)))[i]? = some f →
      s.route f.src (flowSide s.devNumber f.src 2) = some (port, a, b) →
    Yields (.e2eAckTimer i) s (fun t => (t.rxFlow f.src f.fvc).sinceAck = 0 ∧ t.mem = s.mem ∧
      ∃ e ∈ t.ports[port].txQueue, e.packet.ptype = .e2eAck ∧ e.packet.dst = f.src ∧
        e.packet.key0 = BitVec.ofNat 64 ((f.expect + 2 ^ 32 - 1) % 2 ^ 32 + f.fvc * 2 ^ 32)))

/-- A frame with a bad FCS is dropped and counted. An in-order request from the peer of an ordinary queue pair,
stored and with a good ICRC, waits and moves the expected PSN by the PSNs that it takes. A whole SEND fills the
next slot and is acknowledged, or, of an ingest queue pair, becomes a notice. An RDMA WRITE writes its bytes
where its key allows and no others, a word that a packet only begins with the packet that ends it; without a
place it is refused and moves no byte. An RDMA READ answers the bytes. -/
def Obligations.HostRequestsAreServed : Prop :=
  (∀ (h : Fin 2) (f : Frame) (s : State), s.hostLive h = true → s.subExists h f.sub = true →
      s.hosts[h].subs[f.sub].link = true → f.bytes ≤ frameLimit f.macsec → f.fcsOk = false →
    Yields (.frameReceive h f) s (fun t => OnlyHost h s t ∧
      t.hosts[h] = { s.hosts[h] with fcsErrors := s.hosts[h].fcsErrors + 1 })) ∧
  (∀ (h : Fin 2) (f : Frame) (x : SubPort) (qpn psn i : Nat) (req : RoceReq) (q : QueuePair) (s : State),
      s.hostLive h = true → s.subExists h f.sub = true → s.hosts[h].subs[f.sub].link = true → f.bytes ≤ frameLimit f.macsec →
      f.fcsOk = true → s.macsecCheck h f = some x → s.cannotStore h (framePrio f) f = false →
      f.body = .roce q.cfg.peerIp true qpn psn req →
      s.qpOf h qpn = some (i, q) → q.cfg.ingest = false → framePrio f ≠ s.hosts[h].ingestPrio → q.cfg.sub = f.sub.val →
      q.error = false → psn = q.expectPsn → req ≠ .cnp → req ≠ .other → roceShapeOk q.cfg.mtu req = true →
      (req.isRead = true → (s.hosts[h].accepted.filter (fun w => decide (w.qpn = q.cfg.qpn) && w.req.isRead)).length < 16) →
    Yields (.frameReceive h f) s (fun t => t.hosts[h].framesRx = s.hosts[h].framesRx + 1 ∧ t.mem = s.mem ∧
      t.hosts[h].accepted = s.hosts[h].accepted ++ [⟨q.cfg.qpn, psn, req, cdiv f.bytes 256⟩] ∧
      ∃ q', tabFind t.hosts[h].qps i = some q' ∧ q'.expectPsn = (psn + psnCount q.cfg.mtu req) % 2 ^ 24)) ∧
  (∀ (h : Fin 2) (w : RoceWait) (i : Nat) (begins : Bool) (q : QueuePair) (b : List Byte) (x y s : State),
      s.nextWait h RoceReq.isSend = some (w, i, q, x) → sendParts w.req = some (begins, true, b) → begins ≠ q.sendOpen →
      q.cfg.ingest = false → (begins = true → (q.filled - q.consumed).toNat < x.recvSlots h q) →
      (q.sendBuf ++ b).length + 8 ≤ q.cfg.slotBytes → x.fillSlot h q (q.sendBuf ++ b) = .ok y →
    Yields (.send h) s (fun t => t.mem = y.mem ∧ HostAnswers h q (.roceAck h.val q.cfg.peerQpn w.psn) 1 x t ∧
      ∃ q', tabFind t.hosts[h].qps i = some q' ∧ q'.filled = q.filled + 1 ∧ q'.sendOpen = false)) ∧
  (∀ (h : Fin 2) (w : RoceWait) (i : Nat) (begins : Bool) (q : QueuePair) (b : List Byte) (x s : State),
      s.nextWait h RoceReq.isSend = some (w, i, q, x) → sendParts w.req = some (begins, false, b) → begins ≠ q.sendOpen →
      q.cfg.ingest = false → (begins = true → (q.filled - q.consumed).toNat < x.recvSlots h q) →
      (q.sendBuf ++ b).length + 8 ≤ q.cfg.slotBytes →
    Yields (.send h) s (fun t => t.mem = s.mem ∧ HostAnswers h q (.roceAck h.val q.cfg.peerQpn w.psn) 1 x t ∧
      ∃ q', tabFind t.hosts[h].qps i = some q' ∧ q'.sendBuf = q.sendBuf ++ b ∧ q'.sendOpen = true ∧ q'.filled = q.filled)) ∧
  (∀ (h : Fin 2) (w : RoceWait) (i : Nat) (begins ends : Bool) (q : QueuePair) (b : List Byte) (x s : State),
      s.nextWait h RoceReq.isSend = some (w, i, q, x) → sendParts w.req = some (begins, ends, b) → begins ≠ q.sendOpen →
      q.cfg.ingest = true →
    Yields (.send h) s (fun t => t.mem = s.mem ∧ HostAnswers h q (.roceAck h.val q.cfg.peerQpn w.psn) 1 x t ∧
      t.ingests[h].noticeBytes = s.ingests[h].noticeBytes ++ (if ends then [(q.cfg.region, q.sendBuf ++ b)] else []))) ∧
  (∀ (h : Fin 2) (w : RoceWait) (i k va n a : Nat) (q : QueuePair) (b : List Byte) (x y s : State),
      let m := b.length - (if n = b.length then 0 else min b.length ((a + b.length) % 8))
      s.nextWait h RoceReq.isWrite = some (w, i, q, x) → w.req = .writeOnly k va n b ∨ w.req = .writeFirst k va n b →
      q.writeAt = none → q.writeTail = [] → n ≤ 2 ^ 31 → b.length ≤ n → x.remotePlace h q true k va n = some a →
      x.writeChecked (.onDie (4 + h.val) (.req 6)) a (b.take m) = .ok y →
    Yields (.rdmaWrite h) s (fun t => t.mem = y.mem ∧ SameMemoryBut a m s t ∧
      HostAnswers h q (.roceAck h.val q.cfg.peerQpn w.psn) 1 x t)) ∧
  (∀ (h : Fin 2) (w : RoceWait) (i a left : Nat) (q : QueuePair) (b : List Byte) (x y s : State),
      let bs := q.writeTail ++ b
      let m := bs.length - (if left = b.length then 0 else min bs.length ((a + bs.length) % 8))
      s.nextWait h RoceReq.isWrite = some (w, i, q, x) →
      (w.req = .writeMiddle b ∧ b.length < left) ∨ (w.req = .writeLast b ∧ b.length = left) → q.writeAt = some (a, left) →
      x.writeChecked (.onDie (4 + h.val) (.req 6)) a (bs.take m) = .ok y →
    Yields (.rdmaWrite h) s (fun t => t.mem = y.mem ∧ SameMemoryBut a m s t ∧
      HostAnswers h q (.roceAck h.val q.cfg.peerQpn w.psn) 1 x t)) ∧
  (∀ (h : Fin 2) (w : RoceWait) (i k va n : Nat) (q : QueuePair) (b : List Byte) (x s : State),
      s.nextWait h RoceReq.isWrite = some (w, i, q, x) → w.req = .writeOnly k va n b ∨ w.req = .writeFirst k va n b →
      q.writeAt = none → n ≤ 2 ^ 31 → b.length ≤ n → x.remotePlace h q true k va n = none →
    Yields (.rdmaWrite h) s (fun t => t.mem = s.mem ∧ t.hosts[h].accessNaks = s.hosts[h].accessNaks + 1 ∧
      (s.bedOn bedRot = true → ∃ e ∈ t.health.raised, e.code = 0x0205 ∧ e.unit = uidLink h.val 0x10))) ∧
  (∀ (h : Fin 2) (w : RoceWait) (i k va n a : Nat) (q : QueuePair) (bs : List Byte) (x s : State),
      s.nextWait h RoceReq.isRead = some (w, i, q, x) → w.req = .read k va n → n ≤ 2 ^ 31 →
      x.remotePlace h q false k va n = some a → x.readChecked (.onDie (4 + h.val) (.req 6)) a n = .ok bs →
    Yields (.rdmaRead h) s (fun t => t.mem = s.mem ∧
      HostAnswers h q (.roceRead h.val q.cfg.peerQpn w.psn bs) (psnCount q.cfg.mtu w.req) x t))

/-- RECV_CONSUMED takes a value that does not pass the slots filled, and refuses another with an event. MACSEC_REKEY
of a keyed sub-port, at a packet number of 2^62, installs a fresh key under the next association number and keeps
the old one for reception. ASSOCIATION_SWITCH, 2 s after the installation, sends under the new one. At its
expiry, 2 s after the installation too, the old association is no longer received and has no key; neither does
anything before. -/
def Obligations.SlotsAndAssociationsTurnOver : Prop :=
  (∀ (h : Fin 2) (n : Fin 256) (v : U32) (q : QueuePair) (s : State), s.hostLive h = true →
      tabFind s.hosts[h].qps n.val = some q → q.cfg.ingest = false → (v - q.consumed).toNat ≤ (q.filled - q.consumed).toNat →
    Yields (.recvConsumed h n v) s (fun t => OnlyHost h s t ∧ tabFind t.hosts[h].qps n.val = some { q with consumed := v })) ∧
  (∀ (h : Fin 2) (n : Fin 256) (v : U32) (q : QueuePair) (s : State), s.hostLive h = true →
      tabFind s.hosts[h].qps n.val = some q → (q.filled - q.consumed).toNat < (v - q.consumed).toNat →
    Yields (.recvConsumed h n v) s (fun t => OnlyHealth s t ∧
      (s.bedOn bedRot = true → ∃ e ∈ t.health.raised, e.code = 0x0102 ∧ e.unit = uidLink h.val 0x10))) ∧
  (∀ (h : Fin 2) (i : Fin 4) (s : State), s.hostLive h = true → s.hosts[h].subs[i].keyed = true → s.hosts[h].subs[i].worn = true → s.rot.halted = false →
    Yields (.macsecRekey h i) s (fun t =>
      let old := s.hosts[h].subs[i].newAn.getD s.hosts[h].subs[i].txAn
      t = { s with hosts := s.hosts.set h t.hosts[h], free := s.free + 1 } ∧
      t.hosts[h].subs[i].newAn = some ((old + 1) % 4) ∧ t.hosts[h].subs[i].oldAn = some old ∧
      t.hosts[h].subs[i].txAn = s.hosts[h].subs[i].txAn ∧
      (tabFind t.hosts[h].subs[i].keys ((old + 1) % 4)).isSome = true)) ∧
  (∀ (h : Fin 2) (i : Fin 4) (a : Nat) (s : State), s.hostLive h = true → s.hosts[h].subs[i].newAn = some a →
      s.hosts[h].subs[i].installedOver s.aon.rtc = true →
    Yields (.associationSwitch h i) s (fun t => OnlyHost h s t ∧ t.hosts[h].subs[i].txAn = a ∧
      t.hosts[h].subs[i].newAn = none)) ∧
  (∀ (h : Fin 2) (i : Fin 4) (a : Nat) (s : State), s.hosts[h].subs[i].oldAn = some a →
      s.hosts[h].subs[i].installedOver s.aon.rtc = true → a ≠ s.hosts[h].subs[i].newest →
    Yields (.oldAssociationExpiry h i) s (fun t => OnlyHost h s t ∧ t.hosts[h].subs[i].oldAn = none ∧
      t.hosts[h].subs[i].receives a = false ∧
      (a ≠ s.hosts[h].subs[i].txAn → tabFind t.hosts[h].subs[i].keys a = none))) ∧
  (∀ (h : Fin 2) (i : Fin 4) (s : State), s.hosts[h].subs[i].installedOver s.aon.rtc = false →
    exec (.associationSwitch h i) s = .next s ∧ exec (.oldAssociationExpiry h i) s = .next s)

/-- A notice whose SHARD_SEQ is next becomes the shard in turn; one ahead is held, at most 64 of them; one behind,
one held already and one for which there is no room raise a shard-format event. A shard whose stream passes its
checks leaves its records other than PAD in a staging half; one with a bad notice, of another length than 64
bytes too, counts as faulted with its event and writes no byte outside the status block. ADMIT takes the staged
records in order, and without slots they pass through. EMIT writes a record, padded to 64 bytes, at OUT_PRODUCED,
or a PAD to the ring's end and the record at its start, counts it and posts the token that is due. OUT_CONSUMED
moves up to OUT_PRODUCED and refuses a value beyond it. -/
def Obligations.ShardsAreDecodedAndEmitted : Prop :=
  (∀ (i : Fin 2) (region : Nat) (bs : List Byte) (rest : List (Nat × List Byte)) (s : State),
      let x := s.ingests[i]
      let n := noticeOf region bs
      let late := 2 ^ 31 ≤ (n.seq + 2 ^ 32 - x.nextSeq.toNat) % 2 ^ 32 ∨ (x.ready ++ x.early).any (fun m => decide (m.seq = n.seq)) = true
      x.noticeBytes = (region, bs) :: rest → s.ingestLive i = true →
    Yields (.shardNotice i) s (fun t => t = { s with ingests := s.ingests.set i t.ingests[i], health := t.health } ∧
      (n.seq = x.nextSeq.toNat ∧ x.ready = [] → t.health = s.health ∧ t.ingests[i] = { x with noticeBytes := rest, ready := [n] }) ∧
      (¬ (n.seq = x.nextSeq.toNat ∧ x.ready = []) ∧ ¬ late ∧ x.early.length < 64 → t.health = s.health ∧
        t.ingests[i] = { x with noticeBytes := rest, early := x.early ++ [n] }) ∧
      (¬ (n.seq = x.nextSeq.toNat ∧ x.ready = []) ∧ (late ∨ 64 ≤ x.early.length) → t.ingests[i] = { x with noticeBytes := rest } ∧
        (s.bedOn bedRot = true → ∃ e : Event, e ∈ t.health.raised ∧ e.code = 0x0A01 ∧ e.unit = uidLink i.val 0x11)))) ∧
  (∀ (i : Fin 2) (c : IngestConfig) (n : Notice) (rest : List Notice) (a : Nat) (bs stream : List Byte) (rs : List (List Byte)) (s : State),
      let x := s.ingests[i]
      x.cfg = some c → x.ready = n :: rest → s.ingestLive i = true → x.decoded.length < 2 → n.bad = none →
      s.shardPlace i n = .ok a → s.readChecked (.onDie (4 + i.val) (.req 6)) a n.length = .ok bs → s.decodeShard n.codec bs = .ok stream → stream.length ≤ c.stageBytes →
      splitRecords c.slotLog2 (stream.length / 16 + 1) 0 stream = .ok rs →
      n.records = 0 ∨ n.records = (rs.filter notPad).length →
    Yields (.shardDecode i) s (fun t => t = { s with ingests := s.ingests.set i t.ingests[i], hbm := t.hbm } ∧
      t.ingests[i] = { x.nextShard with
      decoded := x.decoded ++ [(n, rs.filter notPad)],
      bytesIn := wrap64 x.bytesIn bs.length, bytesDecoded := wrap64 x.bytesDecoded stream.length } ∧
      t.ingests[i].nextSeq = x.nextSeq + 1)) ∧
  (∀ (i : Fin 2) (c : IngestConfig) (n : Notice) (rest : List Notice) (o : Nat) (s : State),
      let x := s.ingests[i]
      x.cfg = some c → x.ready = n :: rest → s.ingestLive i = true → x.decoded.length < 2 → n.bad = some o →
    Yields (.shardDecode i) s (fun t => t.ingests[i].nextSeq = x.nextSeq + 1 ∧
      t.ingests[i].lastFault = BitVec.ofNat 32 n.seq ∧ t.ingests[i].shardsFaulted = x.shardsFaulted + 1 ∧
      (s.bedOn bedRot = true → ∃ e : Event, e ∈ t.health.raised ∧ e.code = 0x0A01 ∧ e.unit = uidLink i.val 0x11) ∧
      (∀ r, s.regionAt i c.statusRegion = some r → SameMemoryBut r.base 32 s t) ∧
      (s.regionAt i c.statusRegion = none → t.mem = s.mem) ∧
      t = { s with ingests := s.ingests.set i t.ingests[i], mem := t.mem, hbm := t.hbm, health := t.health })) ∧
  (∀ (region : Nat) (bs : List Byte), bs.length ≠ 64 → (noticeOf region bs).bad = some 0) ∧
  (∀ (i : Fin 2) (c : IngestConfig) (n : Notice) (rs : List (List Byte)) (rest : List (Notice × List (List Byte))) (s : State),
      let x := s.ingests[i]
      x.cfg = some c → x.decoded = (n, rs) :: rest → s.ingestLive i = true → x.emitQ = [] →
    Yields (.admitShard i) s (fun t =>
      t.ingests[i] = admitShard s.job.pepper (shuffleUnitOf i c) (shuffleSlots c) n rs x ∧ t.ingests[i].decoded = rest ∧
      (shuffleSlots c = 0 → n.endEpoch = false → t.ingests[i].emitQ = rs.map (fun r => (r, false)) ∧
        t.ingests[i].recordsAdmitted = x.recordsAdmitted + BitVec.ofNat 64 rs.length) ∧
      (∀ r, s.regionAt i c.statusRegion = some r → SameMemoryBut r.base 32 s t) ∧
      t = { s with ingests := s.ingests.set i t.ingests[i], mem := t.mem, hbm := t.hbm, health := t.health })) ∧
  (∀ (i : Fin 2) (c : IngestConfig) (r : List Byte) (last : Bool) (rest : List (List Byte × Bool)) (w s : State),
      let x := s.ingests[i]
      let size := 2 ^ c.outLog2
      let pos := x.outProduced.toNat % size
      let n := roundUp r.length 64
      x.cfg = some c → x.emitQ = (r, last) :: rest → s.ingestLive i = true → pos + n ≤ size → n ≤ x.free c →
      s.writeChecked (.onDie (4 + i.val) (.ownReq (.ingest i.val) 6)) (c.outAddr + pos) (r ++ List.replicate (n - r.length) 0) = .ok w →
    Yields (.emit i) s (fun t => t.mem = w.mem ∧ t.ingests[i].emitQ = rest ∧
      t.ingests[i].outProduced = x.outProduced + BitVec.ofNat 64 n ∧ t.ingests[i].recordsEmitted = x.recordsEmitted + 1 ∧
      t.posts = s.posts ++ (if tokenDue c x last then [⟨none, fin32 c.tokenCluster, c.tokenNum, 0, true, 2 ^ 17 + i.val⟩] else []) ∧
      SameMemoryBut (c.outAddr + pos) n s t)) ∧
  (∀ (i : Fin 2) (c : IngestConfig) (r : List Byte) (last : Bool) (rest : List (List Byte × Bool)) (v w s : State),
      let x := s.ingests[i]
      let size := 2 ^ c.outLog2
      let pos := x.outProduced.toNat % size
      let n := roundUp r.length 64
      let pad := padRecord (size - pos)
      x.cfg = some c → x.emitQ = (r, last) :: rest → s.ingestLive i = true → size < pos + n → pad.length + n ≤ x.free c →
      s.writeChecked (.onDie (4 + i.val) (.ownReq (.ingest i.val) 6)) (c.outAddr + pos) pad = .ok v →
      v.writeChecked (.onDie (4 + i.val) (.ownReq (.ingest i.val) 6)) c.outAddr (r ++ List.replicate (n - r.length) 0) = .ok w →
    Yields (.emit i) s (fun t => t.mem = w.mem ∧ t.ingests[i].emitQ = rest ∧
      t.ingests[i].outProduced = x.outProduced + BitVec.ofNat 64 (pad.length + n) ∧
      t.ingests[i].recordsEmitted = x.recordsEmitted + 1 ∧
      t.posts = s.posts ++ (if tokenDue c x last then [⟨none, fin32 c.tokenCluster, c.tokenNum, 0, true, 2 ^ 17 + i.val⟩] else []))) ∧
  (∀ (i : Fin 2) (v : Word) (s : State),
      let x := s.ingests[i]
      s.ingestLive i = true → (v - x.outConsumed).toNat ≤ (x.outProduced - x.outConsumed).toNat →
    Yields (.outConsumed i v) s (fun t => OnlyIngest i s t ∧ t.ingests[i] = { x with outConsumed := v })) ∧
  (∀ (i : Fin 2) (v : Word) (s : State),
      let x := s.ingests[i]
      s.ingestLive i = true → (x.outProduced - x.outConsumed).toNat < (v - x.outConsumed).toNat →
    Yields (.outConsumed i v) s (fun t => OnlyHealth s t ∧
      (s.bedOn bedRot = true → ∃ e : Event, e ∈ t.health.raised ∧ e.code = 0x0102 ∧ e.unit = uidLink i.val 0x11)))

/-- The oldest admitted request, unless it is one that is answered without being executed, is answered once, to its
source, under its session and by the port that it came by; then subscriptions look at their objects, and requests
next in turn that are not to be executed are answered. A READ of a readable object does what the read itself does
and answers the value after the address word, and a missing object answers its status. A WRITE is answered with
the status of the write, and one without AUTH to an RWS object with AUTH_REQUIRED, no object changing. A
BLOCK_READ answers COUNT bytes from OFFSET. A block that fits its staging and is not FINAL is staged; a FINAL
writes the whole value. -/
def Obligations.BreopRequestsAreAnswered : Prop :=
  (∀ (r : BreopReq) (o : ObjSpec) (s : State),
      let x := breopFields r.payload
      Asked s r → r.op = 1 → r.payload.length = 8 → x.reserved = false → x.high = 0 →
      (s.took r).findObj x.index x.sub = .ok o → o.access ≠ .wo → x.type = o.type ∨ x.type = 0 →
      ¬ (o.index = 0x7001 ∧ o.sub = 5) → ¬ (o.index = 0x8010 ∧ o.sub = 2) → ((s.took r).objValue r.src o).length ≤ 1024 →
    Yields .breopRead s (Settled (Answers r 0 (addressWord o 0 ++ padded ((s.took r).objValue r.src o)) s))) ∧
  (∀ (r : BreopReq) (o : ObjSpec) (s : State),
      let x := breopFields r.payload
      let w := (s.took r).beforeRead r.src o.index o.sub
      Asked s r → r.op = 1 → r.payload.length = 8 → x.reserved = false → x.high = 0 →
      (s.took r).findObj x.index x.sub = .ok o → o.access ≠ .wo → x.type = o.type ∨ x.type = 0 →
      (w.objValue r.src o).length ≤ 1024 →
    exec .breopRead s = .next (w.answer (s.responseTo r 0 (addressWord o 0 ++ padded (w.objValue r.src o)))).noteSubs.settleAgent) ∧
  (∀ (r : BreopReq) (st : Nat) (s : State),
      let x := breopFields r.payload
      Asked s r → r.op = 1 → r.payload.length = 8 → x.reserved = false → x.high = 0 →
      (s.took r).findObj x.index x.sub = .error st →
    Yields .breopRead s (Settled (Answers r st [] s))) ∧
  (∀ (r : BreopReq) (st : Nat) (v : ObjValue) (w s : State),
      let x := breopFields r.payload
      Asked s r → r.op = 2 → 8 ≤ r.payload.length → r.payload.length ≤ 1032 → x.reserved = false → x.high = 0 →
      writtenValue x.type (r.payload.drop 8) = some v → (s.took r).writeObject (writerOf r) x.index x.sub v = (st, w) →
    exec .breopWrite s = .next ((w.answer (s.responseTo r st (r.payload.take 8))).afterWrite st x.index x.sub v).noteSubs.settleAgent) ∧
  (∀ (r : BreopReq) (o : ObjSpec) (v : ObjValue) (s : State),
      let x := breopFields r.payload
      Asked s r → r.op = 2 → 8 ≤ r.payload.length → r.payload.length ≤ 1032 → x.reserved = false → x.high = 0 →
      writtenValue x.type (r.payload.drop 8) = some v → (s.took r).findObj x.index x.sub = .ok o → o.access = .rws →
      r.auth = false →
    Yields .breopWrite s (Settled (Answers r statusAuthRequired [] s))) ∧
  (∀ (r : BreopReq) (o : ObjSpec) (s : State),
      let x := breopFields r.payload
      let v := (s.took r).objValue r.src o
      Asked s r → r.op = 3 → r.payload.length = 16 → x.reserved = false → 1 ≤ x.word1 → x.word1 ≤ 1024 →
      (s.took r).findObj x.index x.sub = .ok o → o.access ≠ .wo → x.type = o.type → isNumType o.type = false →
      o.index ∉ [0x7001, 0x8010, 0x3001] → x.high ≤ v.length →
    Yields .blockRead s (Settled (Answers r 0 (addressWord o x.high ++ leBytes 8 ((slice v x.high x.word1).length +
      v.length % 2 ^ 32 * 2 ^ 32) ++ padded (slice v x.high x.word1)) s))) ∧
  (∀ (r : BreopReq) (o : ObjSpec) (s : State),
      let x := breopFields r.payload
      let u := if x.high = 0 then (s.took r).beforeRead r.src o.index o.sub else s.took r
      let v := u.objValue r.src o
      let d := slice v x.high x.word1
      let w := if o.index = 0x3001 ∧ o.sub = 2 then u.modHealth (Health.markRead x.high d.length) else u
      Asked s r → r.op = 3 → r.payload.length = 16 → x.reserved = false → 1 ≤ x.word1 → x.word1 ≤ 1024 →
      (s.took r).findObj x.index x.sub = .ok o → o.access ≠ .wo → x.type = o.type → isNumType o.type = false →
      x.high ≤ v.length →
    exec .blockRead s = .next (w.answer (s.responseTo r 0 (addressWord o x.high ++ leBytes 8 (d.length +
      v.length % 2 ^ 32 * 2 ^ 32) ++ padded d))).noteSubs.settleAgent) ∧
  (∀ (r : BreopReq) (o : ObjSpec) (bs : List Byte) (s : State),
      let x := breopFields r.payload
      Asked s r → r.op = 4 → x.reserved = false → 1 ≤ x.word1 → x.word1 ≤ 1024 →
      r.payload.length = 16 + roundUp x.word1 8 → allZero (r.payload.drop (16 + x.word1)) = true →
      (s.took r).findObj x.index x.sub = .ok o → (s.took r).writeDenied (writerOf r) o = none → x.type = o.type →
      isNumType o.type = false → (∀ n, objMaxLen o = some n → x.high + x.word1 ≤ n) → (s.took r).imageBusy o x.high = false →
      stageBlock (s.stagingOf o) (writerOf r) x.high (slice r.payload 16 x.word1) = .ok bs →
    Yields .blockWrite s (Settled (fun u => Answers r 0 (r.payload.take 16) s u ∧ ∃ g ∈ u.agent.staging, g.index = o.index ∧
      g.sub = o.sub ∧ g.src = r.src ∧ g.session = (writerOf r).session.getD 0 ∧ g.bytes = bs))) ∧
  (∀ (r : BreopReq) (o : ObjSpec) (bs : List Byte) (st : Nat) (w s : State),
      let x := breopFields r.payload
      let n := x.word1 % 65536
      Asked s r → r.op = 4 → x.reserved = false → 1 ≤ n → n ≤ 1024 →
      x.word1 = n + 65536 + bs.length * 2 ^ 32 → bs.length < 2 ^ 32 →
      r.payload.length = 16 + roundUp n 8 → allZero (r.payload.drop (16 + n)) = true →
      (s.took r).findObj x.index x.sub = .ok o → (s.took r).writeDenied (writerOf r) o = none → x.type = o.type →
      isNumType o.type = false → (∀ m, objMaxLen o = some m → x.high + n ≤ m) → (s.took r).imageBusy o x.high = false →
      stageBlock (s.stagingOf o) (writerOf r) x.high (slice r.payload 16 n) = .ok bs →
      ((s.took r).dropStaging o).writeValue (writerOf r) o (.bytes (fin16 o.type) bs) = (st, w) →
    exec .blockWrite s = .next ((w.answer (s.responseTo r st (r.payload.take 16))).afterWrite st x.index x.sub
      (.bytes (fin16 x.type) [])).noteSubs.settleAgent)

/-- A first SUBSCRIBE holds a subscription with its interval, 10 ms for 0, and LEASE_S; another renews it, in the
session in which it was opened. With 32 held it is answered SUB_FULL. CANCEL ends one. A subscription notes a
value that differs from the one it saw last; a noted change whose interval has passed sends NOTIFY and counts.
Subscriptions lapse after their lease, staging after 1 s, kept responses after 1 s, sessions after 300 s. A Breop
frame of the port's limits for the address in force and the agent's port joins the requests, and those in turn
that are not to be executed are answered; one without a valid header is dropped and counted, one for another
address discarded, and so is a frame of more than 1,522 bytes or one tag. An ARP request for the port and an ICMP
message are answered, and an address from the network is taken where the objects ask for it. PHY_INT takes the
link. -/
def Obligations.SubscriptionsNotifyAndLapse : Prop :=
  (∀ (r : BreopReq) (o : ObjSpec) (s : State),
      let x := breopFields r.payload
      Asked s r → r.op = 5 → bitOf x.word1 0 = false → (s.took r).subObj r = .ok o → s.agent.subs.find? (subIs r o) = none →
      s.agent.subs.length < 32 →
    Yields .subscribe s (Settled (fun t => ∃ y, t.agent.subs = s.agent.subs ++ [y] ∧ y.src = r.src ∧ y.dest = r.dest ∧ y.via = r.via ∧
      y.index = o.index ∧ y.sub = o.sub ∧ y.changed = false ∧ y.session = (if r.auth then some r.session else none) ∧ y.intervalMs = (if x.high = 0 then 10 else x.high) ∧ y.lease = s.objNum 0x1020 3 ∧
      y.lastValue = (s.took r).objValue r.src o ∧ (∀ z ∈ s.agent.subs, z.id ≠ y.id) ∧
      Answers r 0 (r.payload.take 8 ++ leBytes 8 (y.id + y.lease * 2 ^ 16)) s t))) ∧
  (∀ (r : BreopReq) (o : ObjSpec) (y : Subscription) (s : State),
      let x := breopFields r.payload
      Asked s r → r.op = 5 → bitOf x.word1 0 = false → (s.took r).subObj r = .ok o → s.agent.subs.find? (subIs r o) = some y →
    Yields .subscribe s (Settled (fun t => t.agent.subs = modFirst (subIs r o) (fun y => { y with
        intervalMs := if x.high = 0 then 10 else x.high, dest := r.dest, via := r.via,
        renewedRtc := s.aon.rtc, lease := s.objNum 0x1020 3 }) s.agent.subs ∧
      Answers r 0 (r.payload.take 8 ++ leBytes 8 (y.id + s.objNum 0x1020 3 * 2 ^ 16)) s t))) ∧
  (∀ (r : BreopReq) (o : ObjSpec) (s : State),
      Asked s r → r.op = 5 → bitOf (breopFields r.payload).word1 0 = false → (s.took r).subObj r = .ok o →
      s.agent.subs.find? (subIs r o) = none → 32 ≤ s.agent.subs.length →
    Yields .subscribe s (Settled (fun t => t.agent.subs = s.agent.subs ∧ Answers r statusSubFull [] s t))) ∧
  (∀ (r : BreopReq) (o : ObjSpec) (x : Subscription) (s : State),
      Asked s r → r.op = 5 → bitOf (breopFields r.payload).word1 0 = true → (s.took r).subObj r = .ok o →
      s.agent.subs.find? (subIs r o) = some x →
    Yields .cancel s (Settled (fun t => t.agent.subs = delFirst (subIs r o) s.agent.subs ∧
      Answers r 0 (r.payload.take 8 ++ leBytes 8 x.id) s t))) ∧
  (∀ (i : Nat) (x : Subscription) (o : ObjSpec) (s : State), s.agent.subs[i]? = some x → s.findObj x.index x.sub = .ok o →
      ∃ y, s.noteSubs.agent.subs[i]? = some y ∧ y.lastValue = s.objValue x.src o ∧
        (y.changed = true ↔ x.changed = true ∨ s.objValue x.src o ≠ x.lastValue)) ∧
  (∀ (i : Nat) (x : Subscription) (o : ObjSpec) (s : State), s.noteSubs.agent.subs[i]? = some x →
      s.noteSubs.findObj x.index x.sub = .ok o → s.agentUp = true → x.changed = true → x.due s.aon.rtc = true →
    Yields (.notify i) s (fun t => (∃ m, AgentSends m s t ∧ m.op = 6 ∧ m.dst = x.src ∧ m.sender = x.dest ∧ m.via = x.via ∧
        m.reqId = (x.count + 1) % 2 ^ 32 ∧ m.auth = x.session.isSome) ∧
      t = { s with sent := t.sent, heldMgmt := t.heldMgmt, heldHost := t.heldHost, hosts := t.hosts, agent := t.agent,
                   free := s.free + 1 } ∧
      t.agent.subs[i]? = some { x with
        count := x.count + 1, sentRtc := some s.aon.rtc, lastValue := s.noteSubs.objValue x.src o, changed := false })) ∧
  (∀ (i : Nat) (x : Subscription) (s : State), s.agent.subs[i]? = some x →
      x.lease * 25000000 ≤ (s.aon.rtc - x.renewedRtc).toNat →
    Yields (.subscriptionLapse i) s (fun t => t = { s with agent := { s.agent with subs := listDel s.agent.subs i } })) ∧
  (∀ (i : Nat) (g : Staging) (s : State), s.agent.staging[i]? = some g → 25000000 ≤ (s.aon.rtc - g.lastRtc).toNat →
    Yields (.stagingDiscard i) s (fun t => t = { s with agent := { s.agent with staging := listDel s.agent.staging i } })) ∧
  (∀ (i : Nat) (k : Kept) (s : State), s.agent.kept[i]? = some k → 25000000 ≤ (s.aon.rtc - k.rtc).toNat →
    Yields (.keptResponseExpiry i) s (fun t => t = { s with agent := { s.agent with kept := listDel s.agent.kept i } })) ∧
  (∀ (i : Nat) (x : Session) (s : State), s.agent.sessions[i]? = some x → 7500000000 ≤ (s.aon.rtc - x.usedRtc).toNat →
    Yields (.sessionTimeout i) s (fun t => t = { s with agent := t.agent } ∧
      t.agent.sessions = s.agent.sessions.filter (fun y => decide (y.id ≠ x.id)) ∧
      t.agent.subs = s.agent.subs.filter (fun y => decide (y.session ≠ some x.id)))) ∧
  (∀ (f : MgmtFrame) (src : Source) (bytes : List Byte) (r : BreopReq) (s : State),
      let dst : Source := { addr := s.agent.addrInForce, port := s.breopPort }
      let w : State := { s with agent := { s.agent with admitted := s.agent.admitted + 1, requests := s.agent.requests ++ [r] } }
      s.agentUp = true → s.agent.mgmtLink ≠ .down → mgmtFrameOk f = true → s.mgmtFull = false → f.body = .breop src dst bytes →
      breopOf src dst none bytes = some r →
    Yields (.mgmtFrame f) s (fun t => t = w.settleAgent ∧
      ∀ q, (s.agent.requests ++ [r]).head? = some q → w.answeredAtOnce q = none → t = w)) ∧
  (∀ (f : MgmtFrame) (src : Source) (bytes : List Byte) (s : State),
      let dst : Source := { addr := s.agent.addrInForce, port := s.breopPort }
      s.agentUp = true → s.agent.mgmtLink ≠ .down → mgmtFrameOk f = true → s.mgmtFull = false → f.body = .breop src dst bytes →
      breopOf src dst none bytes = none →
    Yields (.mgmtFrame f) s (fun t => t = { s with agent := { s.agent with dropped := inc64 s.agent.dropped 1 } })) ∧
  (∀ (f : MgmtFrame) (src dst : Source) (bytes : List Byte) (s : State), f.body = .breop src dst bytes →
      dst ≠ { addr := s.agent.addrInForce, port := s.breopPort } → s.mgmtFull = false → exec (.mgmtFrame f) s = .next s) ∧
  (∀ (f : MgmtFrame) (s : State), 1522 < f.length ∨ 1 < f.tags → exec (.mgmtFrame f) s = .next s) ∧
  (∀ (f : MgmtFrame) (a : Nat) (s : State), f.body = .arp true ∨ f.body = .icmpEcho ∨ f.body = .icmpv6 ∨
        (f.body = .dhcp a false ∧ s.objNum 0x1010 2 = 0) → s.agentUp = true → s.agent.mgmtLink ≠ .down →
      mgmtFrameOk f = true → s.mgmtFull = false → (s.fifo ⟨.mgmtTx, 0⟩).flow = false →
    Yields (.mgmtFrame f) s (fun t => t = { s with sent := s.sent ++ [.mgmtReply f] })) ∧
  (∀ (f : MgmtFrame) (a : Nat) (s : State), f.body = .dhcp a true → s.agentUp = true → s.agent.mgmtLink ≠ .down →
      mgmtFrameOk f = true → s.mgmtFull = false → s.objNum 0x1010 2 = 0 →
    Yields (.mgmtFrame f) s (fun t => t = { s with agent := { s.agent with addrInForce := ipv4Mapped a } })) ∧
  (∀ (f : MgmtFrame) (a : Nat) (s : State), f.body = .slaac a → s.agentUp = true → s.agent.mgmtLink ≠ .down →
      mgmtFrameOk f = true → s.mgmtFull = false → s.objNum 0x1010 2 = 2 → (s.fifo ⟨.mgmtTx, 0⟩).flow = false →
    Yields (.mgmtFrame f) s (fun t => t = { s with
      sent := s.sent ++ [.mgmtReply f], agent := { s.agent with addrInForce := a % 2 ^ 128 } })) ∧
  (∀ (link : PhyLink) (s : State), s.bedOn bedRot = true →
    Yields (.phyInt link) s (fun t => t = { s with agent := { s.agent with mgmtLink := link } }))

/-- BOOT runs the preferred slot if its image passes, else the other, else recovery, unwraps the identity key, and
ends with the agent running, the latched events passed on and, unless BED_MODE or recovery forbids it, every
switched bed's target on. FW_IMAGE enters checking; an image that passes is written to the spare slot and
preferred, one that fails, in a check or in the flash, leaves that slot empty with its event. FW_COMMIT_SVN
raises MIN_SVN only between it and the running SVN. MEASURE_EXTEND extends its register only. A quote begins with
its header and the nonce. A failed entropy test halts the root of trust. -/
def Obligations.FirmwareIsMeasuredAndQuoted : Prop :=
  (∀ (s : State),
      let slot (b : Bool) : Bool := slotOk s.rot.minSvn (if b then s.rot.fwSlots.2 else s.rot.fwSlots.1)
      s.bedOn bedRot = true → s.rot.stage = 0 → s.rot.halted = false →
    Yields .boot s (fun t => t.rot.stage = 6 ∧ t.mem = s.mem ∧ t.health.latch = [] ∧ t.rot.identityKey = some unwrapIdentity ∧
      t.rot.recovery = (!slot s.fwPref && !slot (!s.fwPref)) ∧
      (slot s.fwPref = true → t.rot.slot = s.fwPref ∧ t.rot.bootResult = 0) ∧
      (slot s.fwPref = false → slot (!s.fwPref) = true → t.rot.slot = !s.fwPref) ∧
      (t.rot.recovery = false → s.objNum 0x2022 1 ≠ 1 → ∀ b : Fin 62, 2 ≤ b.val → t.beds[b].target = true))) ∧
  (∀ (bytes : List Byte) (s : State), s.agentUp = true → s.rot.fwStatus ≠ 1 →
    Yields (.fwImage bytes) s (fun t => t.agent.lastStatus = statusOk ∧
      t = { s with rot := { s.rot with fwStaged := some (imageOf bytes), fwStatus := 1 }, agent := t.agent })) ∧
  (∀ (f : FwImage) (flashOk : Bool) (s : State),
      let fails : Option Nat := if (imageFails s.rot.minSvn f).isSome then imageFails s.rot.minSvn f else if flashOk then none else some 6
      s.rot.fwStaged = some f → s.rot.fwStatus = 1 → s.bedOn bedRot = true →
    Yields (.fwImageCheckEnd flashOk) s (fun t => t.rot.fwStaged = none ∧
      (fails = none → t.rot.fwStatus = 2 ∧
        t.rot.fwSlots = (if s.spareSlot then (s.rot.fwSlots.1, some f) else (some f, s.rot.fwSlots.2)) ∧
        t.fwPref = s.spareSlot ∧ t = { s with rot := t.rot, objs := t.objs }) ∧
      (∀ k, fails = some k → t.rot.fwStatus = 3 ∧
        t.rot.fwSlots = (if s.spareSlot then (s.rot.fwSlots.1, none) else (none, s.rot.fwSlots.2)) ∧
        t = { s with rot := t.rot, health := t.health } ∧
        ∃ e : Event, t.health.raised = s.health.raised ++ [e] ∧ e.code = 0x0C06 ∧ e.arg1 = BitVec.ofNat 64 k))) ∧
  (∀ (f : FwImage) (v : Nat) (s : State), s.agentUp = true → s.fwInForce = some f → s.rot.minSvn ≤ v → v ≤ imgSvn f → v ≤ 64 →
    Yields (.fwCommitSvn v) s (fun t => t.rot.minSvn = v ∧ t.objNum 0x7004 4 = v ∧ t.agent.lastStatus = statusOk ∧
      (∀ i : Fin 16, i ≠ 2 → t.rot.mr[i] = s.rot.mr[i]) ∧ (s.objNum 0x7004 4 = v → t.rot.mr = s.rot.mr) ∧
      t = { s with rot := t.rot, objs := t.objs, agent := t.agent })) ∧
  (∀ (f : FwImage) (v : Nat) (s : State), s.agentUp = true → s.fwInForce = some f → v < s.rot.minSvn ∨ imgSvn f < v →
    Yields (.fwCommitSvn v) s (fun t => t.agent.lastStatus = statusRange ∧ t = { s with agent := t.agent })) ∧
  (∀ (i : Fin 16) (b : Byte) (d : List Byte) (s : State), s.agentUp = true → b.toNat = i.val → 10 ≤ i.val → d ≠ [] →
      d.length ≤ 1023 →
    Yields (.measureExtend (b :: d)) s (fun t => t.agent.lastStatus = statusOk ∧ t = { s with agent := t.agent, rot := t.rot } ∧
      t.rot = { s.rot with mr := s.rot.mr.set i (sha3w (leBytes 64 s.rot.mr[i].toNat ++ sha3_512 d)) })) ∧
  (∀ (n : List Byte) (s : State), s.agentUp = true → 32 ≤ n.length → n.length ≤ 64 →
    Yields (.quoteRequest n) s (fun t => t.agent.lastStatus = statusOk ∧
      t = { s with agent := t.agent, rot := { s.rot with quoteNonce := some n, quote := [] } })) ∧
  (∀ (n : List Byte) (s : State), s.agentUp = true → s.rot.quoteNonce = some n → n.length ≤ 64 →
    Yields .quoteFormed s (fun t => t = { s with rot := { s.rot with quoteNonce := none, quote := t.rot.quote } } ∧
      t.rot.quote.take 4 = [0x54, 0x51, 1, BitVec.ofNat 8 n.length] ∧ (t.rot.quote.drop 8).take n.length = n)) ∧
  (∀ (s : State), s.bedOn bedRot = true →
    Yields .entropyHealthFail s (fun t =>
      t = { s with rot := { s.rot with halted := true }, aon := { s.aon with rotFaultLow := true } }))

/-- A CHALLENGE takes the place of its source's earlier one. A whole SESSION_OPEN that passes opens a session with
the next number and no SEQ used, and claims a device without owner keys for its key; any whole SESSION_OPEN
consumes the challenge, and one of another TOTAL is discarded. SESSION_CLOSE ends its session and its
subscriptions. OWNER_KEYS of one to four whole keys are held. A MACSEC_KEYEX for a sub-port that exists installs
a key, keeps its value and keeps a ciphertext for its source; none is taken after a failed entropy test. A
DEBUG_UNLOCK that passes sets the scope, closes every session and erases every link key; a rejected one changes
no more than the challenge, and one without AUTH not even that. -/
def Obligations.SessionsKeysAndUnlocks : Prop :=
  (∀ (src : Source) (s : State), s.agentUp = true →
    Yields (.challenge src) s (fun t => t = { s with agent := t.agent, free := s.free + 1 } ∧
      ∃ c, t.agent.challenges = s.agent.challenges.filter (fun x => decide (x.1 ≠ src)) ++ [(src, c, s.aon.rtc)])) ∧
  (∀ (src : Source) (b : List Byte) (s : State), s.agentUp = true → b.length ≤ 16384 →
    Yields (.sessionOpen src b b.length) s (fun t => t.agent.lastStatus = statusOk ∧
      t.agent.challenges = s.agent.challenges.filter (fun x => decide (x.1 ≠ src)) ∧
      t = { s with agent := t.agent, free := s.free + 1, objs := t.objs, rot := t.rot } ∧
      (s.sessionOk src b = false ∨ s.claims = false → t.objs = s.objs ∧ t.rot = s.rot) ∧
      (s.sessionOk src b = true → s.claims = true → t.objBytes 0x7005 1 = slice b 1608 2592) ∧
      (s.sessionOk src b = true →
        ∃ x, t.agent.sessions = s.agent.sessions ++ [x] ∧ x.id = s.agent.nextSession ∧ x.lastSeq = none ∧ x.usedRtc = s.aon.rtc) ∧
      (s.sessionOk src b = false → t.agent.sessions = s.agent.sessions))) ∧
  (∀ (src : Source) (b : List Byte) (total : Nat) (s : State), s.agentUp = true → total ≠ b.length ∨ 16384 < total →
    Yields (.sessionOpen src b total) s (fun t => t = { s with agent := { s.agent with lastStatus := statusLength } })) ∧
  (∀ (n : Nat) (x : Session) (s : State), s.agentUp = true → x ∈ s.agent.sessions → x.id = n →
    Yields (.sessionClose n) s (fun t => t = { s with agent := t.agent } ∧ t.agent.lastStatus = statusOk ∧
      t.agent.sessions = s.agent.sessions.filter (fun y => decide (y.id ≠ n)) ∧
      t.agent.subs = s.agent.subs.filter (fun y => decide (y.session ≠ some n)))) ∧
  (∀ (ks : List (List Byte)) (s : State), s.agentUp = true → ks ≠ [] → ks.length ≤ 4 → (∀ k ∈ ks, k.length = 2592) →
    Yields (.ownerKeys ks) s (fun t => t.objBytes 0x7005 1 = ks.flatten ∧ t.agent.lastStatus = statusOk ∧
      (∀ i : Fin 16, i ≠ 2 → t.rot.mr[i] = s.rot.mr[i]) ∧ t = { s with rot := t.rot, objs := t.objs, agent := t.agent })) ∧
  (∀ (src : Source) (b : List Byte) (h : Fin 2) (i : Fin 4) (s : State), s.agentUp = true → b.length = 1569 →
      (b.headD 0).toNat = 4 * h.val + i.val → s.bedOn (bedHost h.val) = true → s.subExists h i = true →
    Yields (.macsecKeyex src b) s (fun t => t.agent.lastStatus = statusOk ∧ t.hosts[h].subs[i].keyed = true ∧
      t.hosts[h].subs[i].newAn.isSome = true ∧ t.objBytes 0x7006 1 = b ∧ (∃ c, (src, c) ∈ t.agent.macsecResults ∧ c.length = 1568) ∧
      (∀ j : Fin 16, j ≠ 2 → t.rot.mr[j] = s.rot.mr[j]) ∧
      t = { s with hosts := s.hosts.set h t.hosts[h], agent := t.agent, objs := t.objs, rot := t.rot, free := s.free + 1 })) ∧
  (∀ (src : Source) (b : List Byte) (s : State), s.rot.halted = true → exec (.macsecKeyex src b) s = .next s) ∧
  (∀ (src : Source) (b : List Byte) (s : State), s.agentUp = true →
    Yields (.debugUnlock src b true) s (fun t =>
      (s.tokenOk src b = true → t.rot.debugState = (b.getD 2 0).toNat ∧ t.agent.sessions = [] ∧
        (∀ p : Fin 16, t.ports[p].keys = none) ∧ (∀ (h : Fin 2) (i : Fin 4), t.hosts[h].subs[i].keys = []) ∧
        t.job.state ≠ .running ∧ t.agent.lastStatus = statusOk) ∧
      (s.tokenOk src b = false → t = { s with agent := { s.agent with
        challenges := s.agent.challenges.filter (fun x => decide (x.1 ≠ src)), lastStatus := statusRange } }))) ∧
  (∀ (src : Source) (b : List Byte) (s : State), s.agentUp = true →
    Yields (.debugUnlock src b false) s (fun t => t = { s with agent := { s.agent with lastStatus := statusAuthRequired } }))

/-- JOB_MANIFEST while no job is held enters VERIFYING with what is kept of the manifest. At the end of the checks a
manifest that passes runs the job with its keys, the memory key in every base die while what the stacks hold
stays as it was stored, and every unit at START_STEP; one that fails leaves REJECTED, memory and clusters as they
were, and one event with the step; a halted root of trust ends no check. JOB_END of a running job leaves no job,
no job key, every base die under its own key and nothing in flight, JOB_STATE 3 until the next crystal cycle; one
while VERIFYING ends the check. -/
def Obligations.JobsAreAdmittedAndEnded : Prop :=
  (∀ (bytes : List Byte) (s : State), s.agentUp = true → s.rot.recovery = false → s.job.state = .none ∨ s.job.state = .rejected →
    Yields (.jobManifest bytes) s (fun t => t.agent.lastStatus = statusOk ∧
      t = { s with agent := t.agent, job := { s.job with state := .verifying, manifest := some (s.manifestOf bytes) } })) ∧
  (∀ (m : Manifest) (s : State), s.job.state = .verifying → s.job.manifest = some m → s.rot.halted = false →
    Yields .jobAdmissionEnd s (fun t =>
      (∀ secret, s.admissionFails m = none → s.unwrapSecret m = some secret →
        t.job.state = .running ∧ t.job.manifest = some m ∧ t.job.digest = m.digest ∧
        t.job.pepper = (jobKeys secret (jobIdOf m) m.devNumber).1 ∧ t.job.memKey = some (jobKeys secret (jobIdOf m) m.devNumber).2 ∧
        (∀ k : Fin 12, t.mem.keyNow k = (jobKeys secret (jobIdOf m) m.devNumber).2 ∧ t.hbm[k].jobKey = true) ∧
        t.mem.cells = s.mem.cells ∧ t.mem.under = s.mem.under ∧ t.mem.first = s.mem.first ∧
        (∀ d : Fin 4, t.dies[d].upd.stepNumber = BitVec.ofNat 32 m.startStep)) ∧
      (s.admissionFails m = none → (s.unwrapSecret m).isSome = true) ∧
      (∀ k, s.admissionFails m = some k → t.job.state = .rejected ∧ t.job.manifest = none ∧
        t = { s with job := t.job, health := t.health, free := s.free + 1 } ∧
        (s.bedOn bedRot = true → ∃ e : Event, t.health.raised = s.health.raised ++ [e] ∧ e.code = 0x0C03 ∧
          e.arg0 = BitVec.ofNat 64 k)))) ∧
  (∀ s : State, s.rot.halted = true → exec .jobAdmissionEnd s = .next s) ∧
  (∀ (s : State), s.agentUp = true → s.rot.recovery = false → s.job.state = .running →
    Yields .jobEnd s (fun t => t.job = { Job.reset with state := .ending } ∧ t.agent.lastStatus = statusOk ∧ t.posts = [] ∧
      t.partials = [] ∧ t.delivered = [] ∧ t.txFlows = [] ∧
      (∀ g : Fin 32, t.clusters[g].active = false) ∧
      (∀ k : Fin 12, t.hbm[k].jobKey = false ∧ t.mem.keyNow k = s.hbm[k].bedKey))) ∧
  (∀ (s : State), s.agentUp = true → s.rot.recovery = false → s.job.state = .verifying →
    Yields .jobEnd s (fun t => t.agent.lastStatus = statusOk ∧ t = { s with job := .reset, agent := t.agent }))

/-- A write of a numeric RW or RWS object that has no effect of its own, of its type and in its range, is held by the
object alone; the ballast parameters also reach the arrays that are idle. VCORE_SETPOINT takes 600 to 800 mV in
steps of 5 and refuses another value. A constant or read-only object refuses every write. RWS_FLASH_WRITE copies
the value held to the flash. -/
def Obligations.ObjectWritesTakeTheirValue : Prop :=
  (∀ (i : BitVec 16) (k : Byte) (o : ObjSpec) (ty : Byte) (n : Nat) (s : State), s.agentUp = true →
      s.findObj i.toNat k.toNat = .ok o → o.index = i.toNat → o.sub = k.toNat → o.access = .rw ∨ o.access = .rws →
      ty.toNat = o.type → isNumType o.type = true → n < 256 ^ objTypeBytes o.type → s.numOk o n = true →
      i.toNat ∉ [0x2020, 0x2022, 0x2030, 0x3003, 0x4020, 0x5021, 0x7001, 0x7004, 0xA001] →
    ∀ w : Fin 16, w.val = ty.toNat → Yields (.objectWrite i k (.num w n)) s (fun t => t.objNum i.toNat k.toNat = n ∧
      (∀ j m, objKey j m ≠ objKey i.toNat k.toNat → t.objNum j m = s.objNum j m) ∧ t.agent.lastStatus = statusOk ∧
      t = { s with objs := t.objs, agent := t.agent })) ∧
  (∀ (k : Byte) (o : ObjSpec) (w : Fin 16) (n : Nat) (s : State), s.agentUp = true → s.findObj 0x4020 k.toNat = .ok o →
      o.index = 0x4020 → o.sub = k.toNat → o.access = .rw ∨ o.access = .rws → w.val = o.type → isNumType o.type = true →
      n < 256 ^ objTypeBytes o.type → s.numOk o n = true →
    Yields (.objectWrite 0x4020 k (.num w n)) s (fun t => t.objNum 0x4020 k.toNat = n ∧ t.agent.lastStatus = statusOk ∧
      t = { s with objs := t.objs, agent := t.agent, cores := t.cores })) ∧
  (∀ (d : Fin 4) (mv : Nat) (s : State), s.agentUp = true → s.servesIndex 0x2010 = true →
      600 ≤ mv → mv ≤ 800 → mv % 5 = 0 →
    Yields (.vcoreSetpointWrite d mv) s (fun t => t.objNum 0x2010 (d.val + 1) = mv ∧ t.agent.lastStatus = statusOk ∧
      t = { s with objs := t.objs, agent := t.agent })) ∧
  (∀ (d : Fin 4) (mv : Nat) (s : State), s.agentUp = true → s.servesIndex 0x2010 = true →
      mv < 600 ∨ 800 < mv ∨ mv % 5 ≠ 0 →
    Yields (.vcoreSetpointWrite d mv) s (fun t => t.agent.lastStatus = statusRange ∧ t = { s with agent := t.agent })) ∧
  (∀ (i : BitVec 16) (k : Byte) (o : ObjSpec) (v : ObjValue) (s : State), s.agentUp = true →
      s.findObj i.toNat k.toNat = .ok o → o.access = .const ∨ o.access = .ro →
    Yields (.objectWrite i k v) s (fun t => t.agent.lastStatus = statusAccess ∧ t = { s with agent := t.agent })) ∧
  (∀ (i : BitVec 16) (k : Byte) (o : ObjSpec) (v : Nat) (s : State), s.bedOn bedRot = true → objFind i.toNat k.toNat = some o →
      o.access = .rws → objKeepsNothing i.toNat k.toNat = false → isNumType o.type = true →
      tabFind s.objs.nums (objKey i.toNat k.toNat) = some v →
    Yields (.rwsFlashWrite i k) s (fun t => tabFind t.objs.flashNums (objKey i.toNat k.toNat) = some v ∧
      t.objs.nums = s.objs.nums ∧ t = { s with objs := t.objs }))

/-- RETIRE_REQUEST of an HBM address whose stack's bed is on adds its granule to that stack's list with cause 2.
FENCE_REQUEST fences the named unit persistently, FENCE one whose check found a cause that R569 lists for it,
both listed with the cause and not brought by another. FENCE_CLEAR lifts a persistent fence and all that it
brought. Memory stays. -/
def Obligations.RequestsRetireAndFence : Prop :=
  (∀ (a : Nat) (s : State), s.agentUp = true → s.servesIndex 0x5021 = true → a < hbmEnd →
      s.bedOn (bedStack (stackOf a).val) = true → s.hbm[stackOf a].retired.length + 1 < s.objNum 0x5010 4 →
      s.hbm[stackOf a].retired.length + 1 < 1024 →
      (∀ e ∈ s.hbm[stackOf a].retired, e.addr ≠ a / 4096 * 4096) →
    Yields (.retireRequest a) s (fun t => t.mem = s.mem ∧ t.agent.lastStatus = statusOk ∧ t.objNum 0x5021 1 = a ∧
      t.hbm[stackOf a].retired = s.hbm[stackOf a].retired ++ [⟨a / 4096 * 4096, 2, s.aon.rtc, false, none⟩])) ∧
  (∀ (u : BitVec 16) (k : FenceKind) (s : State), s.agentUp = true → s.servesIndex 0x3003 = true → fenceNamed u = some k →
      (∀ f ∈ s.health.fences, f.unit ≠ fenceUid k) →
    Yields (.fenceRequest u) s (fun t => t.mem = s.mem ∧ t.agent.lastStatus = statusOk ∧
      ∃ f ∈ t.health.fences, f.unit = fenceUid k ∧ f.persistent = true ∧ f.cause = 0 ∧ f.by_ = 0)) ∧
  (∀ (u cause : BitVec 16) (k : FenceKind) (s : State), fenceNamed u = some k → fenceCause k cause = true →
      (∀ f ∈ s.health.fences, f.unit ≠ fenceUid k) →
    Yields (.fence u cause) s (fun t => t.mem = s.mem ∧ t.health.capCause.isSome = true ∧
      ∃ f ∈ t.health.fences, f.unit = fenceUid k ∧ f.persistent = causePersistent cause ∧ f.cause = cause ∧ f.by_ = 0)) ∧
  (∀ (u cause : BitVec 16) (k : FenceKind) (s : State), fenceNamed u = some k → fenceCause k cause = false →
    exec (.fence u cause) s = .next s) ∧
  (∀ (u : BitVec 16) (k : FenceKind) (s : State), s.agentUp = true → s.servesIndex 0x3003 = true → fenceNamed u = some k →
      s.clearable k = true →
    Yields (.fenceClear u) s (fun t => t.mem = s.mem ∧ t.agent.lastStatus = statusOk ∧
      (∀ f ∈ t.health.fences, f.unit ≠ fenceUid k ∧ f.by_ ≠ fenceUid k) ∧
      t.health.fences.Sublist s.health.fences ∧ t.health.capCause.isSome = true))

/-- SNAP copies the ten live counters and the tick count of a reachable unit at one tick and leaves the counters
running. COUNTER_SNAPSHOT does the same for the unit that COUNTER_UNIT names, and its bytes show the copy. An
8-byte write of TICKETS in a live stack sets its 8 counts; one of a cluster's SPEC_TEMPLATE sets bits 47 to 0. A
write to a stack's read-only CE_COUNT changes nothing, and a write that the access rules refuse is not performed
and raises their event, at the agent by the model's choice (log entry 47). -/
def Obligations.CountersSnapAndRegistersTakeWrites : Prop :=
  (∀ (u : StallUnit) (s : State), s.clusterFenced (stallCluster u) = false → s.clusterOn (stallCluster u) = true →
    Yields (.snap u) s (fun t => (t.stall u).snapCounts = (s.stall u).counts ∧ (t.stall u).counts = (s.stall u).counts ∧
      (t.stall u).snapTick = s.clusters[stallCluster u].osc.tick ∧ t.mem = s.mem ∧ t.health = s.health)) ∧
  (∀ (u : StallUnit) (s : State), s.agentUp = true → s.servesIndex 0x8010 = true → stallUnitOf (s.objNum 0x8010 1) = some u →
      s.clusterOn (stallCluster u) = true →
    Yields .counterSnapshot s (fun t => (t.stall u).snapCounts = (s.stall u).counts ∧
      (t.stall u).snapTick = s.clusters[stallCluster u].osc.tick ∧
      t.agent.counterSnap = leBytes 8 (s.objNum 0x8010 1 % 65536) ++ wordBytes s.clusters[stallCluster u].osc.tick ++
        (s.stall u).counts.toList.flatMap wordBytes)) ∧
  (∀ (k : Fin 12) (pc : Fin 64) (v : Word) (a : BitVec 48) (s : State),
      a.toNat = dieUnitBase (k.val / 3) (5 + k.val % 3) + 0x1000 + 8 * pc.val → s.accessFail .any a.toNat 8 = none →
    Yields (.registerWrite a v true) s (fun t => OnlyStack k s t ∧ t.hbm[k].ticketsOf pc.val = v)) ∧
  (∀ (g : Fin 32) (v : Word) (a : BitVec 48) (s : State), a.toNat = clusterUnitBase g.val 1 + 0x18 →
      s.accessFail .any a.toNat 8 = none →
    Yields (.registerWrite a v true) s (fun t => OnlyCluster g s t ∧ t.clusters[g].harrow.specTemplate = v.setWidth 48)) ∧
  (∀ (k : Fin 12) (v : Word) (a : BitVec 48) (s : State), a.toNat = dieUnitBase (k.val / 3) (5 + k.val % 3) + 0x10 →
      s.accessFail .any a.toNat 8 = none →
    exec (.registerWrite a v true) s = .next s) ∧
  (∀ (a : BitVec 48) (v : Word) (wide : Bool) (f : Fail) (s : State), unitBase ≤ a.toNat →
      s.accessFail .any a.toNat (if wide then 8 else 4) = some f →
    Yields (.registerWrite a v wide) s (fun t => OnlyHealth s t ∧
      (s.bedOn bedRot = true → ∃ e ∈ t.health.raised, e.code = BitVec.ofNat 16 f.code ∧ e.unit = uidAgent)))

/-- The oldest raised event enters the ring at the head, or is suppressed when its pair was recorded less than 1 ms
ago. A cluster that stays in one Season for SEASON_STALL_MS raises Season-stall once. After a change the
descriptor takes the next version and the fences in progress end. The first persistent fence not on the flash is
written there. A released output that falls is open, one found shorted is kept with its event until it clears. A
missing reference clock takes its link die's fabric ports OFF. An edge that reaches its retry limit the third
time within 1 s is fenced. -/
def Obligations.EventsFencesAndWiringAreKept : Prop :=
  (∀ (e : Event) (rest : List Event) (s : State), s.health.raised = e :: rest → s.bedOn bedRot = true → 6 ≤ s.rot.stage →
      loggedClass e.code = true ∨ s.health.recent s.aon.rtc e = false →
    Yields .eventRecord s (fun t => OnlyHealth s t ∧ t.health.raised = rest ∧ t.health.head = s.health.head + 1 ∧
      tabFind t.health.ring (s.health.head % 1024) = some (recordOf s.aon.rtc e, false) ∧
      t.health.suppressed = s.health.suppressed)) ∧
  (∀ (e : Event) (rest : List Event) (s : State), s.health.raised = e :: rest → s.bedOn bedRot = true → 6 ≤ s.rot.stage →
      loggedClass e.code = false → s.health.recent s.aon.rtc e = true →
    Yields .eventRecord s (fun t => t = { s with health := { s.health with
      raised := rest, suppressed := inc64 s.health.suppressed 1 } })) ∧
  (∀ (g : Fin 32) (s : State),
      let ms := (s.aon.rtc - s.clusters[g].advanceRtc).toNat / 25000
      s.jobRuns = true → s.clusters[g].active = true → s.clusterLive g = true → s.objNum 0x3010 1 ≠ 0 →
      s.objNum 0x3010 1 ≤ ms → s.clusters[g].stalledRaised = false →
    Yields (.seasonStall g) s (fun t => OnlyClusterEvents g s t ∧
      t.clusters[g] = { s.clusters[g] with stalledRaised := true } ∧
      (s.bedOn bedRot = true → ∃ e : Event, t.health.raised = s.health.raised ++ [e] ∧ e.code = 0x0307 ∧
        e.arg0 = BitVec.ofNat 64 s.clusters[g].season ∧ e.arg1 = BitVec.ofNat 64 ms ∧ e.arg2 = BitVec.ofNat 64 g.val))) ∧
  (∀ (u cause : BitVec 16) (s : State), s.health.capCause = some (u, cause) →
    Yields .capacityPublish s (fun t => t.health.capVersion = s.health.capVersion + 1 ∧ t.health.capCause = none ∧
      t.health.published = true ∧ t.health.fenceBusy = [] ∧ t.health.replaceReasons = BitVec.ofNat 8 s.replaceReasons ∧
      t.health.capacity = s.capWords false (s.health.capVersion + 1).toNat s.replaceReasons u cause ∧ t.mem = s.mem)) ∧
  (∀ (s : State), s.health.capCause = none → s.health.published = false → 6 ≤ s.rot.stage →
    Yields .capacityPublish s (fun t => OnlyHealth s t ∧ t.health.published = true ∧
      t.health.capacity = s.capWords false 0 s.replaceReasons 0 0)) ∧
  (∀ (as bs : List FenceEntry) (f : FenceEntry) (s : State), s.health.fences = as ++ f :: bs →
      (∀ x ∈ as, (x.persistent && !x.flashed) = false) → f.persistent = true → f.flashed = false →
    Yields .persistentFenceWrite s (fun t => t = { s with health := { s.health with
      fences := as ++ { f with flashed := true } :: bs } })) ∧
  (∀ (o : Sideband) (s : State), s.sidebandLow o = false → s.aon.sidebandOf o ≠ .openLine →
    Yields (.sidebandProbe o true) s (fun t => t = { s with aon := t.aon, health := t.health } ∧
      t.aon.sidebandOf o = .openLine ∧
      (s.bedOn bedRot = true → ∃ e : Event, t.health.raised = s.health.raised ++ [e] ∧ e.code = 0x0B06 ∧ e.arg1 = 1))) ∧
  (∀ (o : Sideband) (s : State), s.sidebandLow o = true → s.aon.sidebandOf o ≠ .shortSupply →
    Yields (.sidebandFault o .shortSupply) s (fun t => t = { s with aon := t.aon, health := t.health } ∧
      t.aon.sidebandOf o = .shortSupply)) ∧
  (∀ (o : Sideband) (s : State), s.sidebandLow o = false → s.aon.sidebandOf o ≠ .shortGround →
    Yields (.sidebandFault o .shortGround) s (fun t => t = { s with aon := t.aon, health := t.health } ∧
      t.aon.sidebandOf o = .shortGround)) ∧
  (∀ (o : Sideband) (s : State),
    Yields (.sidebandFaultCleared o) s (fun t => t = { s with aon := t.aon } ∧ t.aon.sidebandOf o = .good ∧
      (∀ p, p ≠ o → t.aon.sidebandOf p = s.aon.sidebandOf p))) ∧
  (∀ (l : Fin 2) (s : State), s.aon.powered = true → s.refclkIs l = false →
    Yields (.refclkMissing l) s (fun t => t.refclkIs l = true ∧ t.refclkIs (1 - l) = s.refclkIs (1 - l) ∧ t.mem = s.mem ∧
      t.health.capCause.isSome = true ∧ (∀ p : Fin 16, p.val / 8 = l.val → t.ports[p].state = .off))) ∧
  (∀ (l : Fin 2) (s : State), s.refclkIs l = true →
    Yields (.refclkReturn l) s (fun t => t.refclkIs l = false ∧ t = { s with aon := t.aon, health := t.health } ∧
      t.health.capCause.isSome = true ∧ t.ports = s.ports)) ∧
  (∀ (e : EdgeId) (s : State),
    Yields (.edgeLinkRetry e false) s (fun t => OnlyHealth s t ∧ RecoveryKind.retry ∈ t.health.recovery ∧
      t.health.fences = s.health.fences)) ∧
  (∀ (e : EdgeId) (s : State), (∀ f ∈ s.health.fences, f.unit ≠ edgeUid e.val) →
      2 ≤ (s.health.edgeRetries.filter (fun x => decide (x.1 = e.val ∧ (s.aon.rtc - x.2).toNat < 25000000))).length →
    Yields (.edgeLinkRetry e true) s (fun t => t.mem = s.mem ∧
      ∃ f ∈ t.health.fences, f.unit = edgeUid e.val ∧ f.persistent = true ∧ f.by_ = 0))

/-- A target write is taken where R588 and R589 allow it. BED_START starts the lowest-numbered eligible bed, but not
within 100 us of the last ramp, and BED_ON brings it on with its units at reset: a stack in training under the
key in force, a cluster's trim begun with the partitions in force; a root of trust that has halted measures no
firmware part, so a bed that has one does not come on. POWER_GOOD_FAIL takes it off and fences a cluster.
BED_STOP stops the highest-numbered bed that may stop, once no granted transfer of its stack has units to move,
and BED_OFF loses its memory. ROT_RETRY ramps the ROT bed once more. DEVICE_RESTART loses every memory and every
bed but AON and starts the ROT bed. CLUSTER_RESET writes the cluster's memory with zero and holds it until its
end. -/
def Obligations.BedsStartStopAndReset : Prop :=
  (∀ (b : Fin 62) (s : State), s.agentUp = true → s.rot.recovery = false → 2 ≤ b.val → s.bedHeld b = false →
    Yields (.bedTarget b true) s (fun t => t = { s with beds := s.beds.set b t.beds[b], agent := t.agent } ∧
      t.beds[b] = { s.beds[b] with target := true, barred := false } ∧ t.agent.lastStatus = statusOk)) ∧
  (∀ (b : Fin 62) (on : Bool) (s : State), s.agentUp = true → s.rot.recovery = false → b.val < 2 →
    Yields (.bedTarget b on) s (fun t => t = { s with agent := t.agent } ∧ t.agent.lastStatus = statusAccess)) ∧
  (∀ (b : Fin 62) (s : State), s.agentUp = true → s.rot.recovery = false → 2 ≤ b.val → s.jobHolds b = false →
    Yields (.bedTarget b false) s (fun t => t.beds[b] = { s.beds[b] with target := false } ∧
      (∀ c ∈ bedChildren b, s.beds[c].phase ≠ .off → t.beds[c].target = false) ∧
      (∀ c : Fin 62, t.beds[c].phase = s.beds[c].phase) ∧ t.mem = s.mem ∧ t.agent.lastStatus = statusOk)) ∧
  (∀ (b : Fin 62) (s : State), s.mayStart b = true → (∀ c : Fin 62, c < b → s.mayStart c = false) → s.startingCount < 8 → s.rampFree = true →
    Yields .bedStart s (fun t => t = { s with
      beds := s.beds.set b { s.beds[b] with phase := .starting }, aon := { s.aon with rampRtc := some s.aon.rtc } })) ∧
  (∀ s : State, s.rampFree = false → exec .bedStart s = .next s) ∧
  (∀ (b : Fin 62) (s : State), s.rot.halted = true → bedMeasured b = true → exec (.bedOn b) s = .next s) ∧
  (∀ (b : Fin 62) (s : State), s.beds[b].phase = .starting → s.bedOn (bedParent b) = true →
      s.rot.halted = false ∨ bedMeasured b = false →
    Yields (.bedOn b) s (fun t => t.beds = s.beds.set b { s.beds[b].count with phase := .on } ∧
      t.mem.cells = s.mem.cells ∧ ((∀ k : Fin 12, bedKind b ≠ .stack k) → t.mem = s.mem) ∧
      (∀ k : Fin 12, bedKind b = .stack k → t.hbm[k].state = .training ∧ t.hbm[k].log = [] ∧
        t.mem.keyNow k = s.job.memKey.getD t.hbm[k].bedKey) ∧
      (∀ g : Fin 32, bedKind b = .cluster g →
        t.clusters[g] = s.setPartitions g { Cluster.reset with osc := trimStart Osc.reset }) ∧
      (∀ d : Fin 4, bedKind b = .die d → t.dies[d].vcore = 10 * s.vcoreEffective d))) ∧
  (∀ (b : Fin 62) (g : Fin 32) (s : State), s.beds[b].phase = .starting → bedKind b = .cluster g →
      (∀ f ∈ s.health.fences, f.unit ≠ uidCluster g.val 0) →
    Yields (.powerGoodFail b) s (fun t => t.beds = s.beds.set b { s.beds[b].count with phase := .off } ∧
      ∃ f ∈ t.health.fences, f.unit = uidCluster g.val 0 ∧ f.persistent = true ∧ f.cause = 0x0B07)) ∧
  (∀ (s : State), s.beds[bedRot].phase = .starting →
    Yields (.powerGoodFail bedRot) s (fun t => t.beds[bedRot].phase = .off ∧ t.aon.rotFaultLow = true ∧
      t.aon.rotRetry = some (!s.aon.rotRetry.isSome) ∧ t.mem = s.mem)) ∧
  (∀ (b : Fin 62) (s : State), s.mayStop b = true → (∀ c : Fin 62, b < c → s.mayStop c = false) →
      s.transferOut b = false →
    Yields .bedStop s (fun t => t.beds = s.beds.set b { s.beds[b] with phase := .stopping } ∧
      ((∀ n : Fin 256, s.cores[n].thr.entriesOut = [] ∧ s.cores[n].thr.orphans = []) → t.mem = s.mem))) ∧
  (∀ (b : Fin 62) (s : State), s.mayStop b = true → (∀ c : Fin 62, b < c → s.mayStop c = false) →
      s.transferOut b = true → exec .bedStop s = .next s) ∧
  (∀ (b : Fin 62) (s : State), s.beds[b].phase = .stopping →
    Yields (.bedOff b) s (fun t => t.beds = s.beds.set b { s.beds[b].count with phase := .off } ∧
      t = { s with beds := t.beds, mem := t.mem, hbm := t.hbm, cores := t.cores } ∧
      (∀ k : Fin 12, bedKind b = .stack k → ∀ c ∈ t.mem.cells, regionOf c.1 ≠ k.val) ∧
      (∀ g : Fin 32, bedKind b = .cluster g → ∀ c ∈ t.mem.cells, regionOf c.1 ≠ 12 + g.val))) ∧
  (∀ (s : State), s.aon.rotRetry = some true → s.beds[bedRot].phase = .off → s.aon.powerSteps = true →
    Yields .rotRetry s (fun t => t = { s with
      beds := s.beds.set bedRot { s.beds[bedRot] with phase := .starting }, aon := { s.aon with rampRtc := some s.aon.rtc } })) ∧
  (∀ (s : State), s.agentUp = true → s.rot.recovery = false →
    Yields .deviceRestart s (fun t => t.mem.cells = [] ∧ t.mem.zeroed = [] ∧ t.aon.resetKind = 1 ∧ t.aon.resetCause = 6 ∧
      (∀ b : Fin 62, b ≠ 0 → t.beds[b].phase = .off ∧ t.beds[b].target = decide (b = bedRot)) ∧
      t.beds[(0 : Fin 62)] = s.beds[(0 : Fin 62)] ∧ t.job = .reset ∧ t.rot.minSvn = s.rot.minSvn ∧
      t.rot.fwSlots = s.rot.fwSlots ∧ t.objs.nums = s.objs.flashNums ∧ t.aon.rtc = s.aon.rtc)) ∧
  (∀ (g : Fin 32) (s : State), s.agentUp = true → s.rot.recovery = false → s.job.state = .none ∨ s.job.state = .rejected →
      s.clusterOn g = true →
    Yields (.clusterReset g.val) s (fun t => t.agent.lastStatus = statusOk ∧ t.clusters[g].resetting = true ∧
      (∀ a, regionOf a = 12 + g.val → t.mem.read a = 0) ∧ (∀ a, regionOf a ≠ 12 + g.val → t.mem.read a = s.mem.read a) ∧
      t.clusters[g].seq = .reset ∧ t.clusters[g].launch = [] ∧ t.clusters[g].tokens = [] ∧
      t.clusters[g].osc = s.clusters[g].osc ∧ (∀ h : Fin 32, h ≠ g → t.clusters[h] = s.clusters[h]))) ∧
  (∀ (g : Fin 32) (s : State),
    Yields (.clusterResetEnd g) s (fun t => OnlyCluster g s t ∧ t.clusters[g] = { s.clusters[g] with resetting := false }))

/-- AON powers up with the inputs it finds and, with 48 V, the ROT bed's target is on. An input trip takes VIN_OK and
every bed but AON off and is latched. A thermal trip shuts the same way. With every input released a supply
shutdown restarts with its cause; a thermal one restarts by itself or by a wake. Low standby supply only moves
AON to the 48 V input, where that is there. A measurement above the limit at 600 mV lowers the array limit from
the second on, one below 95 percent raises it. A throttle step moves a die's value, or the package's while the
last measurement is over the limit or below 95 percent of it, by 5 mV within 600 to 800. The limit is
POWER_LIMIT_W, and that times VIN / 40 V while the last VIN_MV lies from 38,000 to below 40,000. -/
def Obligations.SuppliesShutAndRestart : Prop :=
  (∀ (standby vin : Bool) (s : State), standby = true ∨ vin = true →
    Yields (.aonPowerUp standby vin) s (fun t => t.aon.powered = true ∧ t.aon.stbyOk = standby ∧ t.aon.vinOk = vin ∧
      t.aon.rtc = 0 ∧ t.mem.cells = [] ∧ t.mem.zeroed = [] ∧ t.beds[bedRot].target = vin ∧ t.aon.powerSteps = vin ∧
      (∀ b : Fin 62, b ≠ 0 → t.beds[b].phase = .off) ∧ t.objs.nums = s.objs.flashNums)) ∧
  (let Tripped (s t : State) : Prop := t.aon.shut = true ∧ t.aon.powerSteps = false ∧
      (s.aon.powerSteps = true → (∀ b : Fin 62, b ≠ 0 → t.beds[b].phase = .off) ∧ t.mem.cells = [] ∧ t.job = .reset)
    let Latched (code arg : Nat) (t : State) : Prop := ∃ e ∈ t.health.latch ++ t.health.raised,
      e.code = BitVec.ofNat 16 code ∧ e.arg0 = BitVec.ofNat 64 arg
    (∀ (s : State), s.aon.powered = true → s.aon.reversed = false → s.health.latch.length < 16 →
      Yields .inputReversed s (fun t => Tripped s t ∧ t.aon.vinOk = false ∧ t.aon.reversed = true ∧ Latched 0x0B01 0 t)) ∧
    (∀ (mv : Nat) (s : State), s.aon.powered = true → s.aon.underV = false → s.health.latch.length < 16 →
      Yields (.inputUnderVoltage mv) s (fun t => Tripped s t ∧ t.aon.vinOk = false ∧ t.aon.underV = true ∧
        Latched 0x0B02 mv t)) ∧
    (∀ (mv : Nat) (s : State), s.aon.powered = true → s.aon.overV = false → s.health.latch.length < 16 →
      Yields (.inputOverVoltage mv) s (fun t => Tripped s t ∧ t.aon.vinOk = false ∧ t.aon.overV = true ∧
        Latched 0x0B03 mv t)) ∧
    (∀ (i : Fin 8) (s : State), s.aon.powered = true → s.aon.therm.getLsbD i.val = false → s.health.latch.length < 16 →
      Yields (.thermalTrip i) s (fun t => Tripped s t ∧ t.aon.shutCause = some .thermal ∧
        t.aon.therm.getLsbD i.val = true ∧ Latched 0x0B05 i.val t))) ∧
  (∀ (mv : Nat) (s : State), s.aon.powered = true → s.aon.standbyLow = false →
    Yields (.standbyLow mv) s (fun t => t = { s with aon := t.aon, health := t.health } ∧
      t.aon = { s.aon with standbyLow := true, stbyOk := false, onVin := s.aon.inputsOk })) ∧
  (∀ (s : State), s.aon.powered = true → s.aon.shut = true →
    Yields (.comparatorRelease .underV) s (fun t => t = { s with aon := t.aon } ∧ t.aon = { s.aon with
      underV := false, vinOk := !s.aon.reversed && !s.aon.overV })) ∧
  (∀ (s : State), s.aon.powered = true → s.aon.shut = false → s.aon.shutCause = none → s.aon.powerSteps = false →
      s.aon.reversed = false → s.aon.overV = false →
    Yields (.comparatorRelease .underV) s (fun t => t.aon.vinOk = true ∧ t.aon.powerSteps = true ∧
      t = { s with aon := t.aon, beds := s.beds.set bedRot { s.beds[bedRot] with target := true } })) ∧
  (∀ (i : Fin 8) (s : State), s.aon.powered = true → s.aon.shut = true →
    Yields (.comparatorRelease (.thermal i)) s (fun t => t = { s with aon := t.aon } ∧ t.aon.therm.getLsbD i.val = false ∧
      (∀ j : Fin 8, j ≠ i → t.aon.therm.getLsbD j.val = s.aon.therm.getLsbD j.val))) ∧
  (∀ (c : ShutCause) (s : State), s.aon.shutCause = some c → c ≠ .thermal → s.aon.shut = true → s.aon.inputsOk = true →
    Yields .supplyRestart s (fun t => t.aon.resetKind = 1 ∧ t.aon.resetCause = supplyCause c ∧ t.aon.shutCause = none ∧
      t.aon.powerSteps = true ∧ t.beds[bedRot].target = true ∧ t.mem = s.mem)) ∧
  (∀ (s : State), s.cooled = true → s.objNum 0x2040 9 = 0 →
    Yields .thermalRestart s (fun t => t.aon.resetKind = 1 ∧ t.aon.resetCause = 4 ∧ t.aon.powerSteps = true ∧
      t.beds[bedRot].target = true)) ∧
  (∀ (s : State), s.cooled = true → s.objNum 0x2040 9 = 1 →
    Yields .managementWake s (fun t => t.aon.resetKind = 1 ∧ t.aon.resetCause = 5 ∧ t.beds[bedRot].target = true)) ∧
  (∀ (s : State), s.aon.shut = true → s.aon.shutCause = some .thermal → s.cooled = false →
    Yields .managementWake s (fun t => t = { s with aon := { s.aon with wakeSeen := true } })) ∧
  (∀ (s : State), Yields .crystalFail s (fun t => t = { s with aon := { s.aon with xtalOk := false } })) ∧
  (∀ (s : State), s.aon.powered = true →
    Yields .crystalReturn s (fun t => t = { s with aon := { s.aon with xtalOk := true } })) ∧
  (∀ (vin stby : Nat) (s : State), s.aon.powered = true → vin < 65536 → stby < 65536 →
    Yields (.supplyMeasure vin stby) s (fun t => t = { s with aon := { s.aon with vinMv := vin, stbyMv := stby } })) ∧
  (∀ (w : U32) (s : State), s.bedOn bedRot = true → s.aon.packageMv = 600 → 0 < s.aon.overMs →
      pinOver s.powerLimit w = true →
    Yields (.powerMeasure w) s (fun t => t = { s with aon := { s.aon with
      pinW := w, overMs := s.aon.overMs + 1, arrayLimit := limitDown s.aon.arrayLimit } })) ∧
  (∀ (w : U32) (s : State), s.bedOn bedRot = true → pinOver s.powerLimit w = false →
      pinBelow s.powerLimit w = true →
    Yields (.powerMeasure w) s (fun t => t = { s with aon := { s.aon with
      pinW := w, overMs := 0, arrayLimit := limitUp s.aon.arrayLimit } })) ∧
  (∀ (d : Fin 4) (up : Bool) (s : State), s.bedOn bedRot = true →
    Yields (.vcoreThrottleStep (some d) up) s (fun t => OnlyDie d s t ∧ t.dies[d] = { s.dies[d] with
      thermal := if up then min 800 (s.dies[d].thermal + 5) else max 600 (s.dies[d].thermal - 5) })) ∧
  (∀ (s : State), s.bedOn bedRot = true → s.aon.arrayLimit = 100 → pinBelow s.powerLimit s.aon.pinW = true →
    Yields (.vcoreThrottleStep none true) s (fun t => t = { s with aon := { s.aon with
      packageMv := min 800 (s.aon.packageMv + 5) } })) ∧
  (∀ (s : State), s.bedOn bedRot = true → pinOver s.powerLimit s.aon.pinW = true →
    Yields (.vcoreThrottleStep none false) s (fun t => t = { s with aon := { s.aon with
      packageMv := max 600 (s.aon.packageMv - 5) } })) ∧
  (∀ (s : State), s.powerLimit = s.objNum 0x2001 3 * (if 38000 ≤ s.aon.vinMv ∧ s.aon.vinMv < 40000 then s.aon.vinMv else 40000))

/-- A step of a state whose queue begins with a command answers what that command answers on the same state with the
rest of the queue. On an empty queue one crystal cycle passes, which is the model's choice (log entry 2): the
memory, the beds and the queue stay, and so do the fences where no read of an engine has left a granule to
retire. -/
def Obligations.StepRunsTheFrontCommand : Prop :=
  (∀ (c : Instr) (rest : List Instr) (s : State), s.pending = c :: rest →
    step s = exec c { s with pending := rest }) ∧
  (∀ (s : State), s.pending = [] → ∃ t, step s = .next t ∧ t.pending = [] ∧ t.mem = s.mem ∧ t.beds = s.beds ∧
    ((∀ k : Fin 12, s.hbm[k].toRetire = []) → t.health.fences = s.health.fences))

/-- State.reset has only the AON bed on, an empty command queue, no event and no job, memory in its canonical form
with nothing listed, every sequencer HALTED at 0 with an empty launch table, and meets the invariants. The values
without a reset value in the spec are the model's choice (log entry 4). -/
def Obligations.ResetLeavesNothingRunning : Prop :=
  State.reset.mem.cells = [] ∧ State.reset.mem.wf = true ∧ LaunchTablesOk State.reset ∧ SequencersOk State.reset ∧
  (∀ b : Fin 62, State.reset.bedOn b = decide (b = 0)) ∧ State.reset.pending = [] ∧ State.reset.health.raised = [] ∧
  State.reset.job.state = .none ∧ State.reset.posts = [] ∧ State.reset.delivered = [] ∧
  (∀ g : Fin 32, State.reset.clusters[g].seq.state = .halted ∧ State.reset.clusters[g].seq.pc = 0 ∧
    State.reset.clusters[g].season = 0 ∧ State.reset.clusters[g].launch = [] ∧ State.reset.clusters[g].queues = [])

/-- If the listed bytes of memory have strictly rising addresses, none is zero in a zeroed region, and the access
units that are listed with the key of their last write rise and carry another key than their stack's first, the
same holds after any step, so equal memories are equal data. -/
def Obligations.EveryStepKeepsMemoryCanonical : Prop :=
  ∀ s t : State, s.mem.wf = true → step s = .next t → t.mem.wf = true

/-- If every launch entry passes the checks of R100, every sequencer's PC is below 2,048 and every SEASON_LIMIT below
2 to the 48, the same holds after any step: LENT, re-arming, a new job, resets and restarts included. -/
def Obligations.EveryStepKeepsLaunchTablesAndSequencers : Prop :=
  ∀ s t : State, LaunchTablesOk s → SequencersOk s → step s = .next t → LaunchTablesOk t ∧ SequencersOk t
end

