-- ==== Sys2Proof/Laws/Tables.lean ====
section
/-! SUPPORT. Laws/Tables.lean: reading a table after setting or removing a key, and the one form in which it is held. -/

namespace Sys2Proof

variable {α : Type}

@[simp] theorem tabFind_tabSet_same (t : Tab α) (n : Nat) (a : α) : tabFind (tabSet t n a) n = some a := by
  induction t with
  | nil => simp [tabSet, tabFind]
  | cons p t ih =>
    obtain ⟨k, v⟩ := p
    simp only [tabSet]
    split
    · simp [tabFind]
    · split
      · simp [tabFind]
      · rename_i h1 h2
        have : k ≠ n := fun h => h2 h.symm
        simp [tabFind, this, ih]

theorem tabFind_tabSet_other (t : Tab α) (n m : Nat) (a : α) (h : m ≠ n) :
    tabFind (tabSet t n a) m = tabFind t m := by
  have hn : ¬ n = m := fun e => h e.symm
  induction t with
  | nil => simp [tabSet, tabFind, hn]
  | cons p t ih =>
    obtain ⟨k, v⟩ := p
    simp only [tabSet]
    split
    · simp [tabFind, hn]
    · split
      · rename_i h2
        subst h2
        simp [tabFind, hn]
      · simp [tabFind, ih]

@[simp] theorem tabGet_tabSet_same (t : Tab α) (d : α) (n : Nat) (a : α) : tabGet (tabSet t n a) d n = a := by
  simp [tabGet]

theorem tabGet_tabSet_other (t : Tab α) (d : α) (n m : Nat) (a : α) (h : m ≠ n) :
    tabGet (tabSet t n a) d m = tabGet t d m := by
  simp [tabGet, tabFind_tabSet_other t n m a h]

theorem tabFind_tabDel (t : Tab α) (n m : Nat) :
    tabFind (tabDel t n) m = if m = n then none else tabFind t m := by
  induction t with
  | nil => simp [tabDel, tabFind]
  | cons p t ih =>
    obtain ⟨k, v⟩ := p
    simp only [tabDel] at ih
    by_cases hk : k = n
    · subst hk
      by_cases hm : m = k
      · simpa [tabDel, tabFind, hm] using ih
      · have hkm : ¬ k = m := fun e => hm e.symm
        simpa [tabDel, tabFind, hm, hkm] using ih
    · by_cases hm : k = m
      · subst hm
        simp [tabDel, tabFind, hk]
      · by_cases hmn : m = n <;> simp_all [tabDel, tabFind]

/-- Keys strictly rise, as a relation between neighbours. -/
theorem tabSorted_iff (t : Tab α) : tabSorted t = true ↔ t.IsChain (fun a b => a.1 < b.1) := by
  induction t with
  | nil => simp [tabSorted]
  | cons p t ih =>
    cases t with
    | nil => simp [tabSorted]
    | cons q t => simp [tabSorted, ih]

theorem tabSorted_pairwise (t : Tab α) : tabSorted t = true ↔ t.Pairwise (fun a b => a.1 < b.1) := by
  rw [tabSorted_iff]
  have : Trans (fun a b : Nat × α => a.1 < b.1) (fun a b : Nat × α => a.1 < b.1) (fun a b : Nat × α => a.1 < b.1) :=
    ⟨fun h1 h2 => Nat.lt_trans h1 h2⟩
  exact List.isChain_iff_pairwise

theorem tabSet_keys (t : Tab α) (n : Nat) (a : α) (p : Nat × α) (h : p ∈ tabSet t n a) : p = (n, a) ∨ p ∈ t := by
  induction t with
  | nil => simpa [tabSet] using h
  | cons q t ih =>
    obtain ⟨k, v⟩ := q
    simp only [tabSet] at h
    split at h
    · simpa using h
    · split at h
      · rcases List.mem_cons.1 h with h | h
        · exact .inl h
        · exact .inr (List.mem_cons_of_mem _ h)
      · rcases List.mem_cons.1 h with h | h
        · exact .inr (by simp [h])
        · rcases ih h with h | h
          · exact .inl h
          · exact .inr (List.mem_cons_of_mem _ h)

/-- Setting a key keeps the one form. -/
theorem tabSorted_tabSet (t : Tab α) (n : Nat) (a : α) (h : tabSorted t = true) : tabSorted (tabSet t n a) = true := by
  rw [tabSorted_pairwise] at *
  induction t with
  | nil => simp [tabSet]
  | cons q t ih =>
    obtain ⟨k, v⟩ := q
    have hq := List.pairwise_cons.1 h
    simp only [tabSet]
    split
    · rename_i hn
      refine List.pairwise_cons.2 ⟨fun p hp => ?_, h⟩
      rcases List.mem_cons.1 hp with rfl | hp
      · exact hn
      · exact Nat.lt_trans hn (hq.1 p hp)
    · split
      · rename_i _ he
        exact List.pairwise_cons.2 ⟨fun p hp => he ▸ hq.1 p hp, hq.2⟩
      · rename_i h1 h2
        refine List.pairwise_cons.2 ⟨fun p hp => ?_, ih hq.2⟩
        rcases tabSet_keys t n a p hp with rfl | hp
        · show k < n
          omega
        · exact hq.1 p hp

/-- Removing entries keeps the one form. -/
theorem tabSorted_filter (t : Tab α) (f : Nat × α → Bool) (h : tabSorted t = true) : tabSorted (t.filter f) = true := by
  rw [tabSorted_pairwise] at *
  exact List.Pairwise.filter f h

end Sys2Proof
end

