-- ==== Sys2Proof/Laws/Memory.lean ====
section
/-! SUPPORT. Laws/Memory.lean: the canonical form of memory, which every operation keeps, and reading after writing. -/

namespace Sys2Proof.Machine

/-- The canonical form, part by part. -/
theorem Memory.wf_iff (m : Memory) :
    m.wf = true ↔ (tabSorted m.cells = true ∧ ∀ c ∈ m.cells, ¬ (c.2 = 0 ∧ m.zeroed.contains (regionOf c.1) = true)) ∧
      tabSorted m.under = true ∧ ∀ u ∈ m.under, u.2 ≠ m.keyFirst u.1 := by
  simp only [Memory.wf, Bool.and_eq_true, List.all_eq_true, Bool.not_eq_true', Bool.and_eq_false_iff, decide_eq_false_iff_not,
    not_and_or, Bool.not_eq_true, decide_eq_true_eq, and_assoc]

section put
variable (m : Memory) (a : Nat) (b : Byte)

@[simp] theorem Memory.put_zeroed : (m.put a b).zeroed = m.zeroed := by unfold Memory.put; split <;> rfl
@[simp] theorem Memory.put_eras : (m.put a b).eras = m.eras := by unfold Memory.put; split <;> rfl
@[simp] theorem Memory.put_keys : (m.put a b).keys = m.keys := by unfold Memory.put; split <;> rfl
@[simp] theorem Memory.put_first : (m.put a b).first = m.first := by unfold Memory.put; split <;> rfl
@[simp] theorem Memory.put_under : (m.put a b).under = m.under := by unfold Memory.put; split <;> rfl
@[simp] theorem Memory.put_keyFirst (u : Nat) : (m.put a b).keyFirst u = m.keyFirst u := by simp [Memory.keyFirst]
@[simp] theorem Memory.put_keyOf (u : Nat) : (m.put a b).keyOf u = m.keyOf u := by simp [Memory.keyOf]
@[simp] theorem Memory.put_keyNow (k : Fin 12) : (m.put a b).keyNow k = m.keyNow k := by simp [Memory.keyNow]
@[simp] theorem Memory.put_foreign (x : Nat) : (m.put a b).foreign x = m.foreign x := by simp [Memory.foreign]

/-- Setting a byte sets that byte and no other. -/
@[simp] theorem Memory.plain_put_same : (m.put a b).plain a = b := by
  unfold Memory.put
  split
  · rename_i h
    simp only [Memory.plain, tabFind_tabDel, if_true, Memory.unlisted, h.2, h.1]
  · simp [Memory.plain]

theorem Memory.plain_put_other (x : Nat) (h : x ≠ a) : (m.put a b).plain x = m.plain x := by
  unfold Memory.put
  split
  · simp [Memory.plain, tabFind_tabDel, h, Memory.unlisted]
  · simp [Memory.plain, tabFind_tabSet_other _ _ _ _ h, Memory.unlisted]

/-- Setting a byte keeps the canonical form. -/
theorem Memory.put_wf (h : m.wf = true) : (m.put a b).wf = true := by
  rw [Memory.wf_iff] at *
  obtain ⟨⟨hs, hz⟩, hu⟩ := h
  refine ⟨?_, by simpa using hu⟩
  unfold Memory.put
  split
  · exact ⟨tabSorted_filter _ _ hs, fun c hc => hz c (List.mem_filter.1 hc).1⟩
  · rename_i hb
    refine ⟨tabSorted_tabSet _ _ _ hs, fun c hc => ?_⟩
    rcases tabSet_keys _ _ _ _ hc with rfl | hc
    · exact hb
    · exact hz c hc
end put

section putAll
variable (m : Memory) (a : Nat) (bs : List Byte)

theorem Memory.putAll_keeps : (m.putAll a bs).zeroed = m.zeroed ∧ (m.putAll a bs).eras = m.eras ∧ (m.putAll a bs).keys = m.keys ∧
    (m.putAll a bs).first = m.first ∧ (m.putAll a bs).under = m.under := by
  induction bs generalizing m a with
  | nil => exact ⟨rfl, rfl, rfl, rfl, rfl⟩
  | cons b t ih => simpa [Memory.putAll] using ih (m.put a b) (a + 1)

theorem Memory.putAll_wf (h : m.wf = true) : (m.putAll a bs).wf = true := by
  induction bs generalizing m a with
  | nil => exact h
  | cons b t ih => exact ih _ _ (m.put_wf a b h)

theorem Memory.plain_putAll_outside (x : Nat) (h : x < a ∨ a + bs.length ≤ x) : (m.putAll a bs).plain x = m.plain x := by
  induction bs generalizing m a with
  | nil => rfl
  | cons b t ih =>
    simp only [List.length_cons] at h
    rw [Memory.putAll, ih _ _ (by omega), Memory.plain_put_other _ _ _ _ (by omega)]

theorem Memory.plain_putAll_inside (i : Nat) (h : i < bs.length) : (m.putAll a bs).plain (a + i) = bs[i] := by
  induction bs generalizing m a i with
  | nil => simp at h
  | cons b t ih =>
    cases i with
    | zero =>
      rw [Memory.putAll, Nat.add_zero, Memory.plain_putAll_outside _ _ _ _ (by omega)]
      simp
    | succ i =>
      have h' : i < t.length := by simpa using h
      have e : a + (i + 1) = a + 1 + i := by omega
      rw [Memory.putAll, e, ih _ _ _ h']
      simp
end putAll

/-- The key of a unit once it has been keyed: the one in force; other units keep theirs. -/
theorem Memory.keyOf_keyed (m : Memory) (u v : Nat) :
    (m.keyed u).keyOf v = if v = u then m.keyNow (stackOf (u * 64)) else m.keyOf v := by
  have hf : ∀ w, (m.keyed u).keyFirst w = m.keyFirst w := fun _ => rfl
  unfold Memory.keyOf
  rw [hf]
  by_cases h : v = u
  · subst h
    simp only [Memory.keyed, if_true]
    split
    · rename_i hk
      simp [tabGet, tabFind_tabDel, hk]
    · simp
  · simp only [Memory.keyed, if_neg h]
    split
    · simp [tabGet, tabFind_tabDel, h]
    · exact tabGet_tabSet_other _ _ _ _ _ h

theorem Memory.keyed_wf (m : Memory) (u : Nat) (h : m.wf = true) : (m.keyed u).wf = true := by
  rw [Memory.wf_iff] at *
  refine ⟨h.1, ?_⟩
  have hf : ∀ w, (m.keyed u).keyFirst w = m.keyFirst w := fun _ => rfl
  simp only [hf]
  unfold Memory.keyed
  simp only
  split
  · exact ⟨tabSorted_filter _ _ h.2.1, fun c hc => h.2.2 c (List.mem_filter.1 hc).1⟩
  · rename_i hk
    refine ⟨tabSorted_tabSet _ _ _ h.2.1, fun c hc => ?_⟩
    rcases tabSet_keys _ _ _ _ hc with rfl | hc
    · exact hk
    · exact h.2.2 c hc

/-- What a byte reads as depends on the keys and on the 64 bytes of its unit. -/
theorem Memory.read_congr (m m' : Memory) (x : Nat) (hk : m'.keys = m.keys) (ho : m'.keyOf (x / 64) = m.keyOf (x / 64))
    (hp : ∀ i, i < 64 → m'.plain (x / 64 * 64 + i) = m.plain (x / 64 * 64 + i)) : m'.read x = m.read x := by
  have hf : m'.foreign x = m.foreign x := by unfold Memory.foreign Memory.keyNow; rw [ho, hk]
  have hs : m'.stored (x / 64) = m.stored (x / 64) := by
    unfold Memory.stored
    rw [ho]
    congr 1
    exact List.map_congr_left (fun i hi => hp i (List.mem_range.1 hi))
  have hx : m'.plain x = m.plain x := by
    have e : x / 64 * 64 + x % 64 = x := Nat.div_add_mod' x 64
    have := hp (x % 64) (Nat.mod_lt _ (by omega))
    rwa [e] at this
  unfold Memory.read
  rw [hf, hx, show m'.decrypted (x / 64) = m.decrypted (x / 64) by unfold Memory.decrypted; rw [hs]; simp only [Memory.keyNow, hk]]

@[simp] theorem Memory.unitNow_length (m : Memory) (u : Nat) : (m.unitNow u).length = 64 := by simp [Memory.unitNow]

theorem Memory.unitNow_get (m : Memory) (u i : Nat) (h : i < (m.unitNow u).length) : (m.unitNow u)[i] = m.read (u * 64 + i) := by
  simp [Memory.unitNow]

theorem Memory.plain_keyed (m : Memory) (u x : Nat) : (m.keyed u).plain x = m.plain x := rfl

/-- A byte that is not under another key reads as it was written. -/
theorem Memory.read_plain (m : Memory) (x : Nat) (h : m.foreign x = false) : m.read x = m.plain x := by
  unfold Memory.read
  rw [if_neg (by simp [h])]

/-- After adoption a byte of the unit is plain. -/
theorem Memory.adopt_foreign (m : Memory) (a x : Nat) (h : x / 64 = a / 64) : (m.adopt a).foreign x = false := by
  unfold Memory.adopt
  split
  · have hk := (m.putAll_keeps (a / 64 * 64) (m.unitNow (a / 64))).2.2.1
    simp only [Memory.foreign, h, Memory.keyOf_keyed, if_true]
    simp [Memory.keyed, Memory.keyNow, hk]
  · rename_i hn
    have e : stackOf (x / 64 * 64) = stackOf (a / 64 * 64) := by rw [h]
    simp only [Memory.foreign, Bool.and_eq_true, decide_eq_true_eq, not_and, not_not] at hn
    simp only [Memory.foreign, Bool.and_eq_false_iff, decide_eq_false_iff_not, not_not]
    by_cases hx : x < hbmEnd
    · refine .inr ?_
      have ha : a < hbmEnd := by
        have : x / 64 * 64 ≤ x := Nat.div_mul_le_self x 64
        have h1 : a < a / 64 * 64 + 64 := Nat.lt_div_mul_add (by omega)
        have h2 : hbmEnd % 64 = 0 := by decide
        omega
      rw [h, hn ha]
    · exact .inl hx

/-- Adoption changes nothing that is read. -/
theorem Memory.read_adopt (m : Memory) (a x : Nat) : (m.adopt a).read x = m.read x := by
  by_cases hf : m.foreign a
  · by_cases h : x / 64 = a / 64
    · have e : a / 64 * 64 + x % 64 = x := by rw [← h]; exact Nat.div_add_mod' x 64
      have hx : x % 64 < (m.unitNow (a / 64)).length := by simpa using Nat.mod_lt x (by omega)
      have ha : m.adopt a = (m.putAll (a / 64 * 64) (m.unitNow (a / 64))).keyed (a / 64) := if_pos hf
      rw [Memory.read_plain _ _ (m.adopt_foreign a x h), ha, Memory.plain_keyed]
      have := Memory.plain_putAll_inside m (a / 64 * 64) (m.unitNow (a / 64)) (x % 64) hx
      rw [e, Memory.unitNow_get, e] at this
      exact this
    · unfold Memory.adopt
      rw [if_pos hf]
      obtain ⟨hz, he, hk, h1, hu⟩ := m.putAll_keeps (a / 64 * 64) (m.unitNow (a / 64))
      refine Memory.read_congr _ _ _ (by simpa [Memory.keyed] using hk) ?_ (fun i hi => ?_)
      · rw [Memory.keyOf_keyed, if_neg h]
        simp only [Memory.keyOf, Memory.keyFirst, h1, hu]
      · rw [Memory.plain_keyed]
        refine Memory.plain_putAll_outside _ _ _ _ ?_
        rw [Memory.unitNow_length]
        omega
  · unfold Memory.adopt
    rw [if_neg hf]

theorem Memory.adopt_wf (m : Memory) (a : Nat) (h : m.wf = true) : (m.adopt a).wf = true := by
  unfold Memory.adopt
  split
  · exact Memory.keyed_wf _ _ (Memory.putAll_wf _ _ _ h)
  · exact h

/-- Writing a byte keeps the canonical form. -/
theorem Memory.write_wf (m : Memory) (a : Nat) (b : Byte) (h : m.wf = true) : (m.write a b).wf = true :=
  Memory.put_wf _ _ _ (m.adopt_wf a h)

theorem Memory.writeBytes_wf (m : Memory) (a : Nat) (bs : List Byte) (h : m.wf = true) : (m.writeBytes a bs).wf = true := by
  induction bs generalizing m a with
  | nil => exact h
  | cons b t ih => exact ih _ _ (m.write_wf a b h)

theorem Memory.writeOutside_wf (us : List Nat) (m : Memory) (a : Nat) (bs : List Byte) (h : m.wf = true) :
    (m.writeOutside us a bs).wf = true := by
  induction bs generalizing m a with
  | nil => exact h
  | cons b t ih =>
    refine ih _ _ ?_
    split
    · exact h
    · exact m.write_wf a b h

/-- Forgetting a region keeps the canonical form. -/
theorem Memory.clear_wf (m : Memory) (r : Nat) (h : m.wf = true) : (m.clear r).wf = true := by
  rw [Memory.wf_iff] at *
  exact ⟨⟨tabSorted_filter _ _ h.1.1, fun c hc => h.1.2 c (List.mem_filter.1 hc).1⟩,
    tabSorted_filter _ _ h.2.1, fun c hc => h.2.2 c (List.mem_filter.1 hc).1⟩

/-- Losing a region keeps the canonical form. -/
theorem Memory.lose_wf (m : Memory) (r : Nat) (h : m.wf = true) : (m.lose r).wf = true := by
  have h' := (Memory.wf_iff _).1 (m.clear_wf r h)
  rw [Memory.wf_iff]
  refine ⟨⟨h'.1.1, fun c hc hz => h'.1.2 c hc ⟨hz.1, ?_⟩⟩, h'.2⟩
  have := hz.2
  simp only [Memory.lose, List.contains_iff_mem, List.mem_filter] at this
  simp only [List.contains_iff_mem]
  exact this.1

/-- Zeroing a region keeps the canonical form. -/
theorem Memory.zero_wf (m : Memory) (r : Nat) (h : m.wf = true) : (m.zero r).wf = true := by
  have h' := (Memory.wf_iff _).1 (m.clear_wf r h)
  rw [Memory.wf_iff]
  refine ⟨⟨h'.1.1, fun c hc hz => ?_⟩, h'.2.1, fun u hu => ?_⟩
  · have hr : regionOf c.1 ≠ r := by simpa using (List.mem_filter.1 hc).2
    refine h'.1.2 c hc ⟨hz.1, ?_⟩
    have := hz.2
    simp only [Memory.zero, List.contains_iff_mem, List.mem_cons, List.mem_filter] at this
    simp only [List.contains_iff_mem]
    rcases this with e | e
    · exact absurd e hr
    · exact e.1
  · have hr : (stackOf (u.1 * 64)).val ≠ r := by simpa using (List.mem_filter.1 hu).2
    have e : (m.zero r).keyFirst u.1 = (m.clear r).keyFirst u.1 := by
      simp only [Memory.keyFirst, Memory.zero]
      split
      · exact tabGet_tabSet_other _ _ _ _ _ hr
      · rfl
    rw [e]
    exact h'.2.2 u hu

/-- A change of the memory key keeps the canonical form. -/
theorem Memory.setKey_wf (m : Memory) (k : Fin 12) (key : BitVec 512) (h : m.wf = true) : (m.setKey k key).wf = true := h

/-- A byte reads as the one last written. -/
@[simp] theorem Memory.read_write_same (m : Memory) (a : Nat) (b : Byte) : (m.write a b).read a = b := by
  unfold Memory.write
  rw [Memory.read_plain _ _ (by simpa using m.adopt_foreign a a rfl), Memory.plain_put_same]

/-- A write leaves every other byte alone. -/
theorem Memory.read_write_other (m : Memory) (a x : Nat) (b : Byte) (h : x ≠ a) : (m.write a b).read x = m.read x := by
  rw [← m.read_adopt a x]
  unfold Memory.write
  by_cases hu : x / 64 = a / 64
  · have hn := m.adopt_foreign a x hu
    rw [Memory.read_plain _ _ (by simpa using hn), Memory.read_plain _ _ hn, Memory.plain_put_other _ _ _ _ h]
  · refine Memory.read_congr _ _ _ (by simp) (by simp) (fun i hi => Memory.plain_put_other _ _ _ _ ?_)
    intro e
    apply hu
    rw [← e]
    omega

/-- Writing bytes leaves every byte outside them alone. -/
theorem Memory.read_writeBytes_outside (m : Memory) (a x : Nat) (bs : List Byte) (h : x < a ∨ a + bs.length ≤ x) :
    (m.writeBytes a bs).read x = m.read x := by
  induction bs generalizing m a with
  | nil => rfl
  | cons b t ih =>
    simp only [List.length_cons] at h
    rw [Memory.writeBytes, ih _ _ (by omega), Memory.read_write_other _ _ _ _ (by omega)]

/-- Each byte written reads as it was written. -/
theorem Memory.read_writeBytes_inside (m : Memory) (a i : Nat) (bs : List Byte) (h : i < bs.length) :
    (m.writeBytes a bs).read (a + i) = bs[i] := by
  induction bs generalizing m a i with
  | nil => simp at h
  | cons b t ih =>
    cases i with
    | zero =>
      rw [Memory.writeBytes, Nat.add_zero, Memory.read_writeBytes_outside _ _ _ _ (by omega)]
      simp
    | succ i =>
      have h' : i < t.length := by simpa using h
      have e : a + (i + 1) = a + 1 + i := by omega
      rw [Memory.writeBytes, e, ih _ _ _ h']
      simp

/-- Memory at reset has the canonical form. -/
theorem reset_memory_wf : State.reset.mem.wf = true := by decide

/-- A write of the state's memory keeps the canonical form. -/
theorem writeMem_wf (s : State) (a : Nat) (bs : List Byte) (h : s.mem.wf = true) : (s.writeMem a bs).mem.wf = true := by
  have key : (if s.partPoisoned a bs.length = [] then s.mem.writeBytes a bs
      else s.mem.writeOutside (s.partPoisoned a bs.length) a bs).wf = true := by
    split
    · exact Memory.writeBytes_wf _ _ _ h
    · exact Memory.writeOutside_wf _ _ _ _ h
  unfold State.writeMem
  simp only
  split <;> exact key

/-- A write with its checks either fails, or is the write itself. -/
theorem writeChecked_ok (s s' : State) (who : Who) (a : Nat) (bs : List Byte) (h : s.writeChecked who a bs = .ok s') :
    s.accessFail who a bs.length = none ∧ s.mergeFail a bs.length = none ∧ s' = s.writeMem a bs := by
  unfold State.writeChecked at h
  split at h
  · cases h
  · split at h
    · cases h
    · exact ⟨‹_›, ‹_›, by injection h with h; exact h.symm⟩

/-- A read with its checks either fails, or gives the bytes as they stand. -/
theorem readChecked_ok (s : State) (who : Who) (a n : Nat) (bs : List Byte) (h : s.readChecked who a n = .ok bs) :
    s.readFail who a n = none ∧ bs = s.readMem a n := by
  unfold State.readChecked at h
  split at h
  · cases h
  · exact ⟨‹_›, by injection h with h; exact h.symm⟩

end Sys2Proof.Machine
end

