-- ==== Sys2Proof/Laws/State.lean ====
section
/-! SUPPORT. Laws/State.lean: what each update of one unit leaves in every field of the state. -/

namespace Sys2Proof.Machine

section modCluster
variable (s : State) (g : Fin 32) (f : Cluster → Cluster)
@[simp] theorem modCluster_mem : (s.modCluster g f).mem = s.mem := rfl
@[simp] theorem modCluster_aon : (s.modCluster g f).aon = s.aon := rfl
@[simp] theorem modCluster_beds : (s.modCluster g f).beds = s.beds := rfl
@[simp] theorem modCluster_dies : (s.modCluster g f).dies = s.dies := rfl
@[simp] theorem modCluster_clusters : (s.modCluster g f).clusters = s.clusters.set g (f s.clusters[g]) := rfl
@[simp] theorem modCluster_cores : (s.modCluster g f).cores = s.cores := rfl
@[simp] theorem modCluster_hbm : (s.modCluster g f).hbm = s.hbm := rfl
@[simp] theorem modCluster_ports : (s.modCluster g f).ports = s.ports := rfl
@[simp] theorem modCluster_pools : (s.modCluster g f).pools = s.pools := rfl
@[simp] theorem modCluster_hosts : (s.modCluster g f).hosts = s.hosts := rfl
@[simp] theorem modCluster_ingests : (s.modCluster g f).ingests = s.ingests := rfl
@[simp] theorem modCluster_fifos : (s.modCluster g f).fifos = s.fifos := rfl
@[simp] theorem modCluster_txFlows : (s.modCluster g f).txFlows = s.txFlows := rfl
@[simp] theorem modCluster_rxFlows : (s.modCluster g f).rxFlows = s.rxFlows := rfl
@[simp] theorem modCluster_delivered : (s.modCluster g f).delivered = s.delivered := rfl
@[simp] theorem modCluster_posts : (s.modCluster g f).posts = s.posts := rfl
@[simp] theorem modCluster_arrivals : (s.modCluster g f).arrivals = s.arrivals := rfl
@[simp] theorem modCluster_held : (s.modCluster g f).held = s.held := rfl
@[simp] theorem modCluster_releases : (s.modCluster g f).releases = s.releases := rfl
@[simp] theorem modCluster_partials : (s.modCluster g f).partials = s.partials := rfl
@[simp] theorem modCluster_chunks : (s.modCluster g f).chunks = s.chunks := rfl
@[simp] theorem modCluster_moves : (s.modCluster g f).moves = s.moves := rfl
@[simp] theorem modCluster_incoming : (s.modCluster g f).incoming = s.incoming := rfl
@[simp] theorem modCluster_early : (s.modCluster g f).early = s.early := rfl
@[simp] theorem modCluster_relays : (s.modCluster g f).relays = s.relays := rfl
@[simp] theorem modCluster_nextRelay : (s.modCluster g f).nextRelay = s.nextRelay := rfl
@[simp] theorem modCluster_health : (s.modCluster g f).health = s.health := rfl
@[simp] theorem modCluster_agent : (s.modCluster g f).agent = s.agent := rfl
@[simp] theorem modCluster_objs : (s.modCluster g f).objs = s.objs := rfl
@[simp] theorem modCluster_rot : (s.modCluster g f).rot = s.rot := rfl
@[simp] theorem modCluster_job : (s.modCluster g f).job = s.job := rfl
@[simp] theorem modCluster_sent : (s.modCluster g f).sent = s.sent := rfl
@[simp] theorem modCluster_heldHost : (s.modCluster g f).heldHost = s.heldHost := rfl
@[simp] theorem modCluster_heldMgmt : (s.modCluster g f).heldMgmt = s.heldMgmt := rfl
@[simp] theorem modCluster_gone : (s.modCluster g f).gone = s.gone := rfl
@[simp] theorem modCluster_lastArb : (s.modCluster g f).lastArb = s.lastArb := rfl
@[simp] theorem modCluster_lastAccess : (s.modCluster g f).lastAccess = s.lastAccess := rfl
@[simp] theorem modCluster_phases : (s.modCluster g f).phases = s.phases := rfl
@[simp] theorem modCluster_phaseDue : (s.modCluster g f).phaseDue = s.phaseDue := rfl
@[simp] theorem modCluster_fabInForce : (s.modCluster g f).fabInForce = s.fabInForce := rfl
@[simp] theorem modCluster_free : (s.modCluster g f).free = s.free := rfl
@[simp] theorem modCluster_pending : (s.modCluster g f).pending = s.pending := rfl
end modCluster

section modCore
variable (s : State) (n : Fin 256) (f : Core → Core)
@[simp] theorem modCore_mem : (s.modCore n f).mem = s.mem := rfl
@[simp] theorem modCore_aon : (s.modCore n f).aon = s.aon := rfl
@[simp] theorem modCore_beds : (s.modCore n f).beds = s.beds := rfl
@[simp] theorem modCore_dies : (s.modCore n f).dies = s.dies := rfl
@[simp] theorem modCore_clusters : (s.modCore n f).clusters = s.clusters := rfl
@[simp] theorem modCore_cores : (s.modCore n f).cores = s.cores.set n (f s.cores[n]) := rfl
@[simp] theorem modCore_hbm : (s.modCore n f).hbm = s.hbm := rfl
@[simp] theorem modCore_ports : (s.modCore n f).ports = s.ports := rfl
@[simp] theorem modCore_pools : (s.modCore n f).pools = s.pools := rfl
@[simp] theorem modCore_hosts : (s.modCore n f).hosts = s.hosts := rfl
@[simp] theorem modCore_ingests : (s.modCore n f).ingests = s.ingests := rfl
@[simp] theorem modCore_fifos : (s.modCore n f).fifos = s.fifos := rfl
@[simp] theorem modCore_txFlows : (s.modCore n f).txFlows = s.txFlows := rfl
@[simp] theorem modCore_rxFlows : (s.modCore n f).rxFlows = s.rxFlows := rfl
@[simp] theorem modCore_delivered : (s.modCore n f).delivered = s.delivered := rfl
@[simp] theorem modCore_posts : (s.modCore n f).posts = s.posts := rfl
@[simp] theorem modCore_arrivals : (s.modCore n f).arrivals = s.arrivals := rfl
@[simp] theorem modCore_held : (s.modCore n f).held = s.held := rfl
@[simp] theorem modCore_releases : (s.modCore n f).releases = s.releases := rfl
@[simp] theorem modCore_partials : (s.modCore n f).partials = s.partials := rfl
@[simp] theorem modCore_chunks : (s.modCore n f).chunks = s.chunks := rfl
@[simp] theorem modCore_moves : (s.modCore n f).moves = s.moves := rfl
@[simp] theorem modCore_incoming : (s.modCore n f).incoming = s.incoming := rfl
@[simp] theorem modCore_early : (s.modCore n f).early = s.early := rfl
@[simp] theorem modCore_relays : (s.modCore n f).relays = s.relays := rfl
@[simp] theorem modCore_nextRelay : (s.modCore n f).nextRelay = s.nextRelay := rfl
@[simp] theorem modCore_health : (s.modCore n f).health = s.health := rfl
@[simp] theorem modCore_agent : (s.modCore n f).agent = s.agent := rfl
@[simp] theorem modCore_objs : (s.modCore n f).objs = s.objs := rfl
@[simp] theorem modCore_rot : (s.modCore n f).rot = s.rot := rfl
@[simp] theorem modCore_job : (s.modCore n f).job = s.job := rfl
@[simp] theorem modCore_sent : (s.modCore n f).sent = s.sent := rfl
@[simp] theorem modCore_heldHost : (s.modCore n f).heldHost = s.heldHost := rfl
@[simp] theorem modCore_heldMgmt : (s.modCore n f).heldMgmt = s.heldMgmt := rfl
@[simp] theorem modCore_gone : (s.modCore n f).gone = s.gone := rfl
@[simp] theorem modCore_lastArb : (s.modCore n f).lastArb = s.lastArb := rfl
@[simp] theorem modCore_lastAccess : (s.modCore n f).lastAccess = s.lastAccess := rfl
@[simp] theorem modCore_phases : (s.modCore n f).phases = s.phases := rfl
@[simp] theorem modCore_phaseDue : (s.modCore n f).phaseDue = s.phaseDue := rfl
@[simp] theorem modCore_fabInForce : (s.modCore n f).fabInForce = s.fabInForce := rfl
@[simp] theorem modCore_free : (s.modCore n f).free = s.free := rfl
@[simp] theorem modCore_pending : (s.modCore n f).pending = s.pending := rfl
end modCore

section modDie
variable (s : State) (d : Fin 4) (f : Die → Die)
@[simp] theorem modDie_mem : (s.modDie d f).mem = s.mem := rfl
@[simp] theorem modDie_aon : (s.modDie d f).aon = s.aon := rfl
@[simp] theorem modDie_beds : (s.modDie d f).beds = s.beds := rfl
@[simp] theorem modDie_dies : (s.modDie d f).dies = s.dies.set d (f s.dies[d]) := rfl
@[simp] theorem modDie_clusters : (s.modDie d f).clusters = s.clusters := rfl
@[simp] theorem modDie_cores : (s.modDie d f).cores = s.cores := rfl
@[simp] theorem modDie_hbm : (s.modDie d f).hbm = s.hbm := rfl
@[simp] theorem modDie_ports : (s.modDie d f).ports = s.ports := rfl
@[simp] theorem modDie_pools : (s.modDie d f).pools = s.pools := rfl
@[simp] theorem modDie_hosts : (s.modDie d f).hosts = s.hosts := rfl
@[simp] theorem modDie_ingests : (s.modDie d f).ingests = s.ingests := rfl
@[simp] theorem modDie_fifos : (s.modDie d f).fifos = s.fifos := rfl
@[simp] theorem modDie_txFlows : (s.modDie d f).txFlows = s.txFlows := rfl
@[simp] theorem modDie_rxFlows : (s.modDie d f).rxFlows = s.rxFlows := rfl
@[simp] theorem modDie_delivered : (s.modDie d f).delivered = s.delivered := rfl
@[simp] theorem modDie_posts : (s.modDie d f).posts = s.posts := rfl
@[simp] theorem modDie_arrivals : (s.modDie d f).arrivals = s.arrivals := rfl
@[simp] theorem modDie_held : (s.modDie d f).held = s.held := rfl
@[simp] theorem modDie_releases : (s.modDie d f).releases = s.releases := rfl
@[simp] theorem modDie_partials : (s.modDie d f).partials = s.partials := rfl
@[simp] theorem modDie_chunks : (s.modDie d f).chunks = s.chunks := rfl
@[simp] theorem modDie_moves : (s.modDie d f).moves = s.moves := rfl
@[simp] theorem modDie_incoming : (s.modDie d f).incoming = s.incoming := rfl
@[simp] theorem modDie_early : (s.modDie d f).early = s.early := rfl
@[simp] theorem modDie_relays : (s.modDie d f).relays = s.relays := rfl
@[simp] theorem modDie_nextRelay : (s.modDie d f).nextRelay = s.nextRelay := rfl
@[simp] theorem modDie_health : (s.modDie d f).health = s.health := rfl
@[simp] theorem modDie_agent : (s.modDie d f).agent = s.agent := rfl
@[simp] theorem modDie_objs : (s.modDie d f).objs = s.objs := rfl
@[simp] theorem modDie_rot : (s.modDie d f).rot = s.rot := rfl
@[simp] theorem modDie_job : (s.modDie d f).job = s.job := rfl
@[simp] theorem modDie_sent : (s.modDie d f).sent = s.sent := rfl
@[simp] theorem modDie_heldHost : (s.modDie d f).heldHost = s.heldHost := rfl
@[simp] theorem modDie_heldMgmt : (s.modDie d f).heldMgmt = s.heldMgmt := rfl
@[simp] theorem modDie_gone : (s.modDie d f).gone = s.gone := rfl
@[simp] theorem modDie_lastArb : (s.modDie d f).lastArb = s.lastArb := rfl
@[simp] theorem modDie_lastAccess : (s.modDie d f).lastAccess = s.lastAccess := rfl
@[simp] theorem modDie_phases : (s.modDie d f).phases = s.phases := rfl
@[simp] theorem modDie_phaseDue : (s.modDie d f).phaseDue = s.phaseDue := rfl
@[simp] theorem modDie_fabInForce : (s.modDie d f).fabInForce = s.fabInForce := rfl
@[simp] theorem modDie_free : (s.modDie d f).free = s.free := rfl
@[simp] theorem modDie_pending : (s.modDie d f).pending = s.pending := rfl
end modDie

section modStack
variable (s : State) (k : Fin 12) (f : Stack → Stack)
@[simp] theorem modStack_mem : (s.modStack k f).mem = s.mem := rfl
@[simp] theorem modStack_aon : (s.modStack k f).aon = s.aon := rfl
@[simp] theorem modStack_beds : (s.modStack k f).beds = s.beds := rfl
@[simp] theorem modStack_dies : (s.modStack k f).dies = s.dies := rfl
@[simp] theorem modStack_clusters : (s.modStack k f).clusters = s.clusters := rfl
@[simp] theorem modStack_cores : (s.modStack k f).cores = s.cores := rfl
@[simp] theorem modStack_hbm : (s.modStack k f).hbm = s.hbm.set k (f s.hbm[k]) := rfl
@[simp] theorem modStack_ports : (s.modStack k f).ports = s.ports := rfl
@[simp] theorem modStack_pools : (s.modStack k f).pools = s.pools := rfl
@[simp] theorem modStack_hosts : (s.modStack k f).hosts = s.hosts := rfl
@[simp] theorem modStack_ingests : (s.modStack k f).ingests = s.ingests := rfl
@[simp] theorem modStack_fifos : (s.modStack k f).fifos = s.fifos := rfl
@[simp] theorem modStack_txFlows : (s.modStack k f).txFlows = s.txFlows := rfl
@[simp] theorem modStack_rxFlows : (s.modStack k f).rxFlows = s.rxFlows := rfl
@[simp] theorem modStack_delivered : (s.modStack k f).delivered = s.delivered := rfl
@[simp] theorem modStack_posts : (s.modStack k f).posts = s.posts := rfl
@[simp] theorem modStack_arrivals : (s.modStack k f).arrivals = s.arrivals := rfl
@[simp] theorem modStack_held : (s.modStack k f).held = s.held := rfl
@[simp] theorem modStack_releases : (s.modStack k f).releases = s.releases := rfl
@[simp] theorem modStack_partials : (s.modStack k f).partials = s.partials := rfl
@[simp] theorem modStack_chunks : (s.modStack k f).chunks = s.chunks := rfl
@[simp] theorem modStack_moves : (s.modStack k f).moves = s.moves := rfl
@[simp] theorem modStack_incoming : (s.modStack k f).incoming = s.incoming := rfl
@[simp] theorem modStack_early : (s.modStack k f).early = s.early := rfl
@[simp] theorem modStack_relays : (s.modStack k f).relays = s.relays := rfl
@[simp] theorem modStack_nextRelay : (s.modStack k f).nextRelay = s.nextRelay := rfl
@[simp] theorem modStack_health : (s.modStack k f).health = s.health := rfl
@[simp] theorem modStack_agent : (s.modStack k f).agent = s.agent := rfl
@[simp] theorem modStack_objs : (s.modStack k f).objs = s.objs := rfl
@[simp] theorem modStack_rot : (s.modStack k f).rot = s.rot := rfl
@[simp] theorem modStack_job : (s.modStack k f).job = s.job := rfl
@[simp] theorem modStack_sent : (s.modStack k f).sent = s.sent := rfl
@[simp] theorem modStack_heldHost : (s.modStack k f).heldHost = s.heldHost := rfl
@[simp] theorem modStack_heldMgmt : (s.modStack k f).heldMgmt = s.heldMgmt := rfl
@[simp] theorem modStack_gone : (s.modStack k f).gone = s.gone := rfl
@[simp] theorem modStack_lastArb : (s.modStack k f).lastArb = s.lastArb := rfl
@[simp] theorem modStack_lastAccess : (s.modStack k f).lastAccess = s.lastAccess := rfl
@[simp] theorem modStack_phases : (s.modStack k f).phases = s.phases := rfl
@[simp] theorem modStack_phaseDue : (s.modStack k f).phaseDue = s.phaseDue := rfl
@[simp] theorem modStack_fabInForce : (s.modStack k f).fabInForce = s.fabInForce := rfl
@[simp] theorem modStack_free : (s.modStack k f).free = s.free := rfl
@[simp] theorem modStack_pending : (s.modStack k f).pending = s.pending := rfl
end modStack

section modPort
variable (s : State) (p : Fin 16) (f : Port → Port)
@[simp] theorem modPort_mem : (s.modPort p f).mem = s.mem := rfl
@[simp] theorem modPort_aon : (s.modPort p f).aon = s.aon := rfl
@[simp] theorem modPort_beds : (s.modPort p f).beds = s.beds := rfl
@[simp] theorem modPort_dies : (s.modPort p f).dies = s.dies := rfl
@[simp] theorem modPort_clusters : (s.modPort p f).clusters = s.clusters := rfl
@[simp] theorem modPort_cores : (s.modPort p f).cores = s.cores := rfl
@[simp] theorem modPort_hbm : (s.modPort p f).hbm = s.hbm := rfl
@[simp] theorem modPort_ports : (s.modPort p f).ports = s.ports.set p (f s.ports[p]) := rfl
@[simp] theorem modPort_pools : (s.modPort p f).pools = s.pools := rfl
@[simp] theorem modPort_hosts : (s.modPort p f).hosts = s.hosts := rfl
@[simp] theorem modPort_ingests : (s.modPort p f).ingests = s.ingests := rfl
@[simp] theorem modPort_fifos : (s.modPort p f).fifos = s.fifos := rfl
@[simp] theorem modPort_txFlows : (s.modPort p f).txFlows = s.txFlows := rfl
@[simp] theorem modPort_rxFlows : (s.modPort p f).rxFlows = s.rxFlows := rfl
@[simp] theorem modPort_delivered : (s.modPort p f).delivered = s.delivered := rfl
@[simp] theorem modPort_posts : (s.modPort p f).posts = s.posts := rfl
@[simp] theorem modPort_arrivals : (s.modPort p f).arrivals = s.arrivals := rfl
@[simp] theorem modPort_held : (s.modPort p f).held = s.held := rfl
@[simp] theorem modPort_releases : (s.modPort p f).releases = s.releases := rfl
@[simp] theorem modPort_partials : (s.modPort p f).partials = s.partials := rfl
@[simp] theorem modPort_chunks : (s.modPort p f).chunks = s.chunks := rfl
@[simp] theorem modPort_moves : (s.modPort p f).moves = s.moves := rfl
@[simp] theorem modPort_incoming : (s.modPort p f).incoming = s.incoming := rfl
@[simp] theorem modPort_early : (s.modPort p f).early = s.early := rfl
@[simp] theorem modPort_relays : (s.modPort p f).relays = s.relays := rfl
@[simp] theorem modPort_nextRelay : (s.modPort p f).nextRelay = s.nextRelay := rfl
@[simp] theorem modPort_health : (s.modPort p f).health = s.health := rfl
@[simp] theorem modPort_agent : (s.modPort p f).agent = s.agent := rfl
@[simp] theorem modPort_objs : (s.modPort p f).objs = s.objs := rfl
@[simp] theorem modPort_rot : (s.modPort p f).rot = s.rot := rfl
@[simp] theorem modPort_job : (s.modPort p f).job = s.job := rfl
@[simp] theorem modPort_sent : (s.modPort p f).sent = s.sent := rfl
@[simp] theorem modPort_heldHost : (s.modPort p f).heldHost = s.heldHost := rfl
@[simp] theorem modPort_heldMgmt : (s.modPort p f).heldMgmt = s.heldMgmt := rfl
@[simp] theorem modPort_gone : (s.modPort p f).gone = s.gone := rfl
@[simp] theorem modPort_lastArb : (s.modPort p f).lastArb = s.lastArb := rfl
@[simp] theorem modPort_lastAccess : (s.modPort p f).lastAccess = s.lastAccess := rfl
@[simp] theorem modPort_phases : (s.modPort p f).phases = s.phases := rfl
@[simp] theorem modPort_phaseDue : (s.modPort p f).phaseDue = s.phaseDue := rfl
@[simp] theorem modPort_fabInForce : (s.modPort p f).fabInForce = s.fabInForce := rfl
@[simp] theorem modPort_free : (s.modPort p f).free = s.free := rfl
@[simp] theorem modPort_pending : (s.modPort p f).pending = s.pending := rfl
end modPort

section modPool
variable (s : State) (l : Fin 2) (f : Pool → Pool)
@[simp] theorem modPool_mem : (s.modPool l f).mem = s.mem := rfl
@[simp] theorem modPool_aon : (s.modPool l f).aon = s.aon := rfl
@[simp] theorem modPool_beds : (s.modPool l f).beds = s.beds := rfl
@[simp] theorem modPool_dies : (s.modPool l f).dies = s.dies := rfl
@[simp] theorem modPool_clusters : (s.modPool l f).clusters = s.clusters := rfl
@[simp] theorem modPool_cores : (s.modPool l f).cores = s.cores := rfl
@[simp] theorem modPool_hbm : (s.modPool l f).hbm = s.hbm := rfl
@[simp] theorem modPool_ports : (s.modPool l f).ports = s.ports := rfl
@[simp] theorem modPool_pools : (s.modPool l f).pools = s.pools.set l (f s.pools[l]) := rfl
@[simp] theorem modPool_hosts : (s.modPool l f).hosts = s.hosts := rfl
@[simp] theorem modPool_ingests : (s.modPool l f).ingests = s.ingests := rfl
@[simp] theorem modPool_fifos : (s.modPool l f).fifos = s.fifos := rfl
@[simp] theorem modPool_txFlows : (s.modPool l f).txFlows = s.txFlows := rfl
@[simp] theorem modPool_rxFlows : (s.modPool l f).rxFlows = s.rxFlows := rfl
@[simp] theorem modPool_delivered : (s.modPool l f).delivered = s.delivered := rfl
@[simp] theorem modPool_posts : (s.modPool l f).posts = s.posts := rfl
@[simp] theorem modPool_arrivals : (s.modPool l f).arrivals = s.arrivals := rfl
@[simp] theorem modPool_held : (s.modPool l f).held = s.held := rfl
@[simp] theorem modPool_releases : (s.modPool l f).releases = s.releases := rfl
@[simp] theorem modPool_partials : (s.modPool l f).partials = s.partials := rfl
@[simp] theorem modPool_chunks : (s.modPool l f).chunks = s.chunks := rfl
@[simp] theorem modPool_moves : (s.modPool l f).moves = s.moves := rfl
@[simp] theorem modPool_incoming : (s.modPool l f).incoming = s.incoming := rfl
@[simp] theorem modPool_early : (s.modPool l f).early = s.early := rfl
@[simp] theorem modPool_relays : (s.modPool l f).relays = s.relays := rfl
@[simp] theorem modPool_nextRelay : (s.modPool l f).nextRelay = s.nextRelay := rfl
@[simp] theorem modPool_health : (s.modPool l f).health = s.health := rfl
@[simp] theorem modPool_agent : (s.modPool l f).agent = s.agent := rfl
@[simp] theorem modPool_objs : (s.modPool l f).objs = s.objs := rfl
@[simp] theorem modPool_rot : (s.modPool l f).rot = s.rot := rfl
@[simp] theorem modPool_job : (s.modPool l f).job = s.job := rfl
@[simp] theorem modPool_sent : (s.modPool l f).sent = s.sent := rfl
@[simp] theorem modPool_heldHost : (s.modPool l f).heldHost = s.heldHost := rfl
@[simp] theorem modPool_heldMgmt : (s.modPool l f).heldMgmt = s.heldMgmt := rfl
@[simp] theorem modPool_gone : (s.modPool l f).gone = s.gone := rfl
@[simp] theorem modPool_lastArb : (s.modPool l f).lastArb = s.lastArb := rfl
@[simp] theorem modPool_lastAccess : (s.modPool l f).lastAccess = s.lastAccess := rfl
@[simp] theorem modPool_phases : (s.modPool l f).phases = s.phases := rfl
@[simp] theorem modPool_phaseDue : (s.modPool l f).phaseDue = s.phaseDue := rfl
@[simp] theorem modPool_fabInForce : (s.modPool l f).fabInForce = s.fabInForce := rfl
@[simp] theorem modPool_free : (s.modPool l f).free = s.free := rfl
@[simp] theorem modPool_pending : (s.modPool l f).pending = s.pending := rfl
end modPool

section modHost
variable (s : State) (h : Fin 2) (f : HostPort → HostPort)
@[simp] theorem modHost_mem : (s.modHost h f).mem = s.mem := rfl
@[simp] theorem modHost_aon : (s.modHost h f).aon = s.aon := rfl
@[simp] theorem modHost_beds : (s.modHost h f).beds = s.beds := rfl
@[simp] theorem modHost_dies : (s.modHost h f).dies = s.dies := rfl
@[simp] theorem modHost_clusters : (s.modHost h f).clusters = s.clusters := rfl
@[simp] theorem modHost_cores : (s.modHost h f).cores = s.cores := rfl
@[simp] theorem modHost_hbm : (s.modHost h f).hbm = s.hbm := rfl
@[simp] theorem modHost_ports : (s.modHost h f).ports = s.ports := rfl
@[simp] theorem modHost_pools : (s.modHost h f).pools = s.pools := rfl
@[simp] theorem modHost_hosts : (s.modHost h f).hosts = s.hosts.set h (f s.hosts[h]) := rfl
@[simp] theorem modHost_ingests : (s.modHost h f).ingests = s.ingests := rfl
@[simp] theorem modHost_fifos : (s.modHost h f).fifos = s.fifos := rfl
@[simp] theorem modHost_txFlows : (s.modHost h f).txFlows = s.txFlows := rfl
@[simp] theorem modHost_rxFlows : (s.modHost h f).rxFlows = s.rxFlows := rfl
@[simp] theorem modHost_delivered : (s.modHost h f).delivered = s.delivered := rfl
@[simp] theorem modHost_posts : (s.modHost h f).posts = s.posts := rfl
@[simp] theorem modHost_arrivals : (s.modHost h f).arrivals = s.arrivals := rfl
@[simp] theorem modHost_held : (s.modHost h f).held = s.held := rfl
@[simp] theorem modHost_releases : (s.modHost h f).releases = s.releases := rfl
@[simp] theorem modHost_partials : (s.modHost h f).partials = s.partials := rfl
@[simp] theorem modHost_chunks : (s.modHost h f).chunks = s.chunks := rfl
@[simp] theorem modHost_moves : (s.modHost h f).moves = s.moves := rfl
@[simp] theorem modHost_incoming : (s.modHost h f).incoming = s.incoming := rfl
@[simp] theorem modHost_early : (s.modHost h f).early = s.early := rfl
@[simp] theorem modHost_relays : (s.modHost h f).relays = s.relays := rfl
@[simp] theorem modHost_nextRelay : (s.modHost h f).nextRelay = s.nextRelay := rfl
@[simp] theorem modHost_health : (s.modHost h f).health = s.health := rfl
@[simp] theorem modHost_agent : (s.modHost h f).agent = s.agent := rfl
@[simp] theorem modHost_objs : (s.modHost h f).objs = s.objs := rfl
@[simp] theorem modHost_rot : (s.modHost h f).rot = s.rot := rfl
@[simp] theorem modHost_job : (s.modHost h f).job = s.job := rfl
@[simp] theorem modHost_sent : (s.modHost h f).sent = s.sent := rfl
@[simp] theorem modHost_heldHost : (s.modHost h f).heldHost = s.heldHost := rfl
@[simp] theorem modHost_heldMgmt : (s.modHost h f).heldMgmt = s.heldMgmt := rfl
@[simp] theorem modHost_gone : (s.modHost h f).gone = s.gone := rfl
@[simp] theorem modHost_lastArb : (s.modHost h f).lastArb = s.lastArb := rfl
@[simp] theorem modHost_lastAccess : (s.modHost h f).lastAccess = s.lastAccess := rfl
@[simp] theorem modHost_phases : (s.modHost h f).phases = s.phases := rfl
@[simp] theorem modHost_phaseDue : (s.modHost h f).phaseDue = s.phaseDue := rfl
@[simp] theorem modHost_fabInForce : (s.modHost h f).fabInForce = s.fabInForce := rfl
@[simp] theorem modHost_free : (s.modHost h f).free = s.free := rfl
@[simp] theorem modHost_pending : (s.modHost h f).pending = s.pending := rfl
end modHost

section modIngest
variable (s : State) (i : Fin 2) (f : Ingest → Ingest)
@[simp] theorem modIngest_mem : (s.modIngest i f).mem = s.mem := rfl
@[simp] theorem modIngest_aon : (s.modIngest i f).aon = s.aon := rfl
@[simp] theorem modIngest_beds : (s.modIngest i f).beds = s.beds := rfl
@[simp] theorem modIngest_dies : (s.modIngest i f).dies = s.dies := rfl
@[simp] theorem modIngest_clusters : (s.modIngest i f).clusters = s.clusters := rfl
@[simp] theorem modIngest_cores : (s.modIngest i f).cores = s.cores := rfl
@[simp] theorem modIngest_hbm : (s.modIngest i f).hbm = s.hbm := rfl
@[simp] theorem modIngest_ports : (s.modIngest i f).ports = s.ports := rfl
@[simp] theorem modIngest_pools : (s.modIngest i f).pools = s.pools := rfl
@[simp] theorem modIngest_hosts : (s.modIngest i f).hosts = s.hosts := rfl
@[simp] theorem modIngest_ingests : (s.modIngest i f).ingests = s.ingests.set i (f s.ingests[i]) := rfl
@[simp] theorem modIngest_fifos : (s.modIngest i f).fifos = s.fifos := rfl
@[simp] theorem modIngest_txFlows : (s.modIngest i f).txFlows = s.txFlows := rfl
@[simp] theorem modIngest_rxFlows : (s.modIngest i f).rxFlows = s.rxFlows := rfl
@[simp] theorem modIngest_delivered : (s.modIngest i f).delivered = s.delivered := rfl
@[simp] theorem modIngest_posts : (s.modIngest i f).posts = s.posts := rfl
@[simp] theorem modIngest_arrivals : (s.modIngest i f).arrivals = s.arrivals := rfl
@[simp] theorem modIngest_held : (s.modIngest i f).held = s.held := rfl
@[simp] theorem modIngest_releases : (s.modIngest i f).releases = s.releases := rfl
@[simp] theorem modIngest_partials : (s.modIngest i f).partials = s.partials := rfl
@[simp] theorem modIngest_chunks : (s.modIngest i f).chunks = s.chunks := rfl
@[simp] theorem modIngest_moves : (s.modIngest i f).moves = s.moves := rfl
@[simp] theorem modIngest_incoming : (s.modIngest i f).incoming = s.incoming := rfl
@[simp] theorem modIngest_early : (s.modIngest i f).early = s.early := rfl
@[simp] theorem modIngest_relays : (s.modIngest i f).relays = s.relays := rfl
@[simp] theorem modIngest_nextRelay : (s.modIngest i f).nextRelay = s.nextRelay := rfl
@[simp] theorem modIngest_health : (s.modIngest i f).health = s.health := rfl
@[simp] theorem modIngest_agent : (s.modIngest i f).agent = s.agent := rfl
@[simp] theorem modIngest_objs : (s.modIngest i f).objs = s.objs := rfl
@[simp] theorem modIngest_rot : (s.modIngest i f).rot = s.rot := rfl
@[simp] theorem modIngest_job : (s.modIngest i f).job = s.job := rfl
@[simp] theorem modIngest_sent : (s.modIngest i f).sent = s.sent := rfl
@[simp] theorem modIngest_heldHost : (s.modIngest i f).heldHost = s.heldHost := rfl
@[simp] theorem modIngest_heldMgmt : (s.modIngest i f).heldMgmt = s.heldMgmt := rfl
@[simp] theorem modIngest_gone : (s.modIngest i f).gone = s.gone := rfl
@[simp] theorem modIngest_lastArb : (s.modIngest i f).lastArb = s.lastArb := rfl
@[simp] theorem modIngest_lastAccess : (s.modIngest i f).lastAccess = s.lastAccess := rfl
@[simp] theorem modIngest_phases : (s.modIngest i f).phases = s.phases := rfl
@[simp] theorem modIngest_phaseDue : (s.modIngest i f).phaseDue = s.phaseDue := rfl
@[simp] theorem modIngest_fabInForce : (s.modIngest i f).fabInForce = s.fabInForce := rfl
@[simp] theorem modIngest_free : (s.modIngest i f).free = s.free := rfl
@[simp] theorem modIngest_pending : (s.modIngest i f).pending = s.pending := rfl
end modIngest

section modBed
variable (s : State) (b : Fin 62) (f : Bed → Bed)
@[simp] theorem modBed_mem : (s.modBed b f).mem = s.mem := rfl
@[simp] theorem modBed_aon : (s.modBed b f).aon = s.aon := rfl
@[simp] theorem modBed_beds : (s.modBed b f).beds = s.beds.set b (f s.beds[b]) := rfl
@[simp] theorem modBed_dies : (s.modBed b f).dies = s.dies := rfl
@[simp] theorem modBed_clusters : (s.modBed b f).clusters = s.clusters := rfl
@[simp] theorem modBed_cores : (s.modBed b f).cores = s.cores := rfl
@[simp] theorem modBed_hbm : (s.modBed b f).hbm = s.hbm := rfl
@[simp] theorem modBed_ports : (s.modBed b f).ports = s.ports := rfl
@[simp] theorem modBed_pools : (s.modBed b f).pools = s.pools := rfl
@[simp] theorem modBed_hosts : (s.modBed b f).hosts = s.hosts := rfl
@[simp] theorem modBed_ingests : (s.modBed b f).ingests = s.ingests := rfl
@[simp] theorem modBed_fifos : (s.modBed b f).fifos = s.fifos := rfl
@[simp] theorem modBed_txFlows : (s.modBed b f).txFlows = s.txFlows := rfl
@[simp] theorem modBed_rxFlows : (s.modBed b f).rxFlows = s.rxFlows := rfl
@[simp] theorem modBed_delivered : (s.modBed b f).delivered = s.delivered := rfl
@[simp] theorem modBed_posts : (s.modBed b f).posts = s.posts := rfl
@[simp] theorem modBed_arrivals : (s.modBed b f).arrivals = s.arrivals := rfl
@[simp] theorem modBed_held : (s.modBed b f).held = s.held := rfl
@[simp] theorem modBed_releases : (s.modBed b f).releases = s.releases := rfl
@[simp] theorem modBed_partials : (s.modBed b f).partials = s.partials := rfl
@[simp] theorem modBed_chunks : (s.modBed b f).chunks = s.chunks := rfl
@[simp] theorem modBed_moves : (s.modBed b f).moves = s.moves := rfl
@[simp] theorem modBed_incoming : (s.modBed b f).incoming = s.incoming := rfl
@[simp] theorem modBed_early : (s.modBed b f).early = s.early := rfl
@[simp] theorem modBed_relays : (s.modBed b f).relays = s.relays := rfl
@[simp] theorem modBed_nextRelay : (s.modBed b f).nextRelay = s.nextRelay := rfl
@[simp] theorem modBed_health : (s.modBed b f).health = s.health := rfl
@[simp] theorem modBed_agent : (s.modBed b f).agent = s.agent := rfl
@[simp] theorem modBed_objs : (s.modBed b f).objs = s.objs := rfl
@[simp] theorem modBed_rot : (s.modBed b f).rot = s.rot := rfl
@[simp] theorem modBed_job : (s.modBed b f).job = s.job := rfl
@[simp] theorem modBed_sent : (s.modBed b f).sent = s.sent := rfl
@[simp] theorem modBed_heldHost : (s.modBed b f).heldHost = s.heldHost := rfl
@[simp] theorem modBed_heldMgmt : (s.modBed b f).heldMgmt = s.heldMgmt := rfl
@[simp] theorem modBed_gone : (s.modBed b f).gone = s.gone := rfl
@[simp] theorem modBed_lastArb : (s.modBed b f).lastArb = s.lastArb := rfl
@[simp] theorem modBed_lastAccess : (s.modBed b f).lastAccess = s.lastAccess := rfl
@[simp] theorem modBed_phases : (s.modBed b f).phases = s.phases := rfl
@[simp] theorem modBed_phaseDue : (s.modBed b f).phaseDue = s.phaseDue := rfl
@[simp] theorem modBed_fabInForce : (s.modBed b f).fabInForce = s.fabInForce := rfl
@[simp] theorem modBed_free : (s.modBed b f).free = s.free := rfl
@[simp] theorem modBed_pending : (s.modBed b f).pending = s.pending := rfl
end modBed

section modHealth
variable (s : State) (f : Health → Health)
@[simp] theorem modHealth_mem : (s.modHealth f).mem = s.mem := rfl
@[simp] theorem modHealth_aon : (s.modHealth f).aon = s.aon := rfl
@[simp] theorem modHealth_beds : (s.modHealth f).beds = s.beds := rfl
@[simp] theorem modHealth_dies : (s.modHealth f).dies = s.dies := rfl
@[simp] theorem modHealth_clusters : (s.modHealth f).clusters = s.clusters := rfl
@[simp] theorem modHealth_cores : (s.modHealth f).cores = s.cores := rfl
@[simp] theorem modHealth_hbm : (s.modHealth f).hbm = s.hbm := rfl
@[simp] theorem modHealth_ports : (s.modHealth f).ports = s.ports := rfl
@[simp] theorem modHealth_pools : (s.modHealth f).pools = s.pools := rfl
@[simp] theorem modHealth_hosts : (s.modHealth f).hosts = s.hosts := rfl
@[simp] theorem modHealth_ingests : (s.modHealth f).ingests = s.ingests := rfl
@[simp] theorem modHealth_fifos : (s.modHealth f).fifos = s.fifos := rfl
@[simp] theorem modHealth_txFlows : (s.modHealth f).txFlows = s.txFlows := rfl
@[simp] theorem modHealth_rxFlows : (s.modHealth f).rxFlows = s.rxFlows := rfl
@[simp] theorem modHealth_delivered : (s.modHealth f).delivered = s.delivered := rfl
@[simp] theorem modHealth_posts : (s.modHealth f).posts = s.posts := rfl
@[simp] theorem modHealth_arrivals : (s.modHealth f).arrivals = s.arrivals := rfl
@[simp] theorem modHealth_held : (s.modHealth f).held = s.held := rfl
@[simp] theorem modHealth_releases : (s.modHealth f).releases = s.releases := rfl
@[simp] theorem modHealth_partials : (s.modHealth f).partials = s.partials := rfl
@[simp] theorem modHealth_chunks : (s.modHealth f).chunks = s.chunks := rfl
@[simp] theorem modHealth_moves : (s.modHealth f).moves = s.moves := rfl
@[simp] theorem modHealth_incoming : (s.modHealth f).incoming = s.incoming := rfl
@[simp] theorem modHealth_early : (s.modHealth f).early = s.early := rfl
@[simp] theorem modHealth_relays : (s.modHealth f).relays = s.relays := rfl
@[simp] theorem modHealth_nextRelay : (s.modHealth f).nextRelay = s.nextRelay := rfl
@[simp] theorem modHealth_health : (s.modHealth f).health = f s.health := rfl
@[simp] theorem modHealth_agent : (s.modHealth f).agent = s.agent := rfl
@[simp] theorem modHealth_objs : (s.modHealth f).objs = s.objs := rfl
@[simp] theorem modHealth_rot : (s.modHealth f).rot = s.rot := rfl
@[simp] theorem modHealth_job : (s.modHealth f).job = s.job := rfl
@[simp] theorem modHealth_sent : (s.modHealth f).sent = s.sent := rfl
@[simp] theorem modHealth_heldHost : (s.modHealth f).heldHost = s.heldHost := rfl
@[simp] theorem modHealth_heldMgmt : (s.modHealth f).heldMgmt = s.heldMgmt := rfl
@[simp] theorem modHealth_gone : (s.modHealth f).gone = s.gone := rfl
@[simp] theorem modHealth_lastArb : (s.modHealth f).lastArb = s.lastArb := rfl
@[simp] theorem modHealth_lastAccess : (s.modHealth f).lastAccess = s.lastAccess := rfl
@[simp] theorem modHealth_phases : (s.modHealth f).phases = s.phases := rfl
@[simp] theorem modHealth_phaseDue : (s.modHealth f).phaseDue = s.phaseDue := rfl
@[simp] theorem modHealth_fabInForce : (s.modHealth f).fabInForce = s.fabInForce := rfl
@[simp] theorem modHealth_free : (s.modHealth f).free = s.free := rfl
@[simp] theorem modHealth_pending : (s.modHealth f).pending = s.pending := rfl
end modHealth

section modAon
variable (s : State) (f : Aon → Aon)
@[simp] theorem modAon_mem : (s.modAon f).mem = s.mem := rfl
@[simp] theorem modAon_aon : (s.modAon f).aon = f s.aon := rfl
@[simp] theorem modAon_beds : (s.modAon f).beds = s.beds := rfl
@[simp] theorem modAon_dies : (s.modAon f).dies = s.dies := rfl
@[simp] theorem modAon_clusters : (s.modAon f).clusters = s.clusters := rfl
@[simp] theorem modAon_cores : (s.modAon f).cores = s.cores := rfl
@[simp] theorem modAon_hbm : (s.modAon f).hbm = s.hbm := rfl
@[simp] theorem modAon_ports : (s.modAon f).ports = s.ports := rfl
@[simp] theorem modAon_pools : (s.modAon f).pools = s.pools := rfl
@[simp] theorem modAon_hosts : (s.modAon f).hosts = s.hosts := rfl
@[simp] theorem modAon_ingests : (s.modAon f).ingests = s.ingests := rfl
@[simp] theorem modAon_fifos : (s.modAon f).fifos = s.fifos := rfl
@[simp] theorem modAon_txFlows : (s.modAon f).txFlows = s.txFlows := rfl
@[simp] theorem modAon_rxFlows : (s.modAon f).rxFlows = s.rxFlows := rfl
@[simp] theorem modAon_delivered : (s.modAon f).delivered = s.delivered := rfl
@[simp] theorem modAon_posts : (s.modAon f).posts = s.posts := rfl
@[simp] theorem modAon_arrivals : (s.modAon f).arrivals = s.arrivals := rfl
@[simp] theorem modAon_held : (s.modAon f).held = s.held := rfl
@[simp] theorem modAon_releases : (s.modAon f).releases = s.releases := rfl
@[simp] theorem modAon_partials : (s.modAon f).partials = s.partials := rfl
@[simp] theorem modAon_chunks : (s.modAon f).chunks = s.chunks := rfl
@[simp] theorem modAon_moves : (s.modAon f).moves = s.moves := rfl
@[simp] theorem modAon_incoming : (s.modAon f).incoming = s.incoming := rfl
@[simp] theorem modAon_early : (s.modAon f).early = s.early := rfl
@[simp] theorem modAon_relays : (s.modAon f).relays = s.relays := rfl
@[simp] theorem modAon_nextRelay : (s.modAon f).nextRelay = s.nextRelay := rfl
@[simp] theorem modAon_health : (s.modAon f).health = s.health := rfl
@[simp] theorem modAon_agent : (s.modAon f).agent = s.agent := rfl
@[simp] theorem modAon_objs : (s.modAon f).objs = s.objs := rfl
@[simp] theorem modAon_rot : (s.modAon f).rot = s.rot := rfl
@[simp] theorem modAon_job : (s.modAon f).job = s.job := rfl
@[simp] theorem modAon_sent : (s.modAon f).sent = s.sent := rfl
@[simp] theorem modAon_heldHost : (s.modAon f).heldHost = s.heldHost := rfl
@[simp] theorem modAon_heldMgmt : (s.modAon f).heldMgmt = s.heldMgmt := rfl
@[simp] theorem modAon_gone : (s.modAon f).gone = s.gone := rfl
@[simp] theorem modAon_lastArb : (s.modAon f).lastArb = s.lastArb := rfl
@[simp] theorem modAon_lastAccess : (s.modAon f).lastAccess = s.lastAccess := rfl
@[simp] theorem modAon_phases : (s.modAon f).phases = s.phases := rfl
@[simp] theorem modAon_phaseDue : (s.modAon f).phaseDue = s.phaseDue := rfl
@[simp] theorem modAon_fabInForce : (s.modAon f).fabInForce = s.fabInForce := rfl
@[simp] theorem modAon_free : (s.modAon f).free = s.free := rfl
@[simp] theorem modAon_pending : (s.modAon f).pending = s.pending := rfl
end modAon

section modAgent
variable (s : State) (f : Agent → Agent)
@[simp] theorem modAgent_mem : (s.modAgent f).mem = s.mem := rfl
@[simp] theorem modAgent_aon : (s.modAgent f).aon = s.aon := rfl
@[simp] theorem modAgent_beds : (s.modAgent f).beds = s.beds := rfl
@[simp] theorem modAgent_dies : (s.modAgent f).dies = s.dies := rfl
@[simp] theorem modAgent_clusters : (s.modAgent f).clusters = s.clusters := rfl
@[simp] theorem modAgent_cores : (s.modAgent f).cores = s.cores := rfl
@[simp] theorem modAgent_hbm : (s.modAgent f).hbm = s.hbm := rfl
@[simp] theorem modAgent_ports : (s.modAgent f).ports = s.ports := rfl
@[simp] theorem modAgent_pools : (s.modAgent f).pools = s.pools := rfl
@[simp] theorem modAgent_hosts : (s.modAgent f).hosts = s.hosts := rfl
@[simp] theorem modAgent_ingests : (s.modAgent f).ingests = s.ingests := rfl
@[simp] theorem modAgent_fifos : (s.modAgent f).fifos = s.fifos := rfl
@[simp] theorem modAgent_txFlows : (s.modAgent f).txFlows = s.txFlows := rfl
@[simp] theorem modAgent_rxFlows : (s.modAgent f).rxFlows = s.rxFlows := rfl
@[simp] theorem modAgent_delivered : (s.modAgent f).delivered = s.delivered := rfl
@[simp] theorem modAgent_posts : (s.modAgent f).posts = s.posts := rfl
@[simp] theorem modAgent_arrivals : (s.modAgent f).arrivals = s.arrivals := rfl
@[simp] theorem modAgent_held : (s.modAgent f).held = s.held := rfl
@[simp] theorem modAgent_releases : (s.modAgent f).releases = s.releases := rfl
@[simp] theorem modAgent_partials : (s.modAgent f).partials = s.partials := rfl
@[simp] theorem modAgent_chunks : (s.modAgent f).chunks = s.chunks := rfl
@[simp] theorem modAgent_moves : (s.modAgent f).moves = s.moves := rfl
@[simp] theorem modAgent_incoming : (s.modAgent f).incoming = s.incoming := rfl
@[simp] theorem modAgent_early : (s.modAgent f).early = s.early := rfl
@[simp] theorem modAgent_relays : (s.modAgent f).relays = s.relays := rfl
@[simp] theorem modAgent_nextRelay : (s.modAgent f).nextRelay = s.nextRelay := rfl
@[simp] theorem modAgent_health : (s.modAgent f).health = s.health := rfl
@[simp] theorem modAgent_agent : (s.modAgent f).agent = f s.agent := rfl
@[simp] theorem modAgent_objs : (s.modAgent f).objs = s.objs := rfl
@[simp] theorem modAgent_rot : (s.modAgent f).rot = s.rot := rfl
@[simp] theorem modAgent_job : (s.modAgent f).job = s.job := rfl
@[simp] theorem modAgent_sent : (s.modAgent f).sent = s.sent := rfl
@[simp] theorem modAgent_heldHost : (s.modAgent f).heldHost = s.heldHost := rfl
@[simp] theorem modAgent_heldMgmt : (s.modAgent f).heldMgmt = s.heldMgmt := rfl
@[simp] theorem modAgent_gone : (s.modAgent f).gone = s.gone := rfl
@[simp] theorem modAgent_lastArb : (s.modAgent f).lastArb = s.lastArb := rfl
@[simp] theorem modAgent_lastAccess : (s.modAgent f).lastAccess = s.lastAccess := rfl
@[simp] theorem modAgent_phases : (s.modAgent f).phases = s.phases := rfl
@[simp] theorem modAgent_phaseDue : (s.modAgent f).phaseDue = s.phaseDue := rfl
@[simp] theorem modAgent_fabInForce : (s.modAgent f).fabInForce = s.fabInForce := rfl
@[simp] theorem modAgent_free : (s.modAgent f).free = s.free := rfl
@[simp] theorem modAgent_pending : (s.modAgent f).pending = s.pending := rfl
end modAgent

section modRot
variable (s : State) (f : Rot → Rot)
@[simp] theorem modRot_mem : (s.modRot f).mem = s.mem := rfl
@[simp] theorem modRot_aon : (s.modRot f).aon = s.aon := rfl
@[simp] theorem modRot_beds : (s.modRot f).beds = s.beds := rfl
@[simp] theorem modRot_dies : (s.modRot f).dies = s.dies := rfl
@[simp] theorem modRot_clusters : (s.modRot f).clusters = s.clusters := rfl
@[simp] theorem modRot_cores : (s.modRot f).cores = s.cores := rfl
@[simp] theorem modRot_hbm : (s.modRot f).hbm = s.hbm := rfl
@[simp] theorem modRot_ports : (s.modRot f).ports = s.ports := rfl
@[simp] theorem modRot_pools : (s.modRot f).pools = s.pools := rfl
@[simp] theorem modRot_hosts : (s.modRot f).hosts = s.hosts := rfl
@[simp] theorem modRot_ingests : (s.modRot f).ingests = s.ingests := rfl
@[simp] theorem modRot_fifos : (s.modRot f).fifos = s.fifos := rfl
@[simp] theorem modRot_txFlows : (s.modRot f).txFlows = s.txFlows := rfl
@[simp] theorem modRot_rxFlows : (s.modRot f).rxFlows = s.rxFlows := rfl
@[simp] theorem modRot_delivered : (s.modRot f).delivered = s.delivered := rfl
@[simp] theorem modRot_posts : (s.modRot f).posts = s.posts := rfl
@[simp] theorem modRot_arrivals : (s.modRot f).arrivals = s.arrivals := rfl
@[simp] theorem modRot_held : (s.modRot f).held = s.held := rfl
@[simp] theorem modRot_releases : (s.modRot f).releases = s.releases := rfl
@[simp] theorem modRot_partials : (s.modRot f).partials = s.partials := rfl
@[simp] theorem modRot_chunks : (s.modRot f).chunks = s.chunks := rfl
@[simp] theorem modRot_moves : (s.modRot f).moves = s.moves := rfl
@[simp] theorem modRot_incoming : (s.modRot f).incoming = s.incoming := rfl
@[simp] theorem modRot_early : (s.modRot f).early = s.early := rfl
@[simp] theorem modRot_relays : (s.modRot f).relays = s.relays := rfl
@[simp] theorem modRot_nextRelay : (s.modRot f).nextRelay = s.nextRelay := rfl
@[simp] theorem modRot_health : (s.modRot f).health = s.health := rfl
@[simp] theorem modRot_agent : (s.modRot f).agent = s.agent := rfl
@[simp] theorem modRot_objs : (s.modRot f).objs = s.objs := rfl
@[simp] theorem modRot_rot : (s.modRot f).rot = f s.rot := rfl
@[simp] theorem modRot_job : (s.modRot f).job = s.job := rfl
@[simp] theorem modRot_sent : (s.modRot f).sent = s.sent := rfl
@[simp] theorem modRot_heldHost : (s.modRot f).heldHost = s.heldHost := rfl
@[simp] theorem modRot_heldMgmt : (s.modRot f).heldMgmt = s.heldMgmt := rfl
@[simp] theorem modRot_gone : (s.modRot f).gone = s.gone := rfl
@[simp] theorem modRot_lastArb : (s.modRot f).lastArb = s.lastArb := rfl
@[simp] theorem modRot_lastAccess : (s.modRot f).lastAccess = s.lastAccess := rfl
@[simp] theorem modRot_phases : (s.modRot f).phases = s.phases := rfl
@[simp] theorem modRot_phaseDue : (s.modRot f).phaseDue = s.phaseDue := rfl
@[simp] theorem modRot_fabInForce : (s.modRot f).fabInForce = s.fabInForce := rfl
@[simp] theorem modRot_free : (s.modRot f).free = s.free := rfl
@[simp] theorem modRot_pending : (s.modRot f).pending = s.pending := rfl
end modRot

section modJob
variable (s : State) (f : Job → Job)
@[simp] theorem modJob_mem : (s.modJob f).mem = s.mem := rfl
@[simp] theorem modJob_aon : (s.modJob f).aon = s.aon := rfl
@[simp] theorem modJob_beds : (s.modJob f).beds = s.beds := rfl
@[simp] theorem modJob_dies : (s.modJob f).dies = s.dies := rfl
@[simp] theorem modJob_clusters : (s.modJob f).clusters = s.clusters := rfl
@[simp] theorem modJob_cores : (s.modJob f).cores = s.cores := rfl
@[simp] theorem modJob_hbm : (s.modJob f).hbm = s.hbm := rfl
@[simp] theorem modJob_ports : (s.modJob f).ports = s.ports := rfl
@[simp] theorem modJob_pools : (s.modJob f).pools = s.pools := rfl
@[simp] theorem modJob_hosts : (s.modJob f).hosts = s.hosts := rfl
@[simp] theorem modJob_ingests : (s.modJob f).ingests = s.ingests := rfl
@[simp] theorem modJob_fifos : (s.modJob f).fifos = s.fifos := rfl
@[simp] theorem modJob_txFlows : (s.modJob f).txFlows = s.txFlows := rfl
@[simp] theorem modJob_rxFlows : (s.modJob f).rxFlows = s.rxFlows := rfl
@[simp] theorem modJob_delivered : (s.modJob f).delivered = s.delivered := rfl
@[simp] theorem modJob_posts : (s.modJob f).posts = s.posts := rfl
@[simp] theorem modJob_arrivals : (s.modJob f).arrivals = s.arrivals := rfl
@[simp] theorem modJob_held : (s.modJob f).held = s.held := rfl
@[simp] theorem modJob_releases : (s.modJob f).releases = s.releases := rfl
@[simp] theorem modJob_partials : (s.modJob f).partials = s.partials := rfl
@[simp] theorem modJob_chunks : (s.modJob f).chunks = s.chunks := rfl
@[simp] theorem modJob_moves : (s.modJob f).moves = s.moves := rfl
@[simp] theorem modJob_incoming : (s.modJob f).incoming = s.incoming := rfl
@[simp] theorem modJob_early : (s.modJob f).early = s.early := rfl
@[simp] theorem modJob_relays : (s.modJob f).relays = s.relays := rfl
@[simp] theorem modJob_nextRelay : (s.modJob f).nextRelay = s.nextRelay := rfl
@[simp] theorem modJob_health : (s.modJob f).health = s.health := rfl
@[simp] theorem modJob_agent : (s.modJob f).agent = s.agent := rfl
@[simp] theorem modJob_objs : (s.modJob f).objs = s.objs := rfl
@[simp] theorem modJob_rot : (s.modJob f).rot = s.rot := rfl
@[simp] theorem modJob_job : (s.modJob f).job = f s.job := rfl
@[simp] theorem modJob_sent : (s.modJob f).sent = s.sent := rfl
@[simp] theorem modJob_heldHost : (s.modJob f).heldHost = s.heldHost := rfl
@[simp] theorem modJob_heldMgmt : (s.modJob f).heldMgmt = s.heldMgmt := rfl
@[simp] theorem modJob_gone : (s.modJob f).gone = s.gone := rfl
@[simp] theorem modJob_lastArb : (s.modJob f).lastArb = s.lastArb := rfl
@[simp] theorem modJob_lastAccess : (s.modJob f).lastAccess = s.lastAccess := rfl
@[simp] theorem modJob_phases : (s.modJob f).phases = s.phases := rfl
@[simp] theorem modJob_phaseDue : (s.modJob f).phaseDue = s.phaseDue := rfl
@[simp] theorem modJob_fabInForce : (s.modJob f).fabInForce = s.fabInForce := rfl
@[simp] theorem modJob_free : (s.modJob f).free = s.free := rfl
@[simp] theorem modJob_pending : (s.modJob f).pending = s.pending := rfl
end modJob

section modObjs
variable (s : State) (f : Objects → Objects)
@[simp] theorem modObjs_mem : (s.modObjs f).mem = s.mem := rfl
@[simp] theorem modObjs_aon : (s.modObjs f).aon = s.aon := rfl
@[simp] theorem modObjs_beds : (s.modObjs f).beds = s.beds := rfl
@[simp] theorem modObjs_dies : (s.modObjs f).dies = s.dies := rfl
@[simp] theorem modObjs_clusters : (s.modObjs f).clusters = s.clusters := rfl
@[simp] theorem modObjs_cores : (s.modObjs f).cores = s.cores := rfl
@[simp] theorem modObjs_hbm : (s.modObjs f).hbm = s.hbm := rfl
@[simp] theorem modObjs_ports : (s.modObjs f).ports = s.ports := rfl
@[simp] theorem modObjs_pools : (s.modObjs f).pools = s.pools := rfl
@[simp] theorem modObjs_hosts : (s.modObjs f).hosts = s.hosts := rfl
@[simp] theorem modObjs_ingests : (s.modObjs f).ingests = s.ingests := rfl
@[simp] theorem modObjs_fifos : (s.modObjs f).fifos = s.fifos := rfl
@[simp] theorem modObjs_txFlows : (s.modObjs f).txFlows = s.txFlows := rfl
@[simp] theorem modObjs_rxFlows : (s.modObjs f).rxFlows = s.rxFlows := rfl
@[simp] theorem modObjs_delivered : (s.modObjs f).delivered = s.delivered := rfl
@[simp] theorem modObjs_posts : (s.modObjs f).posts = s.posts := rfl
@[simp] theorem modObjs_arrivals : (s.modObjs f).arrivals = s.arrivals := rfl
@[simp] theorem modObjs_held : (s.modObjs f).held = s.held := rfl
@[simp] theorem modObjs_releases : (s.modObjs f).releases = s.releases := rfl
@[simp] theorem modObjs_partials : (s.modObjs f).partials = s.partials := rfl
@[simp] theorem modObjs_chunks : (s.modObjs f).chunks = s.chunks := rfl
@[simp] theorem modObjs_moves : (s.modObjs f).moves = s.moves := rfl
@[simp] theorem modObjs_incoming : (s.modObjs f).incoming = s.incoming := rfl
@[simp] theorem modObjs_early : (s.modObjs f).early = s.early := rfl
@[simp] theorem modObjs_relays : (s.modObjs f).relays = s.relays := rfl
@[simp] theorem modObjs_nextRelay : (s.modObjs f).nextRelay = s.nextRelay := rfl
@[simp] theorem modObjs_health : (s.modObjs f).health = s.health := rfl
@[simp] theorem modObjs_agent : (s.modObjs f).agent = s.agent := rfl
@[simp] theorem modObjs_objs : (s.modObjs f).objs = f s.objs := rfl
@[simp] theorem modObjs_rot : (s.modObjs f).rot = s.rot := rfl
@[simp] theorem modObjs_job : (s.modObjs f).job = s.job := rfl
@[simp] theorem modObjs_sent : (s.modObjs f).sent = s.sent := rfl
@[simp] theorem modObjs_heldHost : (s.modObjs f).heldHost = s.heldHost := rfl
@[simp] theorem modObjs_heldMgmt : (s.modObjs f).heldMgmt = s.heldMgmt := rfl
@[simp] theorem modObjs_gone : (s.modObjs f).gone = s.gone := rfl
@[simp] theorem modObjs_lastArb : (s.modObjs f).lastArb = s.lastArb := rfl
@[simp] theorem modObjs_lastAccess : (s.modObjs f).lastAccess = s.lastAccess := rfl
@[simp] theorem modObjs_phases : (s.modObjs f).phases = s.phases := rfl
@[simp] theorem modObjs_phaseDue : (s.modObjs f).phaseDue = s.phaseDue := rfl
@[simp] theorem modObjs_fabInForce : (s.modObjs f).fabInForce = s.fabInForce := rfl
@[simp] theorem modObjs_free : (s.modObjs f).free = s.free := rfl
@[simp] theorem modObjs_pending : (s.modObjs f).pending = s.pending := rfl
end modObjs

section setMem
variable (s : State) (m : Memory)
@[simp] theorem setMem_mem : (s.setMem m).mem = m := rfl
@[simp] theorem setMem_aon : (s.setMem m).aon = s.aon := rfl
@[simp] theorem setMem_beds : (s.setMem m).beds = s.beds := rfl
@[simp] theorem setMem_dies : (s.setMem m).dies = s.dies := rfl
@[simp] theorem setMem_clusters : (s.setMem m).clusters = s.clusters := rfl
@[simp] theorem setMem_cores : (s.setMem m).cores = s.cores := rfl
@[simp] theorem setMem_hbm : (s.setMem m).hbm = s.hbm := rfl
@[simp] theorem setMem_ports : (s.setMem m).ports = s.ports := rfl
@[simp] theorem setMem_pools : (s.setMem m).pools = s.pools := rfl
@[simp] theorem setMem_hosts : (s.setMem m).hosts = s.hosts := rfl
@[simp] theorem setMem_ingests : (s.setMem m).ingests = s.ingests := rfl
@[simp] theorem setMem_fifos : (s.setMem m).fifos = s.fifos := rfl
@[simp] theorem setMem_txFlows : (s.setMem m).txFlows = s.txFlows := rfl
@[simp] theorem setMem_rxFlows : (s.setMem m).rxFlows = s.rxFlows := rfl
@[simp] theorem setMem_delivered : (s.setMem m).delivered = s.delivered := rfl
@[simp] theorem setMem_posts : (s.setMem m).posts = s.posts := rfl
@[simp] theorem setMem_arrivals : (s.setMem m).arrivals = s.arrivals := rfl
@[simp] theorem setMem_held : (s.setMem m).held = s.held := rfl
@[simp] theorem setMem_releases : (s.setMem m).releases = s.releases := rfl
@[simp] theorem setMem_partials : (s.setMem m).partials = s.partials := rfl
@[simp] theorem setMem_chunks : (s.setMem m).chunks = s.chunks := rfl
@[simp] theorem setMem_moves : (s.setMem m).moves = s.moves := rfl
@[simp] theorem setMem_incoming : (s.setMem m).incoming = s.incoming := rfl
@[simp] theorem setMem_early : (s.setMem m).early = s.early := rfl
@[simp] theorem setMem_relays : (s.setMem m).relays = s.relays := rfl
@[simp] theorem setMem_nextRelay : (s.setMem m).nextRelay = s.nextRelay := rfl
@[simp] theorem setMem_health : (s.setMem m).health = s.health := rfl
@[simp] theorem setMem_agent : (s.setMem m).agent = s.agent := rfl
@[simp] theorem setMem_objs : (s.setMem m).objs = s.objs := rfl
@[simp] theorem setMem_rot : (s.setMem m).rot = s.rot := rfl
@[simp] theorem setMem_job : (s.setMem m).job = s.job := rfl
@[simp] theorem setMem_sent : (s.setMem m).sent = s.sent := rfl
@[simp] theorem setMem_heldHost : (s.setMem m).heldHost = s.heldHost := rfl
@[simp] theorem setMem_heldMgmt : (s.setMem m).heldMgmt = s.heldMgmt := rfl
@[simp] theorem setMem_gone : (s.setMem m).gone = s.gone := rfl
@[simp] theorem setMem_lastArb : (s.setMem m).lastArb = s.lastArb := rfl
@[simp] theorem setMem_lastAccess : (s.setMem m).lastAccess = s.lastAccess := rfl
@[simp] theorem setMem_phases : (s.setMem m).phases = s.phases := rfl
@[simp] theorem setMem_phaseDue : (s.setMem m).phaseDue = s.phaseDue := rfl
@[simp] theorem setMem_fabInForce : (s.setMem m).fabInForce = s.fabInForce := rfl
@[simp] theorem setMem_free : (s.setMem m).free = s.free := rfl
@[simp] theorem setMem_pending : (s.setMem m).pending = s.pending := rfl
end setMem

end Sys2Proof.Machine
end

