-- ==== Sys2Proof/Laws/Access.lean ====
section
/-! SUPPORT. Laws/Access.lean: what the access rules look at, so that a change of anything else leaves every access as it was. -/

namespace Sys2Proof.Machine

/-- Two states that agree on everything that the access rules of R24 to R37 look at. -/
structure SameAccess (s t : State) : Prop where
  manifest : t.job.inForce = s.job.inForce
  fences : t.health.fences = s.health.fences
  beds : t.beds = s.beds
  hbm : t.hbm = s.hbm
  scratch : ∀ g : Fin 32, t.clusters[g].scratchKib = s.clusters[g].scratchKib
  slots : ∀ n : Fin 256, t.cores[n].vec.ftqSlots = s.cores[n].vec.ftqSlots

theorem SameAccess.fenced {s t : State} (h : SameAccess s t) (u : BitVec 16) : t.fenced u = s.fenced u := by
  simp only [State.fenced, Health.listed, Health.reached, h.fences]

theorem SameAccess.bedOn {s t : State} (h : SameAccess s t) (b : Fin 62) : t.bedOn b = s.bedOn b := by
  simp only [State.bedOn, h.beds]

theorem SameAccess.closedHit {s t : State} (h : SameAccess s t) (who : Who) (a n : Nat) :
    t.closedHit who a n = s.closedHit who a n := by
  simp only [State.closedHit, State.closedRegions, h.manifest]

theorem SameAccess.parted {s t : State} (h : SameAccess s t) : t.health.parted = s.health.parted := by
  funext who d
  simp only [Health.parted, Health.listed, h.fences]

theorem SameAccess.partedReg {s t : State} (h : SameAccess s t) : t.health.partedReg = s.health.partedReg := by
  funext who u
  cases u <;> simp only [Health.partedReg, h.parted]

theorem SameAccess.granuleFail {s t : State} (h : SameAccess s t) (who : Who) (a n gr : Nat) :
    t.granuleFail who a n gr = s.granuleFail who a n gr := by
  simp only [State.granuleFail, State.stackFenced, h.fenced, State.reqFenced, h.hbm, h.bedOn, h.parted]
  congr

theorem SameAccess.clusterFail {s t : State} (h : SameAccess s t) (who : Who) (g : Fin 32) (a : Nat) :
    t.clusterFail who g a = s.clusterFail who g a := by
  simp only [State.clusterFail, State.clusterFenced, h.fenced, State.clusterOn, h.bedOn, h.parted]
  congr

/-- The access rules answer the same. -/
theorem SameAccess.accessFail {s t : State} (h : SameAccess s t) (who : Who) (a n : Nat) :
    t.accessFail who a n = s.accessFail who a n := by
  have hg : (t.granuleFail who a n) = (s.granuleFail who a n) := funext (h.granuleFail who a n)
  have hf : t.fenced = s.fenced := funext h.fenced
  simp only [State.accessFail, State.hbmFail, h.closedHit, hg, h.clusterFail, h.scratch, h.slots, hf, h.bedOn, h.partedReg]

theorem SameAccess.poisonHit {s t : State} (h : SameAccess s t) (a n : Nat) : t.poisonHit a n = s.poisonHit a n := by
  simp only [State.poisonHit, h.hbm]

theorem SameAccess.mergeFail {s t : State} (h : SameAccess s t) (a n : Nat) : t.mergeFail a n = s.mergeFail a n := by
  simp only [State.mergeFail, State.partPoisoned, h.hbm]

/-- A checked read answers the same where memory is the same. -/
theorem SameAccess.readChecked {s t : State} (h : SameAccess s t) (hm : t.mem = s.mem) (who : Who) (a n : Nat) :
    t.readChecked who a n = s.readChecked who a n := by
  simp only [State.readChecked, State.readFail, h.accessFail, h.poisonHit, State.readMem, hm]

/-- A change of a cluster that keeps its partition. -/
theorem sameAccess_modCluster (s : State) (g : Fin 32) (f : Cluster → Cluster)
    (hf : (f s.clusters[g]).scratchKib = s.clusters[g].scratchKib) : SameAccess s (s.modCluster g f) where
  manifest := rfl
  fences := rfl
  beds := rfl
  hbm := rfl
  scratch := by
    intro x
    by_cases hx : x = g
    · subst hx
      simpa [State.modCluster] using hf
    · have : (g : Nat) ≠ x := fun e => hx (Fin.ext e.symm)
      simp [State.modCluster, Vector.getElem_set_ne, this]
  slots := fun _ => rfl

theorem SameAccess.refl (s : State) : SameAccess s s := ⟨rfl, rfl, rfl, rfl, fun _ => rfl, fun _ => rfl⟩

theorem SameAccess.trans {s t u : State} (h : SameAccess s t) (k : SameAccess t u) : SameAccess s u :=
  ⟨k.manifest.trans h.manifest, k.fences.trans h.fences, k.beds.trans h.beds, k.hbm.trans h.hbm,
   fun g => (k.scratch g).trans (h.scratch g), fun n => (k.slots n).trans (h.slots n)⟩

end Sys2Proof.Machine
end

