-- ==== Sys2Proof/Laws/Events.lean ====
section
/-! SUPPORT. Laws/Events.lean: raising an event changes nothing but the health record. -/

namespace Sys2Proof.Machine

/-- Everything raising an event can do: it is lost, or it changes the health record. -/
theorem raiseEvent_cases (s : State) (e : Event) :
    s.raiseEvent e = s ∨ ∃ h, s.raiseEvent e = { s with health := h } := by
  unfold State.raiseEvent
  split
  · exact .inr ⟨_, rfl⟩
  · split
    · exact .inr ⟨_, rfl⟩
    · exact .inl rfl

/-- While the ROT bed is on, an event joins the raised ones (R556). -/
theorem raiseEvent_on (s : State) (e : Event) (h : s.bedOn bedRot = true) :
    (s.raiseEvent e).health.raised = s.health.raised ++ [e] := by
  simp [State.raiseEvent, h, State.modHealth]

section
variable (s : State) (e : Event) (u : BitVec 16) (c n a0 a1 a2 : Nat) (g : Fin 32)
@[simp] theorem raiseEvent_mem : (s.raiseEvent e).mem = s.mem := by
  rcases raiseEvent_cases s e with h | ⟨_, h⟩ <;> rw [h]
@[simp] theorem raise_mem : (s.raise u c n a0 a1 a2).mem = s.mem := by simp [State.raise]
@[simp] theorem raiseC_mem : (s.raiseC g u c a0 a1 a2).mem = s.mem := by simp [State.raiseC]
@[simp] theorem raiseD_mem : (s.raiseD u c a0 a1 a2).mem = s.mem := by simp [State.raiseD]
@[simp] theorem raiseEvent_aon : (s.raiseEvent e).aon = s.aon := by
  rcases raiseEvent_cases s e with h | ⟨_, h⟩ <;> rw [h]
@[simp] theorem raise_aon : (s.raise u c n a0 a1 a2).aon = s.aon := by simp [State.raise]
@[simp] theorem raiseC_aon : (s.raiseC g u c a0 a1 a2).aon = s.aon := by simp [State.raiseC]
@[simp] theorem raiseD_aon : (s.raiseD u c a0 a1 a2).aon = s.aon := by simp [State.raiseD]
@[simp] theorem raiseEvent_beds : (s.raiseEvent e).beds = s.beds := by
  rcases raiseEvent_cases s e with h | ⟨_, h⟩ <;> rw [h]
@[simp] theorem raise_beds : (s.raise u c n a0 a1 a2).beds = s.beds := by simp [State.raise]
@[simp] theorem raiseC_beds : (s.raiseC g u c a0 a1 a2).beds = s.beds := by simp [State.raiseC]
@[simp] theorem raiseD_beds : (s.raiseD u c a0 a1 a2).beds = s.beds := by simp [State.raiseD]
@[simp] theorem raiseEvent_dies : (s.raiseEvent e).dies = s.dies := by
  rcases raiseEvent_cases s e with h | ⟨_, h⟩ <;> rw [h]
@[simp] theorem raise_dies : (s.raise u c n a0 a1 a2).dies = s.dies := by simp [State.raise]
@[simp] theorem raiseC_dies : (s.raiseC g u c a0 a1 a2).dies = s.dies := by simp [State.raiseC]
@[simp] theorem raiseD_dies : (s.raiseD u c a0 a1 a2).dies = s.dies := by simp [State.raiseD]
@[simp] theorem raiseEvent_clusters : (s.raiseEvent e).clusters = s.clusters := by
  rcases raiseEvent_cases s e with h | ⟨_, h⟩ <;> rw [h]
@[simp] theorem raise_clusters : (s.raise u c n a0 a1 a2).clusters = s.clusters := by simp [State.raise]
@[simp] theorem raiseC_clusters : (s.raiseC g u c a0 a1 a2).clusters = s.clusters := by simp [State.raiseC]
@[simp] theorem raiseD_clusters : (s.raiseD u c a0 a1 a2).clusters = s.clusters := by simp [State.raiseD]
@[simp] theorem raiseEvent_cores : (s.raiseEvent e).cores = s.cores := by
  rcases raiseEvent_cases s e with h | ⟨_, h⟩ <;> rw [h]
@[simp] theorem raise_cores : (s.raise u c n a0 a1 a2).cores = s.cores := by simp [State.raise]
@[simp] theorem raiseC_cores : (s.raiseC g u c a0 a1 a2).cores = s.cores := by simp [State.raiseC]
@[simp] theorem raiseD_cores : (s.raiseD u c a0 a1 a2).cores = s.cores := by simp [State.raiseD]
@[simp] theorem raiseEvent_hbm : (s.raiseEvent e).hbm = s.hbm := by
  rcases raiseEvent_cases s e with h | ⟨_, h⟩ <;> rw [h]
@[simp] theorem raise_hbm : (s.raise u c n a0 a1 a2).hbm = s.hbm := by simp [State.raise]
@[simp] theorem raiseC_hbm : (s.raiseC g u c a0 a1 a2).hbm = s.hbm := by simp [State.raiseC]
@[simp] theorem raiseD_hbm : (s.raiseD u c a0 a1 a2).hbm = s.hbm := by simp [State.raiseD]
@[simp] theorem raiseEvent_ports : (s.raiseEvent e).ports = s.ports := by
  rcases raiseEvent_cases s e with h | ⟨_, h⟩ <;> rw [h]
@[simp] theorem raise_ports : (s.raise u c n a0 a1 a2).ports = s.ports := by simp [State.raise]
@[simp] theorem raiseC_ports : (s.raiseC g u c a0 a1 a2).ports = s.ports := by simp [State.raiseC]
@[simp] theorem raiseD_ports : (s.raiseD u c a0 a1 a2).ports = s.ports := by simp [State.raiseD]
@[simp] theorem raiseEvent_pools : (s.raiseEvent e).pools = s.pools := by
  rcases raiseEvent_cases s e with h | ⟨_, h⟩ <;> rw [h]
@[simp] theorem raise_pools : (s.raise u c n a0 a1 a2).pools = s.pools := by simp [State.raise]
@[simp] theorem raiseC_pools : (s.raiseC g u c a0 a1 a2).pools = s.pools := by simp [State.raiseC]
@[simp] theorem raiseD_pools : (s.raiseD u c a0 a1 a2).pools = s.pools := by simp [State.raiseD]
@[simp] theorem raiseEvent_hosts : (s.raiseEvent e).hosts = s.hosts := by
  rcases raiseEvent_cases s e with h | ⟨_, h⟩ <;> rw [h]
@[simp] theorem raise_hosts : (s.raise u c n a0 a1 a2).hosts = s.hosts := by simp [State.raise]
@[simp] theorem raiseC_hosts : (s.raiseC g u c a0 a1 a2).hosts = s.hosts := by simp [State.raiseC]
@[simp] theorem raiseD_hosts : (s.raiseD u c a0 a1 a2).hosts = s.hosts := by simp [State.raiseD]
@[simp] theorem raiseEvent_ingests : (s.raiseEvent e).ingests = s.ingests := by
  rcases raiseEvent_cases s e with h | ⟨_, h⟩ <;> rw [h]
@[simp] theorem raise_ingests : (s.raise u c n a0 a1 a2).ingests = s.ingests := by simp [State.raise]
@[simp] theorem raiseC_ingests : (s.raiseC g u c a0 a1 a2).ingests = s.ingests := by simp [State.raiseC]
@[simp] theorem raiseD_ingests : (s.raiseD u c a0 a1 a2).ingests = s.ingests := by simp [State.raiseD]
@[simp] theorem raiseEvent_fifos : (s.raiseEvent e).fifos = s.fifos := by
  rcases raiseEvent_cases s e with h | ⟨_, h⟩ <;> rw [h]
@[simp] theorem raise_fifos : (s.raise u c n a0 a1 a2).fifos = s.fifos := by simp [State.raise]
@[simp] theorem raiseC_fifos : (s.raiseC g u c a0 a1 a2).fifos = s.fifos := by simp [State.raiseC]
@[simp] theorem raiseD_fifos : (s.raiseD u c a0 a1 a2).fifos = s.fifos := by simp [State.raiseD]
@[simp] theorem raiseEvent_txFlows : (s.raiseEvent e).txFlows = s.txFlows := by
  rcases raiseEvent_cases s e with h | ⟨_, h⟩ <;> rw [h]
@[simp] theorem raise_txFlows : (s.raise u c n a0 a1 a2).txFlows = s.txFlows := by simp [State.raise]
@[simp] theorem raiseC_txFlows : (s.raiseC g u c a0 a1 a2).txFlows = s.txFlows := by simp [State.raiseC]
@[simp] theorem raiseD_txFlows : (s.raiseD u c a0 a1 a2).txFlows = s.txFlows := by simp [State.raiseD]
@[simp] theorem raiseEvent_rxFlows : (s.raiseEvent e).rxFlows = s.rxFlows := by
  rcases raiseEvent_cases s e with h | ⟨_, h⟩ <;> rw [h]
@[simp] theorem raise_rxFlows : (s.raise u c n a0 a1 a2).rxFlows = s.rxFlows := by simp [State.raise]
@[simp] theorem raiseC_rxFlows : (s.raiseC g u c a0 a1 a2).rxFlows = s.rxFlows := by simp [State.raiseC]
@[simp] theorem raiseD_rxFlows : (s.raiseD u c a0 a1 a2).rxFlows = s.rxFlows := by simp [State.raiseD]
@[simp] theorem raiseEvent_delivered : (s.raiseEvent e).delivered = s.delivered := by
  rcases raiseEvent_cases s e with h | ⟨_, h⟩ <;> rw [h]
@[simp] theorem raise_delivered : (s.raise u c n a0 a1 a2).delivered = s.delivered := by simp [State.raise]
@[simp] theorem raiseC_delivered : (s.raiseC g u c a0 a1 a2).delivered = s.delivered := by simp [State.raiseC]
@[simp] theorem raiseD_delivered : (s.raiseD u c a0 a1 a2).delivered = s.delivered := by simp [State.raiseD]
@[simp] theorem raiseEvent_posts : (s.raiseEvent e).posts = s.posts := by
  rcases raiseEvent_cases s e with h | ⟨_, h⟩ <;> rw [h]
@[simp] theorem raise_posts : (s.raise u c n a0 a1 a2).posts = s.posts := by simp [State.raise]
@[simp] theorem raiseC_posts : (s.raiseC g u c a0 a1 a2).posts = s.posts := by simp [State.raiseC]
@[simp] theorem raiseD_posts : (s.raiseD u c a0 a1 a2).posts = s.posts := by simp [State.raiseD]
@[simp] theorem raiseEvent_arrivals : (s.raiseEvent e).arrivals = s.arrivals := by
  rcases raiseEvent_cases s e with h | ⟨_, h⟩ <;> rw [h]
@[simp] theorem raise_arrivals : (s.raise u c n a0 a1 a2).arrivals = s.arrivals := by simp [State.raise]
@[simp] theorem raiseC_arrivals : (s.raiseC g u c a0 a1 a2).arrivals = s.arrivals := by simp [State.raiseC]
@[simp] theorem raiseD_arrivals : (s.raiseD u c a0 a1 a2).arrivals = s.arrivals := by simp [State.raiseD]
@[simp] theorem raiseEvent_held : (s.raiseEvent e).held = s.held := by
  rcases raiseEvent_cases s e with h | ⟨_, h⟩ <;> rw [h]
@[simp] theorem raise_held : (s.raise u c n a0 a1 a2).held = s.held := by simp [State.raise]
@[simp] theorem raiseC_held : (s.raiseC g u c a0 a1 a2).held = s.held := by simp [State.raiseC]
@[simp] theorem raiseD_held : (s.raiseD u c a0 a1 a2).held = s.held := by simp [State.raiseD]
@[simp] theorem raiseEvent_releases : (s.raiseEvent e).releases = s.releases := by
  rcases raiseEvent_cases s e with h | ⟨_, h⟩ <;> rw [h]
@[simp] theorem raise_releases : (s.raise u c n a0 a1 a2).releases = s.releases := by simp [State.raise]
@[simp] theorem raiseC_releases : (s.raiseC g u c a0 a1 a2).releases = s.releases := by simp [State.raiseC]
@[simp] theorem raiseD_releases : (s.raiseD u c a0 a1 a2).releases = s.releases := by simp [State.raiseD]
@[simp] theorem raiseEvent_partials : (s.raiseEvent e).partials = s.partials := by
  rcases raiseEvent_cases s e with h | ⟨_, h⟩ <;> rw [h]
@[simp] theorem raise_partials : (s.raise u c n a0 a1 a2).partials = s.partials := by simp [State.raise]
@[simp] theorem raiseC_partials : (s.raiseC g u c a0 a1 a2).partials = s.partials := by simp [State.raiseC]
@[simp] theorem raiseD_partials : (s.raiseD u c a0 a1 a2).partials = s.partials := by simp [State.raiseD]
@[simp] theorem raiseEvent_chunks : (s.raiseEvent e).chunks = s.chunks := by
  rcases raiseEvent_cases s e with h | ⟨_, h⟩ <;> rw [h]
@[simp] theorem raise_chunks : (s.raise u c n a0 a1 a2).chunks = s.chunks := by simp [State.raise]
@[simp] theorem raiseC_chunks : (s.raiseC g u c a0 a1 a2).chunks = s.chunks := by simp [State.raiseC]
@[simp] theorem raiseD_chunks : (s.raiseD u c a0 a1 a2).chunks = s.chunks := by simp [State.raiseD]
@[simp] theorem raiseEvent_moves : (s.raiseEvent e).moves = s.moves := by
  rcases raiseEvent_cases s e with h | ⟨_, h⟩ <;> rw [h]
@[simp] theorem raise_moves : (s.raise u c n a0 a1 a2).moves = s.moves := by simp [State.raise]
@[simp] theorem raiseC_moves : (s.raiseC g u c a0 a1 a2).moves = s.moves := by simp [State.raiseC]
@[simp] theorem raiseD_moves : (s.raiseD u c a0 a1 a2).moves = s.moves := by simp [State.raiseD]
@[simp] theorem raiseEvent_incoming : (s.raiseEvent e).incoming = s.incoming := by
  rcases raiseEvent_cases s e with h | ⟨_, h⟩ <;> rw [h]
@[simp] theorem raise_incoming : (s.raise u c n a0 a1 a2).incoming = s.incoming := by simp [State.raise]
@[simp] theorem raiseC_incoming : (s.raiseC g u c a0 a1 a2).incoming = s.incoming := by simp [State.raiseC]
@[simp] theorem raiseD_incoming : (s.raiseD u c a0 a1 a2).incoming = s.incoming := by simp [State.raiseD]
@[simp] theorem raiseEvent_relays : (s.raiseEvent e).relays = s.relays := by
  rcases raiseEvent_cases s e with h | ⟨_, h⟩ <;> rw [h]
@[simp] theorem raise_relays : (s.raise u c n a0 a1 a2).relays = s.relays := by simp [State.raise]
@[simp] theorem raiseC_relays : (s.raiseC g u c a0 a1 a2).relays = s.relays := by simp [State.raiseC]
@[simp] theorem raiseD_relays : (s.raiseD u c a0 a1 a2).relays = s.relays := by simp [State.raiseD]
@[simp] theorem raiseEvent_nextRelay : (s.raiseEvent e).nextRelay = s.nextRelay := by
  rcases raiseEvent_cases s e with h | ⟨_, h⟩ <;> rw [h]
@[simp] theorem raise_nextRelay : (s.raise u c n a0 a1 a2).nextRelay = s.nextRelay := by simp [State.raise]
@[simp] theorem raiseC_nextRelay : (s.raiseC g u c a0 a1 a2).nextRelay = s.nextRelay := by simp [State.raiseC]
@[simp] theorem raiseD_nextRelay : (s.raiseD u c a0 a1 a2).nextRelay = s.nextRelay := by simp [State.raiseD]
@[simp] theorem raiseEvent_agent : (s.raiseEvent e).agent = s.agent := by
  rcases raiseEvent_cases s e with h | ⟨_, h⟩ <;> rw [h]
@[simp] theorem raise_agent : (s.raise u c n a0 a1 a2).agent = s.agent := by simp [State.raise]
@[simp] theorem raiseC_agent : (s.raiseC g u c a0 a1 a2).agent = s.agent := by simp [State.raiseC]
@[simp] theorem raiseD_agent : (s.raiseD u c a0 a1 a2).agent = s.agent := by simp [State.raiseD]
@[simp] theorem raiseEvent_objs : (s.raiseEvent e).objs = s.objs := by
  rcases raiseEvent_cases s e with h | ⟨_, h⟩ <;> rw [h]
@[simp] theorem raise_objs : (s.raise u c n a0 a1 a2).objs = s.objs := by simp [State.raise]
@[simp] theorem raiseC_objs : (s.raiseC g u c a0 a1 a2).objs = s.objs := by simp [State.raiseC]
@[simp] theorem raiseD_objs : (s.raiseD u c a0 a1 a2).objs = s.objs := by simp [State.raiseD]
@[simp] theorem raiseEvent_rot : (s.raiseEvent e).rot = s.rot := by
  rcases raiseEvent_cases s e with h | ⟨_, h⟩ <;> rw [h]
@[simp] theorem raise_rot : (s.raise u c n a0 a1 a2).rot = s.rot := by simp [State.raise]
@[simp] theorem raiseC_rot : (s.raiseC g u c a0 a1 a2).rot = s.rot := by simp [State.raiseC]
@[simp] theorem raiseD_rot : (s.raiseD u c a0 a1 a2).rot = s.rot := by simp [State.raiseD]
@[simp] theorem raiseEvent_job : (s.raiseEvent e).job = s.job := by
  rcases raiseEvent_cases s e with h | ⟨_, h⟩ <;> rw [h]
@[simp] theorem raise_job : (s.raise u c n a0 a1 a2).job = s.job := by simp [State.raise]
@[simp] theorem raiseC_job : (s.raiseC g u c a0 a1 a2).job = s.job := by simp [State.raiseC]
@[simp] theorem raiseD_job : (s.raiseD u c a0 a1 a2).job = s.job := by simp [State.raiseD]
@[simp] theorem raiseEvent_sent : (s.raiseEvent e).sent = s.sent := by
  rcases raiseEvent_cases s e with h | ⟨_, h⟩ <;> rw [h]
@[simp] theorem raise_sent : (s.raise u c n a0 a1 a2).sent = s.sent := by simp [State.raise]
@[simp] theorem raiseC_sent : (s.raiseC g u c a0 a1 a2).sent = s.sent := by simp [State.raiseC]
@[simp] theorem raiseD_sent : (s.raiseD u c a0 a1 a2).sent = s.sent := by simp [State.raiseD]
@[simp] theorem raiseEvent_lastArb : (s.raiseEvent e).lastArb = s.lastArb := by
  rcases raiseEvent_cases s e with h | ⟨_, h⟩ <;> rw [h]
@[simp] theorem raise_lastArb : (s.raise u c n a0 a1 a2).lastArb = s.lastArb := by simp [State.raise]
@[simp] theorem raiseC_lastArb : (s.raiseC g u c a0 a1 a2).lastArb = s.lastArb := by simp [State.raiseC]
@[simp] theorem raiseD_lastArb : (s.raiseD u c a0 a1 a2).lastArb = s.lastArb := by simp [State.raiseD]
@[simp] theorem raiseEvent_phases : (s.raiseEvent e).phases = s.phases := by
  rcases raiseEvent_cases s e with h | ⟨_, h⟩ <;> rw [h]
@[simp] theorem raise_phases : (s.raise u c n a0 a1 a2).phases = s.phases := by simp [State.raise]
@[simp] theorem raiseC_phases : (s.raiseC g u c a0 a1 a2).phases = s.phases := by simp [State.raiseC]
@[simp] theorem raiseD_phases : (s.raiseD u c a0 a1 a2).phases = s.phases := by simp [State.raiseD]
@[simp] theorem raiseEvent_phaseDue : (s.raiseEvent e).phaseDue = s.phaseDue := by
  rcases raiseEvent_cases s e with h | ⟨_, h⟩ <;> rw [h]
@[simp] theorem raise_phaseDue : (s.raise u c n a0 a1 a2).phaseDue = s.phaseDue := by simp [State.raise]
@[simp] theorem raiseC_phaseDue : (s.raiseC g u c a0 a1 a2).phaseDue = s.phaseDue := by simp [State.raiseC]
@[simp] theorem raiseD_phaseDue : (s.raiseD u c a0 a1 a2).phaseDue = s.phaseDue := by simp [State.raiseD]
@[simp] theorem raiseEvent_fabInForce : (s.raiseEvent e).fabInForce = s.fabInForce := by
  rcases raiseEvent_cases s e with h | ⟨_, h⟩ <;> rw [h]
@[simp] theorem raise_fabInForce : (s.raise u c n a0 a1 a2).fabInForce = s.fabInForce := by simp [State.raise]
@[simp] theorem raiseC_fabInForce : (s.raiseC g u c a0 a1 a2).fabInForce = s.fabInForce := by simp [State.raiseC]
@[simp] theorem raiseD_fabInForce : (s.raiseD u c a0 a1 a2).fabInForce = s.fabInForce := by simp [State.raiseD]
@[simp] theorem raiseEvent_free : (s.raiseEvent e).free = s.free := by
  rcases raiseEvent_cases s e with h | ⟨_, h⟩ <;> rw [h]
@[simp] theorem raise_free : (s.raise u c n a0 a1 a2).free = s.free := by simp [State.raise]
@[simp] theorem raiseC_free : (s.raiseC g u c a0 a1 a2).free = s.free := by simp [State.raiseC]
@[simp] theorem raiseD_free : (s.raiseD u c a0 a1 a2).free = s.free := by simp [State.raiseD]
@[simp] theorem raiseEvent_pending : (s.raiseEvent e).pending = s.pending := by
  rcases raiseEvent_cases s e with h | ⟨_, h⟩ <;> rw [h]
@[simp] theorem raise_pending : (s.raise u c n a0 a1 a2).pending = s.pending := by simp [State.raise]
@[simp] theorem raiseC_pending : (s.raiseC g u c a0 a1 a2).pending = s.pending := by simp [State.raiseC]
@[simp] theorem raiseD_pending : (s.raiseD u c a0 a1 a2).pending = s.pending := by simp [State.raiseD]
end

end Sys2Proof.Machine
end

