-- ==== Sys2Proof/Laws/Sequencer.lean ====
section
/-! SUPPORT. Laws/Sequencer.lean: what the sequencer's shared operations do. -/

namespace Sys2Proof.Machine

/-- A register just written, but for s0. -/
theorem reg_setReg_same (q : Sequencer) (r : Fin 32) (v : Word) (h : r ≠ 0) : (q.setReg r v).reg r = v := by
  simp [Sequencer.setReg, Sequencer.reg, h]

/-- Every other register stays. -/
theorem reg_setReg_other (q : Sequencer) (r x : Fin 32) (v : Word) (h : x ≠ r) : (q.setReg r v).reg x = q.reg x := by
  unfold Sequencer.setReg
  split
  · rfl
  · have : (r : Nat) ≠ x := fun e => h (Fin.ext e.symm)
    simp [Sequencer.reg, Vector.getElem_set_ne, this]

/-- s0 reads as zero. -/
@[simp] theorem reg_zero (q : Sequencer) : q.reg 0 = 0 := by simp [Sequencer.reg]

@[simp] theorem setReg_pc (q : Sequencer) (r : Fin 32) (v : Word) : (q.setReg r v).pc = q.pc := by
  unfold Sequencer.setReg; split <;> rfl
@[simp] theorem setReg_state (q : Sequencer) (r : Fin 32) (v : Word) : (q.setReg r v).state = q.state := by
  unfold Sequencer.setReg; split <;> rfl
@[simp] theorem setReg_imem (q : Sequencer) (r : Fin 32) (v : Word) : (q.setReg r v).imem = q.imem := by
  unfold Sequencer.setReg; split <;> rfl
@[simp] theorem setReg_load (q : Sequencer) (r : Fin 32) (v : Word) : (q.setReg r v).load = q.load := by
  unfold Sequencer.setReg; split <;> rfl

/-- The program counter moves, or the sequencer faults (R118). -/
theorem seqGoto_cases (s : State) (g : Fin 32) (w : Word) :
    (w.toNat < 2048 ∧ s.seqGoto g w = s.modSeq g (fun q => { q with pc := w.toNat })) ∨
    (2048 ≤ w.toNat ∧ s.seqGoto g w = s.seqFault g 2 w.toNat) := by
  unfold State.seqGoto
  split
  · exact .inl ⟨‹_›, rfl⟩
  · exact .inr ⟨by omega, rfl⟩

/-- A row's command does nothing, rejects the instruction, or executes it (R115, R118). -/
theorem seqRow_cases (opc : Nat) (body : SeqInstr → Fin 32 → State → State) (g : Fin 32) (s : State) :
    seqRow opc body g s = .next s ∨
    (s.seqRuns g = true ∧ seqRow opc body g s = .next (s.seqReject g)) ∨
    (s.seqRuns g = true ∧ (seqDecode s.clusters[g].seq.word).opc = opc ∧ seqWordBad s.clusters[g].seq.word = false ∧
      seqRow opc body g s = .next (body (seqDecode s.clusters[g].seq.word) g s)) := by
  unfold seqRow
  by_cases hr : s.seqRuns g = true
  · simp only [hr, if_true]
    split
    · exact .inr (.inl ⟨trivial, rfl⟩)
    · split
      · exact .inl rfl
      · rename_i ho
        split
        · exact .inr (.inl ⟨trivial, rfl⟩)
        · rename_i hb
          exact .inr (.inr ⟨trivial, by simpa using ho, by simpa using hb, rfl⟩)
  · simp [hr]

/-- A word that is not rejected names an operation of R116. -/
theorem seqUse_of_ok (w : Word) (h : seqWordBad w = false) : (seqUse (seqDecode w).opc).isNone = false := by
  unfold seqWordBad at h
  cases hu : seqUse (seqDecode w).opc with
  | none => simp [hu] at h
  | some u => rfl

/-- A row's command on a running sequencer whose instruction is the row's and is not rejected. -/
theorem seqRow_executes (opc : Nat) (body : SeqInstr → Fin 32 → State → State) (g : Fin 32) (s : State)
    (hr : s.seqRuns g = true) (ho : (seqDecode s.clusters[g].seq.word).opc = opc)
    (hb : seqWordBad s.clusters[g].seq.word = false) :
    seqRow opc body g s = .next (body (seqDecode s.clusters[g].seq.word) g s) := by
  have hu := seqUse_of_ok _ hb
  rw [ho] at hu
  unfold seqRow
  simp only [hr, if_true, hu, hb, ho, ne_eq, not_true_eq_false, if_false, Bool.false_eq_true]

end Sys2Proof.Machine
end

