-- ==== Sys2Proof/Tests/Slice0.lean ====
section
/-! SUPPORT. Slice0.lean: the model's own tests: ill-formed operands, worked examples, and for each statement a state and
operands that meet its hypotheses, clause by clause. -/

set_option linter.unusedVariables false
set_option maxRecDepth 16000

namespace Sys2Proof.Tests

open Sys2Proof.Machine

/-! ### Small states -/

def onBed : Bed := { phase := .on, target := true, transitions := 1, barred := false }

/-- Every bed on, every cluster trimmed and in the job, every stack ready, memory written with zero. -/
def up : State :=
  { State.reset with
    beds := Vector.replicate 62 onBed
    aon := { Aon.reset with powered := true, xtalOk := true, vinOk := true, powerSteps := true, rtc := 10000000000#64 }
    hbm := Vector.replicate 12 { Stack.reset with state := .ready }
    clusters := Vector.replicate 32
      { Cluster.reset with active := true, osc := { Osc.reset with trimmed := true }, seasonLimit := 10 }
    hosts := Vector.replicate 2 { HostPort.reset with subs := Vector.replicate 4 { SubPort.reset with link := true } }
    pools := Vector.replicate 2 { Pool.reset with cap := Vector.replicate 9 1000 }
    mem := { cells := [], zeroed := List.range 44, eras := [], keys := [], first := [], under := [] }
    agent := { Agent.reset with mgmtLink := .m1000 }
    rot := { Rot.reset with stage := 7 }
    job := { Job.reset with state := .running } }

/-- A queued descriptor of eight words. -/
def dsc (w0 w1 w2 w3 w4 w5 w6 w7 : Word) : QDesc :=
  { desc := ⟨w0, w1, w2, w3, w4, w5, w6, w7⟩, addr := 0x1000, launch := false, harrow := false }

/-- A descriptor that an engine works on. -/
def act (d : QDesc) (ph : Phase) : Running := { q := d, season := 0, ordinal := 0, phase := ph, summary := none }

/-- `up` with one started descriptor in a queue. -/
def busy (g : Fin 32) (q : QueueId) (r : Running) : State := up.modQueue g q (fun x => { x with running := [r] })

/-- `up` with cluster 31's sequencer running on one instruction, at 0, with a register set. -/
def runs (w : Word) (r : Fin 32) (v : Word) : State :=
  up.modSeq 31 (fun q => { q with imem := [(0, w)], state := .running, regs := q.regs.set r v })

/-- The same at the last instruction. -/
def runsLast (w : Word) : State := up.modSeq 31 (fun q => { q with imem := [(2047, w)], pc := 2047, state := .running })

theorem of_some {α : Type} {o : Option α} (h : o.isSome = true) : ∃ x, o = some x := Option.isSome_iff_exists.mp h

theorem of_ok {ε α : Type} {e : Except ε α} (h : e.isOk = true) : ∃ x, e = .ok x := by
  cases e with
  | ok x => exact ⟨x, rfl⟩
  | error _ => cases h


theorem of_fail {ε α : Type} {e : Except ε α} (h : e.isOk = false) : ∃ x, e = .error x := by
  cases e with
  | ok _ => cases h
  | error x => exact ⟨x, rfl⟩

/-- A table of 64 rows of 8 elements, all here, in zeroed memory. -/
def tbl : TableDesc :=
  { base := 0x100000, code4 := false, frozen := true, valid := true, rowCount := 64, dim := 8, stride := 32, shardLog2 := 6,
    ownerAddr := 0x30000, ownerHalf := false, ownerSeason := 0, loadAddr := 0x40000, loadWindow := 0, commitEpoch := 0 }

/-- A state with that table as table 0. -/
def tabled (s : State) : State := s.modJob (fun j => { j with tables := [(0, tbl)] })

/-- A one-item Rake descriptor of an opcode, its list at 0x10000 and its output at 0x20000. -/
def rk (op : Word) : QDesc := dsc op 0 0x10000 (if op = 3 then 0 else 0x20000) 1 (if op = 2 then 0x50000 else 0) 0 0

/-- A Rake job of a descriptor. -/
def rkJob (r : Running) : RakeJob := newRakeJob r

theorem of_res {ε σ α : Type} {e : EStateM.Result ε σ α} (h : (match e with | .ok _ _ => true | _ => false) = true) :
    ∃ u st, e = .ok u st := by
  cases e with
  | ok u st => exact ⟨u, st, rfl⟩
  | error _ _ => cases h

/-- `up` with a graph of one node at 0x10000 and a seed outside it at 0x20000. -/
def graphed (r : Running) : State :=
  (busy 0 .harrow r).writeMem 0x10000 (leBytes 8 0x148520001 ++ leBytes 8 1 ++ leBytes 8 1)

def sampleDsc : QDesc :=
  dsc 1 0 (0x10000#64 ||| 1#64 <<< 48) 0x20000 (1#64 ||| 1#64 <<< 16) (0x100000#64 ||| 20#64 <<< 48) (1#64 <<< 16 ||| 1#64 <<< 32) 0

/-- A micro-batch piece of 256 bytes. -/
def piece1 : Piece := { bytes := List.replicate 256 0, rows := 1, edges := 0, halos := 0 }

def sjob (log2 : Nat) : SampleJob :=
  { mb := 0, season := 0, unit := 0, hops := 1, seeds := 1, outAddr := 0x100000, outLog2 := log2, pieceToken := some 3, spec := false,
    pieces := [piece1], written := 0, fault := none }

/-- Device 0 of a ring of two, every port up. -/
def linked (s : State) : State :=
  { s with fabInForce := (0, 1, 0, 0), ports := Vector.replicate 16 { Port.reset with state := .up, inUse := true, width := 8, fab := (0, 1, 0, 0) } }

/-- A one-row SCATTER of table 0, a FLUSH of micro-batch 0 and an ARM_OWNER for Season 5. -/
def scatDsc : QDesc := dsc 1 0 0x10000 0x20000 1 0 0 0
def flushDsc : QDesc := dsc 2 0 (1#64 <<< 16) 0 0 0 0 0
def armDsc : QDesc := dsc 3 0 0 5 0 0 0 0

def part1 : FrontPartial := { table := 0, row := 0, mb := 0, place := .buffer, elems := List.replicate 8 0 }

/-! Core 0's commands on one-element operands in its own window. -/

def copyDsc (op : Word) : QDesc :=
  dsc op 0 (if op = 2 then 0 else 0x10000) 0x20000 (64#64 ||| 2#64 <<< 32) ((if op = 2 then 0 else 64) ||| 64#64 <<< 32) 0 0

def thrFrom (op base : Word) : QDesc :=
  dsc op 0 0x11000001000 base (1#64 ||| 8#64 <<< 32 ||| 1#64 <<< 43 ||| 1#64 <<< 48) 8 0x11000000000 8

def thrDsc (op : Word) : QDesc := thrFrom op 0x20000

def thrJob (op : Word) (es : List Entry) : ThreadJob :=
  { run := act (thrDsc op) .working, next := [0], inFlight := es, counted := [], failed := false }

/-- A job of core 0 that has issued nothing, its index at a base. -/
def thrNew (op base : Word) : ThreadJob :=
  { run := act (thrFrom op base) .working, next := [0], inFlight := [], counted := [], failed := false }
def threaded (j : ThreadJob) : State := up.modThr 0 (fun x => { x with job := some j })

def mat1 : Word := 1#64 <<< 27
def mulDsc : QDesc := dsc 1 0 mat1 (0x1000#64 ||| 1#64 <<< 27) (0x2000#64 ||| 1#64 <<< 26)
  (1#64 ||| 1#64 <<< 16 ||| 1#64 <<< 32) (1#64 ||| 1#64 <<< 16 ||| 1#64 <<< 32) 0
def mfillDsc : QDesc := dsc 2 0 mat1 (0x1000#64 ||| 1#64 <<< 27) (0x10000#64 ||| 1#64 <<< 26) 1 0 0
def convDsc : QDesc := dsc 3 0 (mat1 ||| 1#64 <<< 32 ||| 1#64 <<< 48) (0x1000#64 ||| 1#64 <<< 27 ||| 1#64 <<< 32 ||| 1#64 <<< 44)
  (0x2000#64 ||| 1#64 <<< 26) 0x111 0 0
def cvtDsc : QDesc := dsc 4 0 (1#64 <<< 26) (0x1000#64 ||| 1#64 <<< 27) 0 (1#64 ||| 1#64 <<< 32) (1#64 ||| 1#64 <<< 16) 0

def rivalDsc : QDesc := { mulDsc with addr := 0x2000 }

def pass1 (ph : PassPhase) (ts : List Tile) : Pass :=
  { row0 := 0, rows := 1, col0 := 0, cols := 1, periods := 1, skipped := false, held := false, phase := ph, writes := [], tiles := ts }

/-- Core 0 with one matrix command of one pass. -/
def passing (p : Pass) : State :=
  (busy 0 (.matrix 0) (act mulDsc .working)).modMatrix 0 (fun x => { x with jobs := [⟨act mulDsc .working, .output, [], [p]⟩] })

def tile1 : Tile := { h0 := 0, h1 := 0x10001, elems := [0] }
def slot1 (last : Bool) : SlotTile := { h0 := if last then 1#64 <<< 52 else 0, h1 := 0x10001, slot := 0 }

/-- The same with a second command whose operands the first is writing. -/
def twoJobs : List MatrixJob :=
  [⟨act mulDsc .working, .output, [], [{ pass1 .firing [] with writes := [(0x11000000000, [1])] }]⟩,
   ⟨act rivalDsc .started, .output, [], [pass1 .ready []]⟩]

def chainDsc (ftq : Bool) : QDesc := dsc 1 0 (if ftq then 0 else 1#64 <<< 26) (0x1000#64 <<< 32 ||| 1#64 <<< 58)
  ((if ftq then 1#64 <<< 63 else 0) ||| 0x100010001) 0x4000 0 0

/-- A state with the stage word of COPY from X0 at 0x4000 of core 0. -/
def staged (s : State) : State := s.setMem (s.mem.writeBytes 0x11000004000 [1])

def rowDsc (op : Word) : QDesc :=
  dsc op 0 (1#64 <<< 26 ||| 0x1000#64 <<< 32 ||| 1#64 <<< 58) (if op = 2 ∨ op = 4 then 0x2000#64 <<< 32 ||| 1#64 <<< 58 else 0)
    0x100010001 0 0 0

/-! Gradients and updates. -/

/-- An UNFACTORED group of one record. -/
def grp : GroupDesc := ⟨0x200000, .unfactored, true, false, false, 32, 0, 0, 1, 0x300000, 0, 0, 0, 0, 0, 0, 0, 0⟩
def grouped (s : State) : State := s.modJob (fun j => { j with groups := [(0, grp)] })
def gradDsc : QDesc := dsc 1 0 0x10000 0 1 0 0 0
def updDsc : QDesc := dsc 2 0 (0x100#64 ||| 1#64 <<< 32) 0 0 0 0 0
def commitDsc : QDesc := dsc 3 0 0 0x3F800000 0 0 0 0
def commitJob : CommitJob := ⟨0, act commitDsc .working, 0, 0x3F800000, 0, 0, false, false, false, false, [], false, false⟩

/-! Packets of device 1 that have been delivered here, and packets sent to it. -/

def pkt (t : PType) (k0 k1 : Word) (bs : List Byte) : Packet :=
  { dst := 0, src := 1, ptype := t, fvc := ptypeVc t, psn := 0, step := 0, key0 := k0, key1 := k1, payload := bs }
def got (s : State) (p : Packet) : State := { linked s with delivered := [p] }
def sentTo1 : Packet := { dst := 1, src := 0, ptype := .write, fvc := 0, psn := 0, step := 0, key0 := 0, key1 := 0, payload := [] }
def flow1 : TxFlow := ⟨1, 0, 1, [sentTo1]⟩

/-- A state of port 0. -/
def port0 (f : Port → Port) : State := (linked up).modPort 0 f
def tflit (n : Nat) : TxFlit := ⟨n, ⟨sentTo1, none, false, false, none, false, false⟩, 0⟩

/-! Host port 0 with one queue pair and one region. -/

def qp0 : QueuePair := ⟨⟨5, 0, 3, 7, 0, 0, 1024, false, 0, 64⟩, false, 0, 0, 0, 0, 0, [], false, none, [], none⟩
def hostedQ (q : QueuePair) (kind : RegionKind) (w : List RoceWait) : State :=
  up.modHost 0 (fun p => { p with qps := [(0, q)], regions := [(0, ⟨0x100000, 4096, true, true, kind, 0⟩)], accepted := w })
def hosted (kind : RegionKind) (w : List RoceWait) : State := hostedQ qp0 kind w
/-- The same with its request taken out. -/
def servedQ (q : QueuePair) (kind : RegionKind) (w : RoceWait) : State :=
  ((hostedQ q kind [w]).modHost 0 (fun p => { p with accepted := [] })).hostGive 0 0
def hostedServed (kind : RegionKind) (w : RoceWait) : State := servedQ qp0 kind w
def qpIn : QueuePair := { qp0 with cfg := { qp0.cfg with ingest := true } }
/-- In the middle of a WRITE, one byte from its end. -/
def qpMid : QueuePair := { qp0 with writeAt := some (0x100000, 1) }

/-- An answer to the Rake's tag 5, and the POOL that waits for it. -/
def rowAns : Packet := pkt .rowResp 0 ((uidCluster 0 2).setWidth 64 ||| 5#64 <<< 16) []
def rkBag : RakeJob := { rkJob (act (rk 2) .working) with bag := some ⟨0, 0, 1, [], some 5, none⟩ }

/-- Frames without MACsec are accepted. -/
def bare (s : State) : State := { s with objs := { s.objs with nums := [(objKey 0x6030 5, 0)] } }

/-! Ingest engine 0 with a configuration and a region of 4,096 bytes. -/

def icfg : IngestConfig := ⟨0x200000, 4096, 0x300000, 0, 12, 0x400000, 16, 1, 0, 0, false, 0, 0, 0⟩
def ingesting (f : Ingest → Ingest) : State :=
  (up.modHost 0 (fun p => { p with regions := [(0, ⟨0x100000, 4096, true, true, .ingest, 0⟩)] })).modIngest 0
    (fun x => f { x with cfg := some icfg })
def notice0 (bad : Option Nat) : Notice := ⟨0, 0, false, 0, 16, 0, 0, bad⟩

/-! Management requests. -/

def addrWord (index sub type high : Nat) : List Byte := leBytes 8 (index + sub * 2 ^ 16 + type * 2 ^ 24 + high * 2 ^ 32)
def mgmtReq (op : Nat) (payload : List Byte) : BreopReq :=
  { src := ⟨1, 2⟩, dest := ⟨3, 4843⟩, via := none, op := op, auth := false, reqId := 9, session := 0, seq := 0, payload := payload,
    covered := [], tag := [], badFormat := false }
def asked (r : BreopReq) : State := up.modAgent (fun a => { a with requests := [r] })
def mgmt (b : MgmtBody) : MgmtFrame := ⟨1522, 1, b⟩
/-- A frame to UDP port 4843 of the address in force. -/
def mgmtBreop (bytes : List Byte) : MgmtFrame := mgmt (.breop ⟨1, 2⟩ ⟨up.agent.addrInForce, up.breopPort⟩ bytes)
def sub1 (index lease : Nat) : Subscription := ⟨0, ⟨1, 2⟩, ⟨3, 4843⟩, none, index, 1, 10, none, 0, lease, none, 0, [], false⟩

/-! A source with a challenge of zeros, a SESSION_OPEN value and a debug token for it. -/

def challenged : State := up.modAgent (fun a => { a with challenges := [(⟨1, 2⟩, 0, 10000000000)] })
def openValue : List Byte := [0x4F, 0x53] ++ List.replicate 8825 0
def tokenValue : List Byte := [0x55, 0x44, 1] ++ (ownDigest ++ List.replicate 4659 0)

theorem len_le (n v : Nat) : (leBytes n v).length = n := by
  induction n generalizing v with
  | zero => rfl
  | succ n ih => simp [leBytes, ih]

def owned (s : State) : State := { s with objs := { s.objs with blobs := [(objKey 0x7005 1, [1])] } }

/-- The first words of an image's header with an SVN, and a body of one byte. -/
def image (svn : Nat) : FwImage := ⟨leBytes 8 0x57463954 ++ leBytes 4 svn ++ leBytes 4 1, [0]⟩

def ev (code : BitVec 16) : Event := ⟨uidDie 0 8, code, 0, 0, 0, 0⟩

/-- A thermal shutdown that has cooled, with a value of THERMAL_RESTART. -/
def bare40 (n : Nat) : State :=
  { up.modAon (fun a => { a with shut := true, shutCause := some .thermal }) with
    objs := { up.objs with nums := [(objKey 0x2040 9, n)] } }


theorem of_resFail {ε σ α : Type} {e : EStateM.Result ε σ α} (h : (match e with | .ok _ _ => true | _ => false) = false) :
    ∃ f st, e = .error f st := by
  cases e with
  | ok _ _ => cases h
  | error f st => exact ⟨f, st, rfl⟩

/-- The same command with its seeds at an address that does not exist. -/
def badSeeds : QDesc :=
  dsc 1 0 (0x10000#64 ||| 1#64 <<< 48) 0xFFFFFFFFFFF0 (1#64 ||| 1#64 <<< 16) (0x100000#64 ||| 20#64 <<< 48) (1#64 <<< 16 ||| 1#64 <<< 32) 0

/-- A grant to its base die for one access unit, and reads that find their bytes as they were written. -/
def grant1 (unit : Nat) (write : Bool) : Grant := ⟨⟨2, uidStack (stackOf unit).val, .request, unit, 1, write⟩, 0, 2⟩
def granted (unit : Nat) (write : Bool) : State := up.setArb (channelOf unit) ⟨1, 0, some (grant1 unit write), []⟩
def calm : Upset := ⟨[], false⟩
def hit (l : List (Fin 72)) : Upset := ⟨l.map (fun i => (i, 1)), false⟩

/-- Stack 0 is to stop while a transfer of its has units to move. -/
def stackLeaving : State := (granted 0 true).modBed 8 (fun b => { b with target := false })

theorem witness_TrimSearchesAndMeasures :
  (∃ (g : Fin 32) (count : Nat) (s : State) (b : Fin 12), s.clusterOn g = true ∧
      s.clusters[g].osc.phase = .window b) ∧
  (∃ (g : Fin 32) (count : Nat) (s : State) (again : Bool), s.clusterOn g = true ∧
      s.clusters[g].osc.phase = .measure again) ∧
  (∃ (g : Fin 32) (count : Nat) (s : State), s.clusterOn g = true ∧ s.objNum 0x4021 1 ≠ 0 ∧
      s.clusters[g].osc.trimmed = true ∧ s.clusters[g].osc.phase = .idle) ∧
  (∃ (g : Fin 32) (s : State), s.clusterOn g = true ∧ s.clusterFenced g = false ∧
      s.clusters[g].osc.trimState ≠ .trimming) ∧
  (∃ (g : Fin 32) (f : BitVec 16) (s : State), s.clusterOn g = true) :=
  ⟨⟨31, 163840, up.modOsc 31 (fun o => { o with phase := .window 0 }), 0, by decide⟩,
   ⟨31, 0, up.modOsc 31 (fun o => { o with phase := .measure false }), false, by decide⟩,
   ⟨31, 0, up.setObjNum 0x4021 1 1, by decide⟩,
   ⟨31, up, by decide⟩,
   ⟨0, 0xFFFF, up, by decide⟩⟩

theorem witness_RetrimRequestWhileTrimmingHasNoEffect :
  (∃ (g : Fin 32) (s : State), s.clusters[g].osc.trimState = .trimming) ∧
  (∃ (g : Fin 32) (count : Nat) (s : State) (again : Bool), s.clusterOn g = true ∧
      s.clusters[g].osc.phase = .measure again ∧ trimRepeats count again s.clusters[g].osc = false) :=
  ⟨⟨31, up.modOsc 31 trimStart, by decide⟩,
   ⟨31, 163840, up.modOsc 31 (fun o => { o with phase := .measure false }), false, by decide⟩⟩

theorem witness_FifoStoresTakesAndCrosses :
  (∃ (f : FifoId) (bits : Nat) (s : State), s.fifoWorks f = true ∧ (s.fifo f).full = false ∧
      fifoMaxPacket f.kind = none) ∧
  (∃ (f : FifoId) (m : Nat) (s : State), s.fifoWorks f = true ∧ (s.fifo f).full = false ∧
      fifoMaxPacket f.kind = some m ∧ openPacket (s.fifo f).items = none) ∧
  (∃ (f : FifoId) (m n bits : Nat) (s : State), s.fifoWorks f = true ∧ (s.fifo f).full = false ∧
      fifoMaxPacket f.kind = some m ∧ openPacket (s.fifo f).items = some n ∧ n + 1 ≤ m) ∧
  (∃ (f : FifoId) (m n bits : Nat) (abort : Bool) (s : State), s.fifoWorks f = true ∧ (s.fifo f).full = false ∧
      fifoMaxPacket f.kind = some m ∧ openPacket (s.fifo f).items = some n ∧ n ≤ m) ∧
  (∃ (f : FifoId) (put : FifoPut) (s : State), ((s.fifo f).full = true ∨
      ((fifoMaxPacket f.kind).isSome = true ∧ put = .head ∧ (openPacket (s.fifo f).items).isSome = true) ∨
      (∃ bits m, fifoMaxPacket f.kind = some m ∧ put = .data bits ∧
      ∀ n, openPacket (s.fifo f).items = some n → m < n + 1) ∨
      (∃ bits a m, fifoMaxPacket f.kind = some m ∧ put = .last bits a ∧
      ∀ n, openPacket (s.fifo f).items = some n → m < n) ∨
      (fifoMaxPacket f.kind = none ∧ ∀ bits, put ≠ .data bits))) ∧
  (∃ (f : FifoId) (i : FifoItem) (rest : List FifoItem) (s : State), s.fifoWorks f = true ∧
      (s.fifo f).empty = false ∧ (s.fifo f).items = i :: rest) ∧
  (∃ (f : FifoId) (s : State), s.fifoWorks f = true) ∧
  (∃ (f : FifoId) (v : U32) (s : State), f.ok = true ∧ s.bedOn (regBed (fifoUnit f).1) = true ∧
      (regFenceUnit (fifoUnit f).1).any s.fenced = false ∧ v.toNat / 65536 < v.toNat % 65536 ∧
      v.toNat % 65536 ≤ fifoDepth f.kind) :=
  ⟨⟨⟨.hbmWrite, 767⟩, 5, up, by decide⟩,
   ⟨⟨.linkIn, 15⟩, 31, up, by decide⟩,
   ⟨⟨.linkIn, 15⟩, 31, 1, 5, { up with fifos := [(fifoKey ⟨.linkIn, 15⟩, { up.fifo ⟨.linkIn, 15⟩ with items := [⟨.head, 0, none, false⟩], wptr := 1 })] }, by decide⟩,
   ⟨⟨.linkIn, 15⟩, 31, 2, 5, true, { up with fifos := [(fifoKey ⟨.linkIn, 15⟩, { up.fifo ⟨.linkIn, 15⟩ with items := [⟨.head, 0, none, false⟩, ⟨.data, 5, none, false⟩], wptr := 2 })] }, by decide⟩,
   ⟨⟨.linkIn, 15⟩, .data 5, up, .inr (.inr (.inl ⟨5, 31, by decide, rfl, fun n h => by
      have : openPacket (up.fifo ⟨.linkIn, 15⟩).items = none := by decide
      rw [this] at h; cases h⟩))⟩,
   ⟨⟨.linkIn, 15⟩, ⟨.data, 5, none, false⟩, [], { up with fifos := [(fifoKey ⟨.linkIn, 15⟩,
      { up.fifo ⟨.linkIn, 15⟩ with items := [⟨.data, 5, none, false⟩], wptr := 1, wptrSeen := 1, empty := false })] }, by decide⟩,
   ⟨⟨.mgmtTx, 0⟩, up, by decide⟩,
   ⟨⟨.hbmWrite, 767⟩, 0x0001_0002#32, up, by decide⟩⟩

theorem witness_EmptyFifoReadReturnsIdleItem :
    ∃ (f : FifoId) (s : State), s.fifoWorks f = true ∧ (s.fifo f).empty = true :=
  ⟨⟨.hbmRead, 767⟩, up, by decide⟩

theorem witness_WatermarksOutOfOrderAreRefused :
  (∃ (f : FifoId) (v : U32) (s : State), f.ok = true ∧ s.bedOn (regBed (fifoUnit f).1) = true ∧
      (regFenceUnit (fifoUnit f).1).any s.fenced = false ∧
      (v.toNat % 65536 ≤ v.toNat / 65536 ∨ fifoDepth f.kind < v.toNat % 65536)) ∧
  (∃ (f : FifoId) (v : U32) (s : State), f.ok = true ∧ s.bedOn (regBed (fifoUnit f).1) = true ∧
      (regFenceUnit (fifoUnit f).1).any s.fenced = false ∧ v.toNat / 65536 < v.toNat % 65536 ∧
      v.toNat % 65536 ≤ fifoDepth f.kind) :=
  ⟨⟨⟨.linkIn, 0⟩, 0x0002_0002#32, up, by decide⟩,
   ⟨⟨.linkIn, 0⟩, 0x0001_0002#32, up, by decide⟩⟩

theorem witness_PausesAreSentAndKept :
  (∃ (h : Fin 2) (sub : Fin 4) (prio : Fin 8) (time : BitVec 16) (s : State), s.hostLive h = true ∧
      s.subExists h sub = true ∧ s.hosts[h].subs[sub].link = true) ∧
  (∃ (h : Fin 2) (sub : Fin 4) (up : SubLink) (s : State), s.bedOn (bedHost h.val) = true ∧
      s.subExists h sub = true ∧ s.hosts[h].subs[sub].link ≠ up.isUp ∧ (up.isUp && s.hosts[h].unclocked) = false) :=
  ⟨⟨1, 0, 7, 0xFFFF, up, by decide⟩,
   ⟨1, 0, .down, up, by decide⟩⟩

theorem witness_BallastFillsWindsDownAndRamps :
  (∃ (n : Fin 256) (s : State), s.clusterLive (clusterOfCore n) = true ∧
      s.beds[bedCluster (clusterOfCore n).val].target = true ∧ s.cores[n].mtx.ballast ≠ .woundDown ∧
      s.arrayReady n = false ∧ s.matrixFires n = false ∧ (s.idleParams s.cores[n].mtx).gapNs ≠ 0) ∧
  (∃ (n : Fin 256) (s : State), (s.beds[bedCluster (clusterOfCore n).val].target = false ∨
      s.clusterLive (clusterOfCore n) = false ∨ s.cores[n].mtx.ballast = .woundDown ∨ s.arrayReady n = true ∨
      s.matrixFires n = true)) ∧
  (∃ (n : Fin 256) (s : State), s.clusterLive (clusterOfCore n) = true ∧ s.cores[n].mtx.ballast ≠ .woundDown ∧
      s.arrayReady n = false ∧ s.matrixFires n = false ∧ (s.idleParams s.cores[n].mtx).gapNs ≠ 0) ∧
  (∃ (n : Fin 256) (q : Fin 4) (s : State), s.cores[n].mtx.ballast = .ramp q) :=
  ⟨⟨255, up.modMatrix 255 (fun m => { m with ballast := .ballast, gapNs := 1 }), by decide⟩,
   ⟨0, up.modMatrix 0 (fun m => { m with ballast := .woundDown }), by decide⟩,
   ⟨0, up.modMatrix 0 (fun m => { m with ballast := .ballast, gapNs := 1 }), by decide⟩,
   ⟨255, 3, up.modMatrix 255 (fun m => { m with ballast := .ramp 3 }), by decide⟩⟩

theorem witness_TokenPostsCountInTheirBank :
  (∃ (i : Nat) (p : Post) (s : State), s.posts[i]? = some p ∧ (s.posts.take i).any (samePath p) = false ∧
      s.clusterLive p.cluster = true ∧
      (p.any = true ∨ p.tag = s.clusters[p.cluster].season ∨ p.tag = s.clusters[p.cluster].season + 1)) ∧
  (∃ (i : Nat) (p : Post) (s : State), s.posts[i]? = some p ∧ (s.posts.take i).any (samePath p) = false ∧
      p.any = false ∧ s.clusterLive p.cluster = true ∧ p.tag < s.clusters[p.cluster].season) ∧
  (∃ (i : Nat) (p : Post) (s : State), s.posts[i]? = some p ∧ (s.posts.take i).any (samePath p) = false ∧
      p.any = false ∧ s.clusterLive p.cluster = true ∧ s.clusters[p.cluster].season + 1 < p.tag) ∧
  (∃ (i : Nat) (p : Post) (g : Fin 32) (s : State), s.posts[i]? = some p ∧
      (s.posts.take i).any (samePath p) = false ∧ p.source = some g.val ∧ s.clusterLive p.cluster = false) ∧
  (∃ (i : Nat) (p : Post) (s : State), s.posts[i]? = some p ∧ (s.posts.take i).any (samePath p) = true) :=
  ⟨⟨0, ⟨some 0, 31, 4095, 1, false, 1⟩, { up with posts := [⟨some 0, 31, 4095, 1, false, 1⟩] }, by decide⟩,
   ⟨0, ⟨some 0, 31, 4095, 0, false, 1⟩,
    { up.modCluster 31 (fun c => { c with season := 1 }) with posts := [⟨some 0, 31, 4095, 0, false, 1⟩] }, by decide⟩,
   ⟨0, ⟨some 0, 31, 4095, 2, false, 1⟩, { up with posts := [⟨some 0, 31, 4095, 2, false, 1⟩] }, by decide⟩,
   ⟨0, ⟨some 5, 31, 0, 0, false, 1⟩, 5,
    { up.modBed (bedCluster 31) (fun b => { b with phase := .off }) with posts := [⟨some 5, 31, 0, 0, false, 1⟩] }, by decide⟩,
   ⟨1, ⟨some 0, 31, 1, 0, false, 1⟩, { up with posts := [⟨some 0, 31, 0, 0, false, 1⟩, ⟨some 0, 31, 1, 0, false, 1⟩] }, by decide⟩⟩

theorem witness_DescriptorsStartAndComplete :
  (∃ (g : Fin 32) (q : QueueId) (d : QDesc) (s : State), s.clusterAccepts g = true ∧ s.queueLive g q = true ∧
      s.headDesc g q = some d ∧ headState s.clusters[g] q d = .ready) ∧
  (∃ (g : Fin 32) (q : QueueId) (d : QDesc) (s : State), s.headDesc g q = some d ∧
      headState s.clusters[g] q d = .waits) ∧
  (∃ (g : Fin 32) (q : QueueId) (d : QDesc) (o : Nat) (s : State), s.clusterAccepts g = true ∧
      s.queueLive g q = true ∧ s.headDesc g q = some d ∧ headerBad q d.desc = some o) ∧
  (∃ (g : Fin 32) (q : QueueId) (r : Running) (s : State), s.findRunning g q .started 0 = some r) ∧
  (∃ (g : Fin 32) (q : QueueId) (r : Running) (s : State), s.clusterLive g = true ∧
      (s.queue g q).running.find? (fun r => decide (r.phase = .finished)) = some r ∧
      (r.summary = none ∨ s.clusters[g].summaries.length < 64)) ∧
  (      ∃ (g : Fin 32) (q : QueueId) (r : Running) (s : State), (s.queue g q).running.find? (fun r => decide (r.phase = .finished)) = some r ∧
      r.summary.isSome = true ∧ 64 ≤ s.clusters[g].summaries.length) :=
  ⟨⟨31, .update, dsc 0 0 0 0 0 0 0 0, up.enqueue 31 .update (dsc 0 0 0 0 0 0 0 0), by decide⟩,
   ⟨31, .rake, dsc 1 1 0 0 0 0 0 0, up.enqueue 31 .rake (dsc 1 1 0 0 0 0 0 0), by decide⟩,
   (have h := of_some (o := headerBad .rake (dsc 1 (1#64 <<< 63) 0 0 0 0 0 0).desc) (by decide);
    ⟨31, .rake, dsc 1 (1#64 <<< 63) 0 0 0 0 0 0, h.choose, up.enqueue 31 .rake (dsc 1 (1#64 <<< 63) 0 0 0 0 0 0), by decide, by decide,
      by decide, h.choose_spec⟩),
   ⟨31, .thread 7, act (dsc 0 0 0 0 0 0 0 0) .started, busy 31 (.thread 7) (act (dsc 0 0 0 0 0 0 0 0) .started), by decide⟩,
   ⟨31, .matrix 0, act (dsc 0x101 0 0 0 0 0 0 0) .finished,
    busy 31 (.matrix 0) (act (dsc 0x101 0 0 0 0 0 0 0) .finished), by decide⟩,
   ⟨31, .matrix 0, { act (dsc 1 0 0 0 0 0 0 0) .finished with summary := some ⟨1, 2, 3, 4⟩ },
    (busy 31 (.matrix 0) { act (dsc 1 0 0 0 0 0 0 0) .finished with summary := some ⟨1, 2, 3, 4⟩ }).modCluster 31
      (fun c => { c with summaries := List.replicate 64 ⟨1, 2, 3, 4⟩ }), by decide⟩⟩

theorem witness_PassedSeasonFaultsAtTheHead :
    ∃ (g : Fin 32) (q : QueueId) (d : QDesc) (s : State), s.clusterAccepts g = true ∧ s.queueLive g q = true ∧
      s.headDesc g q = some d ∧ headerBad q d.desc = none ∧ d.desc.waitSeason ≠ 0 ∧
      d.desc.waitSeason < s.clusters[g].season :=
  ⟨31, .rake, dsc 1 1 0 0 0 0 0 0,
    (up.enqueue 31 .rake (dsc 1 1 0 0 0 0 0 0)).modCluster 31 (fun c => { c with season := 2 }), by decide⟩

theorem witness_LaunchEntriesFireInOrder :
  (∃ (g : Fin 32) (i : Nat) (e : LaunchEntry) (q : QueueId) (bs : List Byte) (s : State), s.clusterAccepts g = true ∧
      s.clusters[g].active = true ∧ s.launchNext g = some (i, e) ∧ queueOfCode e.queue = some q ∧
      s.readChecked (.ofCluster g .any) e.descAddr 64 = .ok bs) ∧
  (∃ (g : Fin 32) (i : Nat) (e : LaunchEntry) (q : QueueId) (f : Fail) (s : State), s.clusterAccepts g = true ∧
      s.clusters[g].active = true ∧ s.launchNext g = some (i, e) ∧ queueOfCode e.queue = some q ∧
      s.readChecked (.ofCluster g .any) e.descAddr 64 = .error f) ∧
  (∃ (g : Fin 32) (s : State), (s.launchNext g = none ∨ s.clusterAccepts g = false ∨ s.clusters[g].active = false)) :=
  ⟨⟨31, 255, ⟨0x4100_0000_0000_0000#64, 0x0001_0000_0000_1000#64, 0, 0, false⟩, .rake, List.replicate 64 0,
    up.modCluster 31 (fun c => { c with
      launch := [(255, ⟨0x4100_0000_0000_0000#64, 0x0001_0000_0000_1000#64, 0, 0, false⟩)] }), by decide⟩,
   (have h := of_fail (e := up.readChecked .any 0xF0_0000_0000 64) (by decide);
    ⟨31, 255, ⟨0x4100_0000_0000_0000#64, 0x0001_00F0_0000_0000#64, 0, 0, false⟩, .rake, h.choose, up.modCluster 31 (fun c => { c with
      launch := [(255, ⟨0x4100_0000_0000_0000#64, 0x0001_00F0_0000_0000#64, 0, 0, false⟩)] }), by decide, by decide, by decide,
      by decide, h.choose_spec⟩),
   ⟨31, up, by decide⟩⟩

theorem witness_SeasonAdvanceIsOneActionUnlessHeld :
  (∃ (g : Fin 32) (s : State), s.clusterLive g = true ∧ s.clusters[g].active = true ∧
      s.clusters[g].mayAdvance = true) ∧
  (∃ (g : Fin 32) (s : State), s.clusters[g].seasonLimit ≤ s.clusters[g].season) ∧
  (∃ (g : Fin 32) (i : Nat) (e : LaunchEntry) (s : State), (i, e) ∈ s.clusters[g].launch ∧
      e.season = s.clusters[g].season ∧ (e.isLaunch = true ∨ (e.isBarrier = true ∧ e.released = false))) :=
  ⟨⟨31, up, by decide⟩,
   ⟨0, State.reset, by decide⟩,
   ⟨31, 255, ⟨0, 0x0001_0000_0000_0000#64, 0, 0, false⟩, up.modCluster 31 (fun c => { c with
      launch := [(255, ⟨0, 0x0001_0000_0000_0000#64, 0, 0, false⟩)] }), by decide⟩⟩

theorem witness_BarriersGatherAndRelease :
  (∃ (i : Nat) (a : Arrival) (g : Nat) (s : State), s.arrivals[i]? = some a ∧ a.sender = .cluster g ∧
      s.arrivalNamed a = true ∧ s.skewed a = false ∧ s.held.any (fun b => decide (b.scope = a.scope ∧
      b.season = a.season ∧ b.sender = a.sender)) = false ∧
      State.clustersIn { s with held := s.held ++ [a] } a.scope (arrivalDie a) a.season = false) ∧
  (∃ (i : Nat) (a : Arrival) (g : Nat) (s : State), s.arrivals[i]? = some a ∧ a.sender = .cluster g ∧
      (a.scope = .die ∨ a.scope = .device) ∧ s.arrivalNamed a = true ∧ s.skewed a = false ∧
      s.held.any (fun b => decide (b.scope = a.scope ∧ b.season = a.season ∧ b.sender = a.sender)) = false ∧
      State.clustersIn { s with held := s.held ++ [a] } a.scope (arrivalDie a) a.season = true) ∧
  (∃ (i : Nat) (a : Arrival) (g : Nat) (s : State), s.arrivals[i]? = some a ∧ a.sender = .cluster g ∧
      (s.arrivalNamed a = false ∨ s.skewed a = true)) ∧
  (∃ (i : Nat) (r : Release) (g : Fin 32) (s : State), s.releases[i]? = some r ∧ g ∈ s.participants r.scope r.die ∧
      s.clusterFenced g = false ∧ s.clusters[g].season = r.season ∧ s.clusters[g].sent.contains r.scope = true) ∧
  (∃ (k : RecoveryKind) (s : State), (s.health.recovery.contains k = false ∨
      (s.aon.rtc - s.health.recoverySince).toNat ≤ 250000)) ∧
  (∃ (k : RecoveryKind) (s : State), s.health.recovery.contains k = true ∧ s.health.recoveryRaised = false ∧
      250000 < (s.aon.rtc - s.health.recoverySince).toNat) :=
  ⟨⟨0, ⟨.die, 0, .cluster 0, 0, 0⟩, 0, { up.modJob (fun j => { j with
      manifest := some { (default : Manifest) with participants := [(.die, 0), (.die, 1)] } }) with arrivals := [⟨.die, 0, .cluster 0, 0, 0⟩] },
    by decide⟩,
   ⟨0, ⟨.die, 0, .cluster 0, 0, 0⟩, 0, { up.modJob (fun j => { j with
      manifest := some { (default : Manifest) with participants := [(.die, 0)] } }) with arrivals := [⟨.die, 0, .cluster 0, 0, 0⟩] },
    by decide⟩,
   ⟨0, ⟨.die, 0, .cluster 0, 0, 0⟩, 0, { up with arrivals := [⟨.die, 0, .cluster 0, 0, 0⟩] }, by decide⟩,
   ⟨0, ⟨.die, 0, some 3, 7⟩, 31, { (up.modJob (fun j => { j with
      manifest := some { (default : Manifest) with participants := [(.die, 31)] } })).modCluster 31 (fun c => { c with sent := [.die] })
      with releases := [⟨.die, 0, some 3, 7⟩] }, by decide⟩,
   ⟨.fence, up.modHealth (fun h => { h with recovery := [.fence], recoverySince := 9999750000#64 }), by decide⟩,
   ⟨.fence, up.modHealth (fun h => { h with recovery := [.fence], recoverySince := 9999749999#64 }), by decide⟩⟩

theorem witness_SequencerArithmeticWritesOneRegister :
  (∃ (g : Fin 32) (i : SeqInstr) (s : State), s.clusters[g].seq.pc + 1 < 2048 ∧ Runs s g 0x00 i) ∧
  (∃ (g : Fin 32) (i : SeqInstr) (s : State), s.clusters[g].seq.pc + 1 < 2048 ∧ Runs s g 0x01 i) ∧
  (∃ (g : Fin 32) (i : SeqInstr) (s : State), s.clusters[g].seq.pc + 1 < 2048 ∧ Runs s g 0x02 i) ∧
  (∃ (g : Fin 32) (i : SeqInstr) (s : State), s.clusters[g].seq.pc + 1 < 2048 ∧ Runs s g 0x03 i) ∧
  (∃ (g : Fin 32) (i : SeqInstr) (s : State), s.clusters[g].seq.pc + 1 < 2048 ∧ Runs s g 0x04 i) ∧
  (∃ (g : Fin 32) (i : SeqInstr) (s : State), s.clusters[g].seq.pc + 1 < 2048 ∧ Runs s g 0x05 i) ∧
  (∃ (g : Fin 32) (i : SeqInstr) (s : State), s.clusters[g].seq.pc + 1 < 2048 ∧ Runs s g 0x06 i) ∧
  (∃ (g : Fin 32) (i : SeqInstr) (s : State), s.clusters[g].seq.pc + 1 < 2048 ∧ Runs s g 0x07 i) ∧
  (∃ (g : Fin 32) (i : SeqInstr) (s : State), s.clusters[g].seq.pc + 1 < 2048 ∧ Runs s g 0x08 i) ∧
  (∃ (g : Fin 32) (i : SeqInstr) (s : State), s.clusters[g].seq.pc + 1 < 2048 ∧ Runs s g 0x09 i) ∧
  (∃ (g : Fin 32) (i : SeqInstr) (s : State), s.clusters[g].seq.pc + 1 < 2048 ∧ Runs s g 0x0A i) ∧
  (∃ (g : Fin 32) (i : SeqInstr) (s : State), s.clusters[g].seq.pc + 1 < 2048 ∧ Runs s g 0x0B i) ∧
  (∃ (g : Fin 32) (i : SeqInstr) (s : State), s.clusters[g].seq.pc + 1 < 2048 ∧ i.sd = 0 ∧ Runs s g 0x01 i) ∧
  (∃ (g : Fin 32) (i : SeqInstr) (s : State), s.clusters[g].seq.pc + 1 < 2048 ∧ i.sd = 0 ∧ Runs s g 0x03 i) ∧
  (∃ (g : Fin 32) (i : SeqInstr) (s : State), s.clusters[g].seq.pc + 1 < 2048 ∧ i.sd = 0 ∧ Runs s g 0x0B i) ∧
  (∃ (g : Fin 32) (i : SeqInstr) (s : State), s.clusters[g].seq.pc + 1 < 2048 ∧ i.sd = 0 ∧ Runs s g 0x19 i) :=
  ⟨⟨31, seqDecode 0x0000000000000000#64, runs 0x0000000000000000#64 31 0xFFFFFFFFFFFFFFF8#64, by unfold Runs; decide⟩,
   ⟨31, seqDecode 0xFFFFFFFF00001F01#64, runs 0xFFFFFFFF00001F01#64 31 0xFFFFFFFFFFFFFFF8#64, by unfold Runs; decide⟩,
   ⟨31, seqDecode 0xFFFFFFFF00001F02#64, runs 0xFFFFFFFF00001F02#64 31 0xFFFFFFFFFFFFFFF8#64, by unfold Runs; decide⟩,
   ⟨31, seqDecode 0x00000000007FFF03#64, runs 0x00000000007FFF03#64 31 0xFFFFFFFFFFFFFFF8#64, by unfold Runs; decide⟩,
   ⟨31, seqDecode 0x800000000003FF04#64, runs 0x800000000003FF04#64 31 0xFFFFFFFFFFFFFFF8#64, by unfold Runs; decide⟩,
   ⟨31, seqDecode 0x00000000007FFF05#64, runs 0x00000000007FFF05#64 31 0xFFFFFFFFFFFFFFF8#64, by unfold Runs; decide⟩,
   ⟨31, seqDecode 0x00000000007FFF06#64, runs 0x00000000007FFF06#64 31 0xFFFFFFFFFFFFFFF8#64, by unfold Runs; decide⟩,
   ⟨31, seqDecode 0x00000000007FFF07#64, runs 0x00000000007FFF07#64 31 0xFFFFFFFFFFFFFFF8#64, by unfold Runs; decide⟩,
   ⟨31, seqDecode 0x00000000007FFF08#64, runs 0x00000000007FFF08#64 31 0xFFFFFFFFFFFFFFF8#64, by unfold Runs; decide⟩,
   ⟨31, seqDecode 0x0000003F0003FF09#64, runs 0x0000003F0003FF09#64 31 0xFFFFFFFFFFFFFFF8#64, by unfold Runs; decide⟩,
   ⟨31, seqDecode 0x0000003F0003FF0A#64, runs 0x0000003F0003FF0A#64 31 0xFFFFFFFFFFFFFFF8#64, by unfold Runs; decide⟩,
   ⟨31, seqDecode 0x00000000007FFF0B#64, runs 0x00000000007FFF0B#64 31 0xFFFFFFFFFFFFFFF8#64, by unfold Runs; decide⟩,
   ⟨31, seqDecode 0x0000000500000001#64, runs 0x0000000500000001#64 31 0xFFFFFFFFFFFFFFF8#64, by unfold Runs; decide⟩,
   ⟨31, seqDecode 0x00000000007FE003#64, runs 0x00000000007FE003#64 31 0xFFFFFFFFFFFFFFF8#64, by unfold Runs; decide⟩,
   ⟨31, seqDecode 0x00000000007FE00B#64, runs 0x00000000007FE00B#64 31 0xFFFFFFFFFFFFFFF8#64, by unfold Runs; decide⟩,
   ⟨31, seqDecode 0x0000000300000019#64, runs 0x0000000300000019#64 31 0xFFFFFFFFFFFFFFF8#64, by unfold Runs; decide⟩⟩

theorem witness_SequencerLoadsAndStores :
  (∃ (g : Fin 32) (i : SeqInstr) (a : Nat) (bs : List Byte) (s : State), Runs s g 0x0C i ∧
      a = (s.clusters[g].seq.reg i.sa + (BitVec.ofNat 32 i.imm).signExtend 64).toNat ∧ a % 8 = 0 ∧
      ¬ (unitBase ≤ a ∧ a < linkBase + 0x20000000) ∧ s.readChecked (.ofCluster g (.req 0)) a 8 = .ok bs) ∧
  (∃ (g : Fin 32) (i : SeqInstr) (a : Nat) (s : State), Runs s g 0x0C i ∧
      a = (s.clusters[g].seq.reg i.sa + (BitVec.ofNat 32 i.imm).signExtend 64).toNat ∧ a % 8 = 0 ∧ unitBase ≤ a ∧
      a < linkBase + 0x20000000 ∧ s.accessFail (.ofCluster g (.req 0)) a 8 = none) ∧
  (∃ (g : Fin 32) (r : Fin 32) (v : Word) (s : State), s.clusters[g].seq.load = some (r, v) ∧
      s.clusterLive g = true ∧ s.clusters[g].seq.pc + 1 < 2048) ∧
  (∃ (g : Fin 32) (i : SeqInstr) (a : Nat) (s : State), Runs s g 0x0D i ∧ s.clusters[g].seq.pc + 1 < 2048 ∧
      a = (s.clusters[g].seq.reg i.sa + (BitVec.ofNat 32 i.imm).signExtend 64).toNat ∧ a % 8 = 0 ∧
      ¬ (unitBase ≤ a ∧ a < linkBase + 0x20000000) ∧ s.accessFail (.ofCluster g (.req 1)) a 8 = none ∧
      s.mergeFail a 8 = none) ∧
  (∃ (g : Fin 32) (i : SeqInstr) (a : Nat) (s : State), Runs s g 0x0D i ∧
      a = (s.clusters[g].seq.reg i.sa + (BitVec.ofNat 32 i.imm).signExtend 64).toNat ∧ a % 8 = 0 ∧ unitBase ≤ a ∧
      a < linkBase + 0x20000000 ∧ s.accessFail (.ofCluster g (.req 1)) a 8 = none) :=
  ⟨⟨31, seqDecode 0x000000100000410C#64, 0xBFFFFFFFF8, List.replicate 8 0, runs 0x000000100000410C#64 2 0xBFFFFFFFE8#64, by unfold Runs; decide⟩,
   ⟨31, seqDecode 0x000000100000410C#64, 0x12008500010, runs 0x000000100000410C#64 2 0x12008500000#64, by unfold Runs; decide⟩,
   ⟨31, 31, 5, up.modSeq 31 (fun q => { q with load := some (31, 5), pc := 2046 }), by decide⟩,
   ⟨31, seqDecode 0xFFFFFFF8000C400D#64, 0, runs 0xFFFFFFF8000C400D#64 2 8#64, by unfold Runs; decide⟩,
   ⟨31, seqDecode 0xFFFFFFF8000C400D#64, 0x12008500010, runs 0xFFFFFFF8000C400D#64 2 0x12008500018#64, by unfold Runs; decide⟩⟩

theorem witness_SequencerBranchesJump :
  (∃ (g : Fin 32) (i : SeqInstr) (s : State), Runs s g 0x0E i ∧
      seqCompare i.cond (s.clusters[g].seq.reg i.sa) (s.clusters[g].seq.reg i.sb) = true ∧
      (BitVec.ofNat 64 s.clusters[g].seq.pc + (BitVec.ofNat 32 i.imm).signExtend 64).toNat < 2048) ∧
  (∃ (g : Fin 32) (i : SeqInstr) (s : State), Runs s g 0x0E i ∧
      seqCompare i.cond (s.clusters[g].seq.reg i.sa) (s.clusters[g].seq.reg i.sb) = false ∧
      s.clusters[g].seq.pc + 1 < 2048) ∧
  (∃ (g : Fin 32) (i : SeqInstr) (s : State), Runs s g 0x0F i ∧
      (BitVec.ofNat 64 s.clusters[g].seq.pc + (BitVec.ofNat 32 i.imm).signExtend 64).toNat < 2048) ∧
  (∃ (g : Fin 32) (i : SeqInstr) (s : State), Runs s g 0x10 i ∧ (s.clusters[g].seq.reg i.sa).toNat < 2048) :=
  ⟨⟨31, seqDecode 0x000007FF008C400E#64, runs 0x000007FF008C400E#64 2 5, by unfold Runs; decide⟩,
   ⟨31, seqDecode 0x000007FF000C400E#64, runs 0x000007FF000C400E#64 2 5, by unfold Runs; decide⟩,
   ⟨31, seqDecode 0x000007FF00001F0F#64, runs 0x000007FF00001F0F#64 31 0xFFFFFFFFFFFFFFF8#64, by unfold Runs; decide⟩,
   ⟨31, seqDecode 0x0000000000004010#64, runs 0x0000000000004010#64 2 2047, by unfold Runs; decide⟩⟩

theorem witness_SequencerPostsAndWritesEntries :
  (∃ (g : Fin 32) (i : SeqInstr) (s : State), s.clusters[g].seq.pc + 1 < 2048 ∧
      ∃ (q : QueueId) (bs : List Byte), Runs s g 0x11 i ∧ queueOfCode (i.imm % 256) = some q ∧
      (s.clusters[g].seq.reg i.sa).toNat % 8 = 0 ∧ s.postCredit g q = true ∧
      s.readChecked (.ofCluster g .any) (s.clusters[g].seq.reg i.sa).toNat 64 = .ok bs) ∧
  (∃ (g : Fin 32) (i : SeqInstr) (s : State), s.clusters[g].seq.pc + 1 < 2048 ∧ Runs s g 0x12 i) ∧
  (∃ (g : Fin 32) (i : SeqInstr) (s : State), s.clusters[g].seq.pc + 1 < 2048 ∧ Runs s g 0x13 i) ∧
  (∃ (g : Fin 32) (i : SeqInstr) (s : State), s.clusters[g].seq.pc + 1 < 2048 ∧
      ∃ (bs : List Byte) (e : LaunchEntry), Runs s g 0x16 i ∧ (s.clusters[g].seq.reg i.sa).toNat % 8 = 0 ∧
      s.readChecked (.ofCluster g .any) (s.clusters[g].seq.reg i.sa).toNat 32 = .ok bs ∧
      wordsOf bs 4 = [e.w0, e.w1, e.w2, e.w3] ∧ launchOk e = true ∧
      (e.kind = 0 ∨ s.clusters[g].season ≤ e.season)) ∧
  (∃ (g : Fin 32) (i : SeqInstr) (s : State), s.clusters[g].seq.pc + 1 < 2048 ∧ Runs s g 0x17 i ∧
      (s.clusters[g].seq.reg i.sa).toNat < 2 ^ 48) :=
  ⟨⟨31, seqDecode 0x0000004800004011#64, runs 0x0000004800004011#64 2 0x40#64, by decide, .update, List.replicate 64 0, by unfold Runs; decide⟩,
   ⟨31, seqDecode 0x0003FFFF00000012#64, runs 0x0003FFFF00000012#64 31 0xFFFFFFFFFFFFFFF8#64, by unfold Runs; decide⟩,
   ⟨31, seqDecode 0x000FFFFF00000013#64, runs 0x000FFFFF00000013#64 31 0xFFFFFFFFFFFFFFF8#64, by unfold Runs; decide⟩,
   ⟨31, seqDecode 0x000000FF00004016#64, runs 0x000000FF00004016#64 2 0x40#64, by decide, List.replicate 32 0, .unused, by unfold Runs; decide⟩,
   ⟨31, seqDecode 0x0000000000004017#64, runs 0x0000000000004017#64 2 0xFFFFFFFFFFFF#64, by unfold Runs; decide⟩⟩

theorem witness_SequencerWaitsReadsAndSignals :
  (∃ (g : Fin 32) (i : SeqInstr) (s : State), ∃ q : QueueId, Runs s g 0x11 i ∧ queueOfCode (i.imm % 256) = some q ∧
      (s.clusters[g].seq.reg i.sa).toNat % 8 = 0 ∧ s.postCredit g q = false) ∧
  (∃ (g : Fin 32) (i : SeqInstr) (s : State), Runs s g 0x14 i ∧
      s.clusters[g].present i.imm s.clusters[g].season = false) ∧
  (∃ (g : Fin 32) (i : SeqInstr) (s : State), Runs s g 0x14 i ∧
      s.clusters[g].present i.imm s.clusters[g].season = true ∧ s.clusters[g].seq.pc + 1 < 2048) ∧
  (∃ (g : Fin 32) (i : SeqInstr) (s : State), Runs s g 0x15 i ∧
      s.clusters[g].season < (s.clusters[g].seq.reg i.sa).toNat) ∧
  (∃ (g : Fin 32) (i : SeqInstr) (s : State), Runs s g 0x15 i ∧
      (s.clusters[g].seq.reg i.sa).toNat ≤ s.clusters[g].season ∧ s.clusters[g].seq.pc + 1 < 2048) ∧
  (∃ (g : Fin 32) (i : SeqInstr) (s : State), Runs s g 0x18 i ∧ s.clusters[g].summaries = []) ∧
  (∃ (g : Fin 32) (i : SeqInstr) (s : State), s.clusterLive g = true ∧ s.seqMayResume g = true) ∧
  (∃ (g : Fin 32) (i : SeqInstr) (s : State), ∃ (x : Summary) (rest : List Summary), Runs s g 0x18 i ∧
      s.clusters[g].summaries = x :: rest ∧ s.clusters[g].seq.pc + 1 < 2048) ∧
  (∃ (g : Fin 32) (i : SeqInstr) (s : State), Runs s g 0x19 i ∧ s.clusters[g].seq.pc + 1 < 2048) ∧
  (∃ (g : Fin 32) (i : SeqInstr) (s : State), Runs s g 0x1A i ∧ s.clusters[g].seq.pc + 1 < 2048) ∧
  (∃ (g : Fin 32) (i : SeqInstr) (s : State), Runs s g 0x1B i) :=
  ⟨⟨31, seqDecode 0x0000004800004011#64, (runs 0x0000004800004011#64 2 0x40#64).modQueue 31 .update (fun x => { x with waiting := List.replicate 4 (dsc 0 0 0 0 0 0 0 0) }), .update, by unfold Runs; decide⟩,
   ⟨31, seqDecode 0x00000FFF00000014#64, (runs 0x00000FFF00000014#64 31 0xFFFFFFFFFFFFFFF8#64).modCluster 31 (fun c => { c with tokens := [(4095, ⟨0, 0, 1⟩)] }), by unfold Runs; decide⟩,
   ⟨31, seqDecode 0x00000FFF00000014#64, (runs 0x00000FFF00000014#64 31 0xFFFFFFFFFFFFFFF8#64).modCluster 31 (fun c => { c with tokens := [(4095, ⟨1, 0, 1⟩)] }), by unfold Runs; decide⟩,
   ⟨31, seqDecode 0x0000000000004015#64, runs 0x0000000000004015#64 2 1, by unfold Runs; decide⟩,
   ⟨31, seqDecode 0x0000000000004015#64, runs 0x0000000000004015#64 2 0, by unfold Runs; decide⟩,
   ⟨31, seqDecode 0x0000010300000118#64, runs 0x0000010300000118#64 31 0xFFFFFFFFFFFFFFF8#64, by unfold Runs; decide⟩,
   ⟨31, seqDecode 0x0000000000004015#64, (runs 0x0000000000004015#64 2 0).modSeq 31 (fun q => { q with state := .waitSeason }), by decide⟩,
   ⟨31, seqDecode 0x0000010300000118#64, (runs 0x0000010300000118#64 31 0xFFFFFFFFFFFFFFF8#64).modCluster 31 (fun c => { c with summaries := [⟨1, 2, 3, 4⟩] }), ⟨1, 2, 3, 4⟩, [], by unfold Runs; decide⟩,
   ⟨31, seqDecode 0x0000000200000119#64, runs 0x0000000200000119#64 31 0xFFFFFFFFFFFFFFF8#64, by unfold Runs; decide⟩,
   ⟨31, seqDecode 0x0000FFFF000C411A#64, runs 0x0000FFFF000C411A#64 31 0xFFFFFFFFFFFFFFF8#64, by unfold Runs; decide⟩,
   ⟨31, seqDecode 0x000000000000001B#64, runs 0x000000000000001B#64 31 0xFFFFFFFFFFFFFFF8#64, by unfold Runs; decide⟩⟩

theorem witness_SequencerFaultsStopIt :
  (∃ (g : Fin 32) (i : SeqInstr) (s : State), s.seqRuns g = true ∧ seqDecode s.clusters[g].seq.word = i ∧
      seqWordBad s.clusters[g].seq.word = true ∧ i.opc = 0x19) ∧
  (∃ (g : Fin 32) (i : SeqInstr) (s : State), s.seqRuns g = true ∧ seqDecode s.clusters[g].seq.word = i ∧
      seqWordBad s.clusters[g].seq.word = true ∧ i.opc = 0x0E) ∧
  (∃ (g : Fin 32) (i : SeqInstr) (s : State), s.seqRuns g = true ∧ seqDecode s.clusters[g].seq.word = i ∧
      0x1B < i.opc) ∧
  (∃ (g : Fin 32) (i : SeqInstr) (s : State), s.seqRuns g = true ∧ seqDecode s.clusters[g].seq.word = i ∧
      seqWordBad s.clusters[g].seq.word = false ∧ i.opc = 0x0C ∧
      ∃ a : Nat, a = (s.clusters[g].seq.reg i.sa + (BitVec.ofNat 32 i.imm).signExtend 64).toNat ∧ a % 8 ≠ 0) ∧
  (∃ (g : Fin 32) (i : SeqInstr) (s : State), s.seqRuns g = true ∧ seqDecode s.clusters[g].seq.word = i ∧
      seqWordBad s.clusters[g].seq.word = false ∧ i.opc = 0x0D ∧
      ∃ a : Nat, a = (s.clusters[g].seq.reg i.sa + (BitVec.ofNat 32 i.imm).signExtend 64).toNat ∧ a % 8 ≠ 0) ∧
  (∃ (g : Fin 32) (i : SeqInstr) (s : State), s.seqRuns g = true ∧ seqDecode s.clusters[g].seq.word = i ∧
      seqWordBad s.clusters[g].seq.word = false ∧ i.opc = 0x11 ∧ (queueOfCode (i.imm % 256)).isSome = true ∧
      (s.clusters[g].seq.reg i.sa).toNat % 8 ≠ 0) ∧
  (∃ (g : Fin 32) (i : SeqInstr) (s : State), s.seqRuns g = true ∧ seqDecode s.clusters[g].seq.word = i ∧
      seqWordBad s.clusters[g].seq.word = false ∧ i.opc = 0x16 ∧ (s.clusters[g].seq.reg i.sa).toNat % 8 ≠ 0) ∧
  (∃ (g : Fin 32) (i : SeqInstr) (s : State), s.seqRuns g = true ∧ seqDecode s.clusters[g].seq.word = i ∧
      seqWordBad s.clusters[g].seq.word = false ∧ i.opc = 0x0C ∧
      ∃ (a : Nat) (f : Fail), a = (s.clusters[g].seq.reg i.sa + (BitVec.ofNat 32 i.imm).signExtend 64).toNat ∧
      a % 8 = 0 ∧ ¬ (unitBase ≤ a ∧ a < linkBase + 0x20000000) ∧
      s.readChecked (.ofCluster g (.req 0)) a 8 = .error f) ∧
  (∃ (g : Fin 32) (i : SeqInstr) (s : State), s.seqRuns g = true ∧ seqDecode s.clusters[g].seq.word = i ∧
      seqWordBad s.clusters[g].seq.word = false ∧ i.opc = 0x10 ∧ 2048 ≤ (s.clusters[g].seq.reg i.sa).toNat) ∧
  (∃ (g : Fin 32) (i : SeqInstr) (s : State), s.seqRuns g = true ∧ seqDecode s.clusters[g].seq.word = i ∧
      seqWordBad s.clusters[g].seq.word = false ∧ i.opc = 0x0E ∧
      ∃ a : Nat, a = (BitVec.ofNat 64 s.clusters[g].seq.pc + (BitVec.ofNat 32 i.imm).signExtend 64).toNat ∧
      2048 ≤ a ∧ seqCompare i.cond (s.clusters[g].seq.reg i.sa) (s.clusters[g].seq.reg i.sb) = true) ∧
  (∃ (g : Fin 32) (i : SeqInstr) (s : State), s.seqRuns g = true ∧ seqDecode s.clusters[g].seq.word = i ∧
      seqWordBad s.clusters[g].seq.word = false ∧ i.opc = 0x00 ∧ s.clusters[g].seq.pc = 2047) :=
  ⟨⟨31, seqDecode 0x0000000400000119#64, runs 0x0000000400000119#64 31 0xFFFFFFFFFFFFFFF8#64, by decide⟩,
   ⟨31, seqDecode 0x000000000300000E#64, runs 0x000000000300000E#64 31 0xFFFFFFFFFFFFFFF8#64, by decide⟩,
   ⟨31, seqDecode 0x000000000000001C#64, runs 0x000000000000001C#64 31 0xFFFFFFFFFFFFFFF8#64, by decide⟩,
   ⟨31, seqDecode 0x000000010000410C#64, runs 0x000000010000410C#64 2 8, by decide, by decide, by decide, by decide, 9, by decide⟩,
   ⟨31, seqDecode 0x000000040000400D#64, runs 0x000000040000400D#64 2 8, by decide, by decide, by decide, by decide, 12, by decide⟩,
   ⟨31, seqDecode 0x0000004800004011#64, runs 0x0000004800004011#64 2 4, by decide⟩,
   ⟨31, seqDecode 0x0000000000004016#64, runs 0x0000000000004016#64 2 4, by decide⟩,
   ⟨31, seqDecode 0x000000000000410C#64, runs 0x000000000000410C#64 2 0xFFFFFFFFFFFFFFF8#64, by decide, by decide, by decide, by decide, by
    obtain ⟨f, hf⟩ := of_fail (e := (runs 0x000000000000410C#64 2 0xFFFFFFFFFFFFFFF8#64).readChecked (.req 0) 0xFFFFFFFFFFFFFFF8 8)
      (by decide)
    exact ⟨0xFFFFFFFFFFFFFFF8, f, by decide, by decide, by decide, hf⟩⟩,
   ⟨31, seqDecode 0x0000000000004010#64, runs 0x0000000000004010#64 2 2048, by decide⟩,
   ⟨31, seqDecode 0x00000800008C400E#64, runs 0x00000800008C400E#64 2 5, by decide, by decide, by decide, by decide, 2048, by decide⟩,
   ⟨31, seqDecode 0x0000000000000000#64, runsLast 0x0000000000000000#64, by decide⟩⟩

theorem witness_SampleLaysOutItsPieces :
  (∃ (g : Fin 32) (d : QDesc) (s : State), s.clusterAccepts g = true ∧ s.headDesc g .harrow = some d ∧
      headState s.clusters[g] .harrow d = .ready ∧ d.desc.opcode = 1) ∧
  (∃ (g : Fin 32) (r : Running) (h : GraphHdr) (u : Unit) (st : GSt) (s : State), s.activeOp g .harrow 1 = some r ∧
      r.phase = .started ∧ s.sampleCheck g r.q (s.sampleCtl g r.q.desc) = .ok h ∧
      s.sampleRun g h (s.sampleCtl g r.q.desc) r.season = .ok u st) ∧
  (∃ (g : Fin 32) (r : Running) (h : GraphHdr) (f : Fail) (st : GSt) (s : State), s.activeOp g .harrow 1 = some r ∧
      r.phase = .started ∧ s.sampleCheck g r.q (s.sampleCtl g r.q.desc) = .ok h ∧
      s.sampleRun g h (s.sampleCtl g r.q.desc) r.season = .error f st) ∧
  (∃ (g : Fin 32) (l : TopoLine) (rest : List TopoLine) (s : State), s.clusters[g].harrow.fills = l :: rest) ∧
  (∃ (g : Fin 32) (r : Running) (s : State), s.activeOp g .harrow 2 = some r ∧
      firstNonzero (descWords r.q.desc) bodySpans = none) :=
  ⟨⟨0, sampleDsc, up.modQueue 0 .harrow (fun x => { x with waiting := [sampleDsc] }), by decide⟩,
   ⟨0, act sampleDsc .started, ⟨false, false, 1, 1, 0, 0⟩,
    (by
      obtain ⟨u, st, h⟩ := of_res (e := (graphed (act sampleDsc .started)).sampleRun 0 ⟨false, false, 1, 1, 0, 0⟩
        ((graphed (act sampleDsc .started)).sampleCtl 0 sampleDsc.desc) 0) (by decide +kernel)
      exact ⟨u, st, graphed (act sampleDsc .started), by decide +kernel, by decide +kernel, by decide +kernel, h⟩)⟩,
   ⟨0, act badSeeds .started, ⟨false, false, 1, 1, 0, 0⟩,
    (by
      obtain ⟨f, st, h⟩ := of_resFail (e := (graphed (act badSeeds .started)).sampleRun 0 ⟨false, false, 1, 1, 0, 0⟩
        ((graphed (act badSeeds .started)).sampleCtl 0 badSeeds.desc) 0) (by decide +kernel)
      exact ⟨f, st, graphed (act badSeeds .started), by decide +kernel, by decide +kernel, by decide +kernel, h⟩)⟩,
   ⟨0, ⟨5, []⟩, [], up.modHarrow 0 (fun h => { h with fills := [⟨5, []⟩] }), by decide +kernel⟩,
   ⟨0, act (dsc 2 0 0 0 0 0 0 0) .started, busy 0 .harrow (act (dsc 2 0 0 0 0 0 0 0) .started), by decide +kernel⟩⟩

theorem witness_PiecesGoIntoTheRingAndGathersFollow :
  (      ∃ (g : Fin 32) (r : Running) (j : SampleJob) (p : Piece) (rest : List Piece) (s : State), s.clusters[g].harrow.job = some j ∧
      s.activeOp g .harrow 1 = some r ∧ j.pieces = p :: rest ∧
      p.bytes.length ≤ ringFree s.clusters[g].harrow j.outLog2 ∧
      s.piecePlace g (ringParts s.clusters[g].harrow j p.bytes.length) = none) ∧
  (      ∃ (g : Fin 32) (r : Running) (j : SampleJob) (p : Piece) (rest : List Piece) (s : State), s.clusters[g].harrow.job = some j ∧
      s.activeOp g .harrow 1 = some r ∧ j.pieces = p :: rest ∧
      ringFree s.clusters[g].harrow j.outLog2 < p.bytes.length) ∧
  (∃ (g : Fin 32) (v : U32) (s : State), s.clusterLive g = true ∧ ringPasses s.clusters[g].harrow v = false) ∧
  (∃ (g : Fin 32) (v : U32) (s : State), s.clusterLive g = true ∧ ringPasses s.clusters[g].harrow v = true) ∧
  (      ∃ (g : Fin 32) (x : SpecPost) (rest : List SpecPost) (bs : List Byte) (s : State), s.clusters[g].harrow.toPost = x :: rest ∧
      s.credits g .rake ≠ 0 ∧ s.clusterLive g = true ∧
      s.readChecked (.ofCluster g .any) s.clusters[g].harrow.specTemplate.toNat 64 = .ok bs) ∧
  (∃ (g : Fin 32) (x : SpecCommand) (s : State), s.clusters[g].undecided = some x ∧
      s.clusters[g].confirmDue x = true) :=
  ⟨⟨0, act sampleDsc .working, sjob 16, piece1, [], (busy 0 .harrow (act sampleDsc .working)).modHarrow 0
      (fun h => { h with job := some (sjob 16), produced := 0xFF80, consumed := 0x100 }), by decide⟩,
   ⟨0, act sampleDsc .working, sjob 16, piece1, [], (busy 0 .harrow (act sampleDsc .working)).modHarrow 0
      (fun h => { h with job := some (sjob 16), produced := 0xFF01, consumed := 0 }), by decide⟩,
   ⟨0, 5, up.modHarrow 0 (fun h => { h with produced := 5 }), by decide⟩,
   ⟨0, 6, up.modHarrow 0 (fun h => { h with produced := 5 }), by decide⟩,
   ⟨0, ⟨0x100100, 1, true⟩, [], List.replicate 64 0, up.modHarrow 0
      (fun h => { h with toPost := [⟨0x100100, 1, true⟩], specTemplate := 0x2000 }), by decide⟩,
   ⟨0, ⟨0, 7, .undecided, 0⟩, up.modCluster 0 (fun c => { c with
      harrow := { c.harrow with spec := some ⟨0, 7, .undecided, 0⟩ }, tokens := [(7, ⟨0, 1, 1⟩)] }), by decide⟩⟩

theorem witness_GatherTakesItsRows :
  (      ∃ (g : Fin 32) (r : Running) (td : TableDesc) (row slot : Nat) (src : RowSource) (s : State), let c := rakeCtl r.q.desc
      r.phase = .started ∧ s.rakeJob g r = none ∧ s.rakeBad r.q.desc c = none ∧ s.table c.table = some td ∧
      c.spec = false ∧ c.count = 1 ∧ s.decayDue g = false ∧ s.readEntry g c 0 = .ok row ∧
      s.rowSource g c.table td 0 row = .ok (src, slot) ∧ s.rakeCheck g c td = .ok () ∧
      ∃ (bs : List Byte) (w : State), s.activeOp g .rake 1 = some r ∧ (s.rowLookup g c td row).1 = .record bs ∧
      s.writeChecked (.ofCluster g .any) c.dst (outRow td c.outFmt bs) = .ok w) ∧
  (      ∃ (g : Fin 32) (r : Running) (td : TableDesc) (row slot : Nat) (src : RowSource) (s : State), let c := rakeCtl r.q.desc
      r.phase = .started ∧ s.rakeJob g r = none ∧ s.rakeBad r.q.desc c = none ∧ s.table c.table = some td ∧
      c.spec = false ∧ c.count = 1 ∧ s.decayDue g = false ∧ s.readEntry g c 0 = .ok row ∧
      s.rowSource g c.table td 0 row = .ok (src, slot) ∧ s.rakeCheck g c td = .ok () ∧
      ∃ fill : Bool, s.activeOp g .rake 1 = some r ∧ (s.rowLookup g c td row).1 = .fetch fill) ∧
  (      ∃ (g : Fin 32) (r : Running) (td : TableDesc) (row slot : Nat) (src : RowSource) (s : State), let c := rakeCtl r.q.desc
      r.phase = .started ∧ s.rakeJob g r = none ∧ s.rakeBad r.q.desc c = none ∧ s.table c.table = some td ∧
      c.spec = false ∧ c.count = 1 ∧ s.decayDue g = false ∧ s.readEntry g c 0 = .ok row ∧
      s.rowSource g c.table td 0 row = .ok (src, slot) ∧ s.rakeCheck g c td = .ok () ∧
      ∃ bs : List Byte, s.activeOp g .rake 3 = some r ∧ (s.rowLookup g c td row).1 = .record bs) ∧
  (      ∃ (g : Fin 32) (r : Running) (td : TableDesc) (row slot : Nat) (src : RowSource) (s : State), let c := rakeCtl r.q.desc
      r.phase = .started ∧ s.rakeJob g r = none ∧ s.rakeBad r.q.desc c = none ∧ s.table c.table = some td ∧
      c.spec = false ∧ c.count = 1 ∧ s.decayDue g = false ∧ s.readEntry g c 0 = .ok row ∧
      s.rowSource g c.table td 0 row = .ok (src, slot) ∧ s.rakeCheck g c td = .ok () ∧
      ∃ fill : Bool, s.activeOp g .rake 3 = some r ∧ (s.rowLookup g c td row).1 = .fetch fill) :=
  ⟨⟨0, act (rk 1) .started, tbl, 0, 0, .localRow 0x100000, ((tabled (busy 0 .rake (act (rk 1) .started))).modJob (fun j => { j with
      manifest := some { (default : Manifest) with clocheSlot := 128 } })).modCluster 0 (fun c => { c with
      clocheKib := 256, rake := { c.rake with cloche := [(0, [⟨0, 0, 0, 0, 1, false, List.replicate 32 0⟩])] } }), by
    refine ⟨by decide, by decide, by decide, by decide, by decide, by decide, by decide, by decide, by decide, by decide,
      List.replicate 32 0, ?_⟩
    exact (of_ok (by decide)).imp (fun _ h => ⟨by decide, by decide, h⟩)⟩,
   ⟨0, act (rk 1) .started, tbl, 0, 0, .localRow 0x100000, (tabled (busy 0 .rake (act (rk 1) .started))), by
    exact ⟨by decide, by decide, by decide, by decide, by decide, by decide, by decide, by decide, by decide, by decide, false, by decide⟩⟩,
   ⟨0, act (rk 3) .started, tbl, 0, 0, .localRow 0x100000, ((tabled (busy 0 .rake (act (rk 3) .started))).modJob (fun j => { j with
      manifest := some { (default : Manifest) with clocheSlot := 128 } })).modCluster 0 (fun c => { c with
      clocheKib := 256, rake := { c.rake with cloche := [(0, [⟨0, 0, 0, 0, 1, false, List.replicate 32 0⟩])] } }), by
    exact ⟨by decide, by decide, by decide, by decide, by decide, by decide, by decide, by decide, by decide, by decide,
      List.replicate 32 0, by decide⟩⟩,
   ⟨0, act (rk 3) .started, tbl, 0, 0, .localRow 0x100000, ((tabled (busy 0 .rake (act (rk 3) .started))).modJob (fun j => { j with
      manifest := some { (default : Manifest) with clocheSlot := 128 } })).modCluster 0 (fun c => { c with clocheKib := 256 }), by
    exact ⟨by decide, by decide, by decide, by decide, by decide, by decide, by decide, by decide, by decide, by decide, true, by decide⟩⟩⟩

theorem witness_PooledGathersAccumulateBags :
  (∃ (g : Fin 32) (r : Running) (td : TableDesc) (s : State), let c := rakeCtl r.q.desc
      s.activeOp g .rake 2 = some r ∧ s.rakeBad r.q.desc c = none ∧ s.table c.table = some td ∧
      ∃ a b : Nat, r.phase = .started ∧ s.rakeJob g r = none ∧ 0 < c.count ∧ s.rakeCheck g c td = .ok () ∧
      s.bagBounds g c 0 = .ok (a, b)) ∧
  (∃ (g : Fin 32) (r : Running) (td : TableDesc) (s : State), let c := rakeCtl r.q.desc
      s.activeOp g .rake 2 = some r ∧ s.rakeBad r.q.desc c = none ∧ s.table c.table = some td ∧
      ∃ (j : RakeJob) (b : Bag) (w : State), s.rakeJob g r = some j ∧ j.bag = some b ∧ b.stop ≤ b.pos ∧
      s.writeChecked (.ofCluster g .any) (c.dst + j.next * outBytes td c.outFmt)
          (outElems c.outFmt (outBytes td c.outFmt) (bagResult c td.dim (b.stop - b.start) b.parts)) = .ok w) ∧
  (∃ (g : Fin 32) (r : Running) (td : TableDesc) (s : State), let c := rakeCtl r.q.desc
      s.activeOp g .rake 2 = some r ∧ s.rakeBad r.q.desc c = none ∧ s.table c.table = some td ∧
      ∃ (j : RakeJob) (b : Bag) (row slot addr : Nat) (rec : List Byte) (wt : Option U32), s.rakeJob g r = some j ∧
      j.bag = some b ∧ b.pos < b.stop ∧ b.tag = none ∧ s.readEntry g c b.pos = .ok row ∧
      s.locate (.ofCluster g .any) c.table td b.pos row = .ok (s.devNumber, slot, addr) ∧
      j.recent.find? (fun x => decide (x.1 = row)) = none ∧ s.rowComing c.table td row = false ∧
      s.readChecked (.ofCluster g (.req 2)) addr td.stride = .ok rec ∧ s.poolWeight g c b.pos = .ok wt) :=
  ⟨⟨0, act (rk 2) .started, tbl, (tabled (busy 0 .rake (act (rk 2) .started))), by
    exact ⟨by decide, by decide, by decide, 0, 0, by decide⟩⟩,
   ⟨0, act (rk 2) .working, tbl, (tabled (busy 0 .rake (act (rk 2) .working))).modRake 0 (fun x => { x with
      jobs := [{ rkJob (act (rk 2) .working) with bag := some ⟨0, 0, 0, [], none, none⟩ }] }), by
    refine ⟨by decide, by decide, by decide, { rkJob (act (rk 2) .working) with bag := some ⟨0, 0, 0, [], none, none⟩ },
      ⟨0, 0, 0, [], none, none⟩, ?_⟩
    exact (of_ok (by decide)).imp (fun _ h => ⟨by decide, by decide, by decide, h⟩)⟩,
   ⟨0, act (rk 2) .working, tbl, (tabled (busy 0 .rake (act (rk 2) .working))).modRake 0 (fun x => { x with
      jobs := [{ rkJob (act (rk 2) .working) with bag := some ⟨0, 0, 1, [], none, none⟩ }] }), by
    exact ⟨by decide, by decide, by decide, { rkJob (act (rk 2) .working) with bag := some ⟨0, 0, 1, [], none, none⟩ },
      ⟨0, 0, 1, [], none, none⟩, 0, 0, 0x100000, List.replicate 32 0, none, by decide⟩⟩⟩

theorem witness_RecordsAreReadCheckedAndCached :
  (      ∃ (g : Fin 32) (i row addr slot p epoch : Nat) (j : RakeJob) (td : TableDesc) (rec : List Byte) (w s : State), let c := rakeCtl j.run.q.desc
      (s.rakeItems g)[i]? = some (j, ⟨row, [p], false, epoch, none⟩) ∧ s.table c.table = some td ∧
      s.rowSource g c.table td p row = .ok (.localRow addr, slot) ∧ c.opcode = 1 ∧ c.spec = false ∧
      s.rowComing c.table td row = false ∧ s.readChecked (.ofCluster g (.req 2)) addr td.stride = .ok rec ∧
      s.writeChecked (.ofCluster g .any) (c.dst + p * outBytes td c.outFmt) (outRow td c.outFmt rec) = .ok w) ∧
  (      ∃ (g : Fin 32) (i slot addr : Nat) (x : StagedGather) (r : StagedRow) (td : TableDesc) (bs : List Byte) (s : State), (s.stagedRows g (fun st => decide (st = .unchecked)))[i]? = some (x, r) ∧
      s.table (rakeCtl x.run.q.desc).table = some td ∧
      s.rowSource g (rakeCtl x.run.q.desc).table td r.pos r.row = .ok (.localRow addr, slot) ∧
      s.rowComing (rakeCtl x.run.q.desc).table td r.row = false ∧
      s.readChecked (.ofCluster g (.req 2)) addr 16 = .ok bs) ∧
  (      ∃ (g : Fin 32) (i : Nat) (x : StagedGather) (r : StagedRow) (td : TableDesc) (rec : List Byte) (w s : State), let c := rakeCtl x.run.q.desc
      (s.stagedRows g (fun st => decide (st = .current)))[i]? = some (x, r) ∧ s.table c.table = some td ∧
      s.readRanges (stager g) (blockParts x.blocks (r.pos * td.stride) td.stride) = .ok rec ∧
      s.writeChecked (.ofCluster g (.req 4)) (c.dst + r.pos * outBytes td c.outFmt) (outRow td c.outFmt rec) = .ok w) ∧
  (      ∃ (g : Fin 32) (f : ClocheFill) (rest : List ClocheFill) (td : TableDesc) (w : ClocheWay) (s : State), let k := clocheSet (s.clocheSets g td) f.table f.row
      s.clusters[g].rake.fills = f :: rest ∧ s.table f.table = some td ∧ s.clocheSets g td ≠ 0 ∧
      findWay (tabGet s.clusters[g].rake.cloche [] k) f.table f.row = some w) ∧
  (∃ (g : Fin 32) (s : State), s.objNum 0x4210 4 ≤ s.clusters[g].rake.accesses) :=
  ⟨⟨0, 0, 0, 0x100000, 0, 0, 0, { rkJob (act (rk 1) .working) with items := [⟨0, [0], false, 0, none⟩] },
    tbl, List.replicate 32 0,
    (by
      obtain ⟨w, h⟩ := of_ok (e := ((tabled (busy 0 .rake (act (rk 1) .working))).modRake 0 (fun x => { x with
        jobs := [{ rkJob (act (rk 1) .working) with items := [⟨0, [0], false, 0, none⟩] }] })).writeChecked
        (.ofCluster 0 .any) 0x20000 (outRow tbl 0 (List.replicate 32 0))) (by decide)
      exact ⟨w, _, by decide, by decide, by decide, by decide, by decide, by decide, by decide, h⟩)⟩,
   ⟨0, 0, 0, 0x100000, ⟨act (rk 1) .staged, 4096, [0x400000], true, true, 0, 0, [], [⟨0, 0, 0, .unchecked, false⟩]⟩, ⟨0, 0, 0, .unchecked, false⟩, tbl,
    List.replicate 16 0, (tabled (busy 0 .rake (act (rk 1) .staged))).modRake 0 (fun x => { x with
      staged := [⟨act (rk 1) .staged, 4096, [0x400000], true, true, 0, 0, [], [⟨0, 0, 0, .unchecked, false⟩]⟩] }), by decide⟩,
   ⟨0, 0, ⟨act (rk 1) .staged, 4096, [0x400000], true, true, 0, 0, [], [⟨0, 0, 0, .current, false⟩]⟩, ⟨0, 0, 0, .current, false⟩, tbl, List.replicate 32 0,
    (by
      obtain ⟨w, h⟩ := of_ok (e := ((tabled (busy 0 .rake (act (rk 1) .staged))).modRake 0 (fun x => { x with
        staged := [⟨act (rk 1) .staged, 4096, [0x400000], true, true, 0, 0, [], [⟨0, 0, 0, .current, false⟩]⟩] })).writeChecked (.ofCluster 0 (.req 4)) 0x20000 (outRow tbl 0 (List.replicate 32 0))) (by decide)
      exact ⟨w, _, by decide, by decide, by decide, h⟩)⟩,
   ⟨0, ⟨0, 0, 0, [1]⟩, [], tbl, ⟨0, 0, 0, 0, 1, false, []⟩, ((tabled up).modJob (fun j => { j with
      manifest := some { (default : Manifest) with clocheSlot := 128 } })).modCluster 0 (fun c => { c with
      clocheKib := 256, rake := { c.rake with fills := [⟨0, 0, 0, [1]⟩], cloche := [(0, [⟨0, 0, 0, 0, 1, false, []⟩])] } }),
    by decide⟩,
   ⟨0, up.modRake 0 (fun x => { x with accesses := 65536 }), by decide⟩⟩

theorem witness_ContributionsCombineAndLeave :
  (      ∃ (g : Fin 32) (r : Running) (td : TableDesc) (row : Nat) (grad : List U32) (s : State), let c := scatterCtl r.q.desc
      s.activeOp g .sprinkler 1 = some r ∧ r.phase = .started ∧ s.scatterBad r.q.desc c = none ∧
      s.table c.table = some td ∧ td.frozen = false ∧ s.shadowPending = false ∧
      s.clusters[g].sprinkler.free = false ∧ s.clusters[g].sprinkler.parts = [] ∧
      tabGet s.clusters[g].sprinkler.taken 0 c.mb ≤ c.firstPos + 1 ∧ c.expand = 0 ∧ c.count = 1 ∧
      s.scatterEntry g c 0 = .ok row ∧ s.scatterOwner g c.table td 0 row = .ok () ∧
      s.checkAll (.ofCluster g .any) (scatterRanges c td.dim) = .ok () ∧ s.gradRow g c td.dim 0 0 = .ok grad) ∧
  (      ∃ (g : Fin 32) (r : Running) (td : TableDesc) (p : FrontPartial) (slot addr : Nat) (s : State), s.activeOp g .sprinkler 2 = some r ∧
      r.phase = .started ∧ firstNonzero (descWords r.q.desc) flushSpans = none ∧
      s.frozenIn (r.q.desc.bits 2 31 16) = none ∧
      s.clusters[g].sprinkler.parts.filter (fun p => s.clusters[g].sprinkler.free || (decide (p.mb = r.q.desc.bits 2 15 0) &&
        bitOf (r.q.desc.bits 2 31 16) p.table)) = [p] ∧ s.table p.table = some td ∧
      s.locate .any p.table td 0 p.row = .ok (s.devNumber, slot, addr)) ∧
  (∃ (g : Fin 32) (r : Running) (s : State), s.activeOp g .sprinkler 2 = some r ∧ r.phase = .working ∧
      s.partialsRecorded g = true) ∧
  (      ∃ (g : Fin 32) (td : TableDesc) (p : FrontPartial) (slot addr : Nat) (s : State), s.clusters[g].sprinkler.free = true ∧
      s.objNum 0x4220 2 ≤ s.clusters[g].sprinkler.windowPos ∧ s.clusters[g].sprinkler.parts = [p] ∧
      s.table p.table = some td ∧ s.locate .any p.table td 0 p.row = .ok (s.devNumber, slot, addr)) ∧
  (∃ (g : Fin 32) (r : Running) (td : TableDesc) (s : State), s.activeOp g .sprinkler 3 = some r ∧
      firstNonzero (descWords r.q.desc) armSpans = none ∧ s.table (r.q.desc.bits 2 3 0) = some td ∧
      s.clusters[g].season < r.q.desc.bits 3 47 0 ∧ td.ownerSeason = 0) ∧
  (∃ (i : Nat) (p : PartialMsg) (td : TableDesc) (slot addr : Nat) (s : State), let k := stackOf addr
      s.partials[i]? = some p ∧ (s.partials.take i).any (s.partialBehind p) = false ∧ s.table p.table = some td ∧
      s.locate .any p.table td 0 p.row = .ok (s.devNumber, slot, addr) ∧ s.rowComing p.table td p.row = false ∧
      s.granuleFail (.req 3) addr 1 (addr / 4096) = none ∧ p.free = false ∧
      logHas p.table p.row p.source p.mb s.hbm[k].log = false ∧
      logBytes s.hbm[k] + partialBytes p.elems.length ≤ s.logArea k) ∧
  (∃ (i : Nat) (p : PartialMsg) (td : TableDesc) (slot addr : Nat) (s : State), let k := stackOf addr
      s.partials[i]? = some p ∧ (s.partials.take i).any (s.partialBehind p) = false ∧ s.table p.table = some td ∧
      s.locate .any p.table td 0 p.row = .ok (s.devNumber, slot, addr) ∧ s.rowComing p.table td p.row = false ∧
      s.granuleFail (.req 3) addr 1 (addr / 4096) = none ∧ p.free = true ∧
      logAcc p.table p.row s.hbm[k].log = none ∧ logBytes s.hbm[k] + partialBytes p.elems.length ≤ s.logArea k) ∧
  (      ∃ (i : Nat) (m : MoveJob) (td : TableDesc) (bs : List Byte) (s : State), let row := m.shard * 2 ^ td.shardLog2 + m.nextRow
      s.moves[i]? = some m ∧ s.table m.table = some td ∧ m.nextRow < m.rows ∧
      s.readChecked (.req 4) (recordAddr td m.oldSlot row) td.stride = .ok bs ∧
      (s.route m.newDevice (flowSide s.devNumber m.newDevice 0)).isSome = true) :=
  ⟨⟨0, act scatDsc .started, { tbl with frozen := false }, 0, List.replicate 8 0, (busy 0 .sprinkler (act scatDsc .started)).modJob
      (fun j => { j with tables := [(0, { tbl with frozen := false })] }), by decide⟩,
   ⟨0, act flushDsc .started, { tbl with frozen := false }, part1, 0, 0x100000, ((busy 0 .sprinkler (act flushDsc .started)).modJob
      (fun j => { j with tables := [(0, { tbl with frozen := false })] })).modSprinkler 0 (fun x => { x with parts := [part1] }),
    by decide⟩,
   ⟨0, act flushDsc .working, busy 0 .sprinkler (act flushDsc .working), by decide⟩,
   ⟨0, tbl, part1, 0, 0x100000, (tabled up).modSprinkler 0 (fun x => { x with free := true, windowPos := 65536, parts := [part1] }),
    by decide⟩,
   ⟨0, act armDsc .started, tbl, tabled (busy 0 .sprinkler (act armDsc .started)), by decide⟩,
   ⟨0, ⟨some 0, 0, 0, 0, 0, 0, List.replicate 8 0, false⟩, tbl, 0, 0x100000, { tabled up with
      partials := [⟨some 0, 0, 0, 0, 0, 0, List.replicate 8 0, false⟩] }, by decide⟩,
   ⟨0, ⟨some 0, 0, 0, 0, 0, 0, List.replicate 8 0, true⟩, tbl, 0, 0x100000, { tabled up with
      partials := [⟨some 0, 0, 0, 0, 0, 0, List.replicate 8 0, true⟩] }, by decide⟩,
   ⟨0, ⟨0, 0, 0, 1, 0, 64, 63, 4, false⟩, tbl, List.replicate 32 0, { linked (tabled up) with moves := [⟨0, 0, 0, 1, 0, 64, 63, 4, false⟩] },
    by decide⟩⟩

theorem witness_LotteryDrawsFromTheAskers :
    ∃ (n : Nat) (as : Asking) (a : Arbiter), as ≠ [] :=
  ⟨8, [(2, 1)], ⟨0xACE1, 0, none, []⟩, by decide⟩

theorem witness_GrantsTicketsAndBites :
  (∃ (k : Fin 12) (pc : Fin 64) (asks : List Ask) (r : Nat) (x : Arbiter) (s : State), let a := ArbId.channel k pc
      s.arbLive a = true ∧ (s.arb a).grant = none ∧
      lottery 8 (s.asking a (s.arbWaiting a asks)) (s.arb a) = some (r, x)) ∧
  (∃ (k : Fin 12) (pc : Fin 64) (asks : List Ask) (s : State), (s.arb (.channel k pc)).grant.isSome = true) ∧
  (      ∃ (d : Fin 4) (stop : Fin 16) (output : Fin 5) (vc : Fin 4) (asks : List Ask) (r : Nat) (x : Arbiter) (s : State), let a := ArbId.trellis d stop output vc
      s.arbLive a = true ∧ s.arbStopped a = false ∧
      lottery 5 (s.asking a (s.arbWaiting a asks)) (s.arb a) = some (r, x)) ∧
  (      ∃ (l edge : Fin 2) (vc : Fin 4) (asks : List Ask) (r : Nat) (x : Arbiter) (s : State), let a := ArbId.egress l edge vc
      s.arbLive a = true ∧ s.arbStopped a = false ∧
      lottery 9 (s.asking a (s.arbWaiting a asks)) (s.arb a) = some (r, x)) ∧
  (∃ (a : ArbId) (asks : List Ask) (s : State), (∀ p vc, a ≠ .port p vc) ∧ s.arbLive a = true ∧
      s.arbStopped a = false ∧ (s.arb a).grant = none ∧ s.asking a (s.arbWaiting a asks) = []) ∧
  (∃ (a : ArbId) (asks : List Ask) (s : State), (s.arbLive a = false ∨ s.arbStopped a = true)) ∧
  (∃ (a : ArbId) (v : Word) (s : State), s.arbLive a = true) ∧
  (∃ (a : ArbId) (v : Word) (s : State), s.arbLive a = false) ∧
  (∃ (k : Fin 12) (pc : Fin 64) (v : BitVec 16) (s : State), s.bedOn (bedStack k.val) = true ∧
      s.stackFenced k = false ∧ v ≠ 0) ∧
  (      ∃ (k : Fin 12) (pc : Fin 64) (age : Nat) (asks : List Ask) (g : Grant) (s : State), (s.arb (.channel k pc)).grant = some g ∧
      2 ≤ g.ask.requester.val ∧ g.ask.requester.val < 8 ∧ g.limitUs ≤ age + 1) ∧
  (∃ (a : ArbId) (age : Nat) (asks : List Ask) (g : Grant) (s : State), (s.arb a).grant = some g ∧
      g.limitUs ≤ age + 1) ∧
  (∃ (a : ArbId) (age : Nat) (asks : List Ask) (s : State), (∀ g, (s.arb a).grant = some g → age + 1 < g.limitUs)) :=
  ⟨(by
    have h : ∃ p, lottery 8 (up.asking (.channel 11 63) (up.arbWaiting (.channel 11 63) [⟨7, uidStack 11, .request, 0x2FF000, 1, true⟩]))
      (up.arb (.channel 11 63)) = some p := of_some (by decide)
    obtain ⟨⟨r, x⟩, h⟩ := h
    exact ⟨11, 63, [⟨7, uidStack 11, .request, 0x2FF000, 1, true⟩], r, x, up, by decide, by decide, h⟩),
   ⟨0, 0, [], granted 0 true, by decide⟩,
   (by
    have h : ∃ p, lottery 5 (up.asking (.trellis 3 0 4 3) (up.arbWaiting (.trellis 3 0 4 3) [⟨4, 0x0100, .scatterAdd, 0, 0, false⟩]))
      (up.arb (.trellis 3 0 4 3)) = some p := of_some (by decide)
    obtain ⟨⟨r, x⟩, h⟩ := h
    exact ⟨3, 0, 4, 3, [⟨4, 0x0100, .scatterAdd, 0, 0, false⟩], r, x, up, by decide, by decide, h⟩),
   (by
    have h : ∃ p, lottery 9 (up.asking (.egress 1 1 3) (up.arbWaiting (.egress 1 1 3) [⟨8, 0x0100, .reduction, 0, 0, false⟩]))
      (up.arb (.egress 1 1 3)) = some p := of_some (by decide)
    obtain ⟨⟨r, x⟩, h⟩ := h
    exact ⟨1, 1, 3, [⟨8, 0x0100, .reduction, 0, 0, false⟩], r, x, up, by decide, by decide, h⟩),
   ⟨.channel 0 0, [], up, by simp, by decide⟩,
   ⟨.channel 0 0, [], State.reset, by decide⟩,
   ⟨.egress 1 1 3, 0x0101010101010101, up, by decide⟩,
   ⟨.channel 11 63, 0, State.reset, by decide⟩,
   ⟨11, 63, 1, up, by decide⟩,
   ⟨0, 0, 1, [], grant1 0 true, granted 0 true, by decide⟩,
   ⟨.channel 0 0, 1, [], grant1 0 true, granted 0 true, by decide⟩,
   ⟨.channel 0 0, 0, [], granted 0 true, by decide⟩⟩

theorem witness_ZeroSeedIsRefused :
    ∃ (k : Fin 12) (s : State), s.bedOn (bedStack k.val) = true ∧ s.stackFenced k = false :=
  ⟨3, up, by decide⟩

theorem witness_AccessUnitsAreProtected :
  (∃ (r : Fin 8) (a n : Nat) (u : Upset) (iss : Issuer) (g : Grant) (s : State), a < hbmEnd ∧ a % 64 = 0 ∧
      s.unitFail r.val a iss = none ∧ s.unitGrant r.val a false iss = some g ∧
      (s.fifo (hbmFifo .hbmRead a)).flow = false ∧ ((s.upsetUnit a u).errorsAt a).length = n ∧ n ≤ 3 ∧
      u.misplaced = false ∧ s.hbm[stackOf a].poisoned.contains a = false ∧
      ((s.hbm[stackOf a].ceEvents.find? (fun x => decide (x.1 = a / 4096 * 4096))).map (·.2)).getD 0 + 1 < s.objNum 0x5010 3) ∧
  (∃ (r : Fin 8) (a n : Nat) (u : Upset) (iss : Issuer) (g : Grant) (s : State), a < hbmEnd ∧ a % 64 = 0 ∧
      (iss = .baseDie ∨ iss = .linkDie 0 ∨ iss = .linkDie 1) ∧ s.unitFail r.val a iss = none ∧
      s.unitGrant r.val a false iss = some g ∧ (s.fifo (hbmFifo .hbmRead a)).flow = false ∧
      ((s.upsetUnit a u).errorsAt a).length = n ∧
      (u.misplaced = true ∨ s.hbm[stackOf a].poisoned.contains a = true ∨ n = 4 ∨ n = 5)) ∧
  (∃ (r : Fin 8) (a : Nat) (bs : List Byte) (u : Upset) (iss : Issuer) (g : Grant) (s : State), a < hbmEnd ∧
      a % 64 = 0 ∧ bs.length = 64 ∧ s.unitFail r.val a iss = none ∧ s.unitGrant r.val a true iss = some g ∧
      (s.fifo (hbmFifo .hbmWrite a)).flow = false) ∧
  (      ∃ (r : Fin 8) (a unit : Nat) (bs : List Byte) (u : Upset) (iss : Issuer) (g : Grant) (s : State), unit = a / 64 * 64 ∧
      a < hbmEnd ∧ bs ≠ [] ∧ bs.length < 64 ∧ a % 64 + bs.length ≤ 64 ∧ s.unitFail r.val unit iss = none ∧
      s.unitGrant r.val unit true iss = some g ∧ (s.fifo (hbmFifo .hbmWrite unit)).flow = false ∧
      (s.upsetUnit unit u).errorsAt unit = [] ∧ u.misplaced = false ∧
      s.hbm[stackOf unit].poisoned.contains unit = false ∧ s.partPoisoned a bs.length = []) ∧
  (∃ (r : Fin 8) (a : Nat) (u : Upset) (f : Fail) (s : State), a < hbmEnd ∧ a % 64 = 0 ∧
      s.unitFail r.val a .baseDie = some f) ∧
  (∃ (r : Fin 8) (a : Nat) (u : Upset) (iss : Issuer) (s : State), s.unitFail r.val a iss = none ∧
      s.unitGrant r.val a false iss = none) ∧
  (∃ (k : Fin 12) (a n : Nat) (u : Upset) (s : State), stackOf a = k ∧ a < hbmEnd ∧ a % 64 = 0 ∧
      s.stackReady k = true ∧ s.reqFenced (.req 7) k = false ∧ s.objNum 0x5010 2 ≠ 0 ∧
      (s.scrubStart k).hbm[k].scrubbed.contains a = false ∧ ((s.upsetUnit a u).errorsAt a).length = n ∧ 1 ≤ n ∧
      n ≤ 3 ∧ u.misplaced = false ∧ s.hbm[k].poisoned.contains a = false ∧
      ((s.hbm[k].ceEvents.find? (fun x => decide (x.1 = a / 4096 * 4096))).map (·.2)).getD 0 + 1 < s.objNum 0x5010 3 ∧
      ∃ bs : List Byte, bs.length = 64) ∧
  (∃ (k : Fin 12) (a n : Nat) (u : Upset) (s : State), stackOf a = k ∧ a < hbmEnd ∧ a % 64 = 0 ∧
      s.stackReady k = true ∧ s.reqFenced (.req 7) k = false ∧ s.objNum 0x5010 2 ≠ 0 ∧
      (s.scrubStart k).hbm[k].scrubbed.contains a = false ∧ ((s.upsetUnit a u).errorsAt a).length = n ∧ 1 ≤ n ∧
      n ≤ 3 ∧ u.misplaced = false ∧ s.hbm[k].poisoned.contains a = false ∧
      ((s.hbm[k].ceEvents.find? (fun x => decide (x.1 = a / 4096 * 4096))).map (·.2)).getD 0 + 1 < s.objNum 0x5010 3) ∧
  (∃ (k : Fin 12) (a : Nat) (s : State), s.bedOn (bedStack k.val) = true ∧ s.hbm[k].state = .training ∧
      regionOf a = k.val) ∧
  (∃ (k : Fin 12) (pre post : List Retired) (e : Retired) (s : State), s.bedOn bedRot = true ∧
      s.hbm[k].retired = pre ++ e :: post ∧ pre.all (·.flashed.isSome) = true ∧ e.flashed = none) :=
  ⟨⟨2, 0xBFFFFFFFC0, 3, hit [0, 5, 71], .baseDie, grant1 0xBFFFFFFFC0 false, granted 0xBFFFFFFFC0 false, by decide⟩,
   ⟨6, 0x40, 5, hit [0, 1, 2, 3, 4], .linkDie 1, ⟨⟨6, uidLink 1 0x10, .request, 0x40, 1, false⟩, 0, 2⟩,
    up.setArb (channelOf 0x40) ⟨1, 0, some ⟨⟨6, uidLink 1 0x10, .request, 0x40, 1, false⟩, 0, 2⟩, []⟩, by decide⟩,
   ⟨2, 0, List.replicate 64 1, hit [0], .baseDie, grant1 0 true, granted 0 true, by decide⟩,
   ⟨2, 0x1001, 0x1000, [1], calm, .baseDie, grant1 0x1000 true, granted 0x1000 true, by decide⟩,
   ⟨2, 0x1000, calm, failAddress 0x1000 2, (granted 0x1000 true).modHealth (fun h => { h with fences := [⟨uidStack 1, 0, false, 0, false⟩] }), by decide⟩,
   ⟨2, 0, calm, .baseDie, up, by decide⟩,
   ⟨1, 0x1000, 1, hit [7], up, by decide, by decide, by decide, by decide, by decide, by decide, by decide, by decide, by decide, by decide, by decide, by decide, by decide, List.replicate 64 1, by decide⟩,
   ⟨1, 0x1000, 1, hit [7], up, by decide⟩,
   ⟨0, 0x40, up.modStack 0 (fun k => { k with state := .training }), by decide⟩,
   ⟨4, [⟨0x4000, 1, 0, false, some false⟩], [], ⟨0x8000, 1, 0, false, none⟩, up.modStack 4 (fun k => { k with
      retired := [⟨0x4000, 1, 0, false, some false⟩, ⟨0x8000, 1, 0, false, none⟩] }), by decide⟩⟩

theorem witness_CopyAndFillMoveEveryRow :
  (∃ (n : Fin 256) (r : Running) (s : State), let g := clusterOfCore n
      let q := QueueId.transfer (coreK n)
      let c := copyCtl r.q.desc
      s.copyCheck n r.q c = .ok () ∧ (State.copyRows n c c.rows 0 s).2 = none ∧ s.activeOp g q 1 = some r) ∧
  (∃ (n : Fin 256) (r : Running) (s : State), let g := clusterOfCore n
      let q := QueueId.transfer (coreK n)
      let c := copyCtl r.q.desc
      s.copyCheck n r.q c = .ok () ∧ (State.copyRows n c c.rows 0 s).2 = none ∧ s.activeOp g q 2 = some r) :=
  ⟨⟨255, act (copyDsc 1) .started, busy 31 (.transfer 7) (act (copyDsc 1) .started), by decide +kernel⟩,
   ⟨255, act (copyDsc 2) .started, busy 31 (.transfer 7) (act (copyDsc 2) .started), by decide +kernel⟩⟩

theorem witness_ThreadsIssueAndComplete :
  (∃ (n : Fin 256) (r : Running) (s : State), let g := clusterOfCore n
      let q := QueueId.thread (coreK n)
      r.phase = .started ∧ s.threadCheck n r.q (threadCtl r.q.desc) = .ok () ∧ s.activeOp g q 1 = some r) ∧
  (∃ (n : Fin 256) (r : Running) (s : State), let g := clusterOfCore n
      let q := QueueId.thread (coreK n)
      r.phase = .started ∧ s.threadCheck n r.q (threadCtl r.q.desc) = .ok () ∧ s.activeOp g q 2 = some r) ∧
  (∃ (n : Fin 256) (j : ThreadJob) (t i : Nat) (held : List Nat) (s : State), s.cores[n].thr.job = some j ∧
      s.threadScan n j s.cores[n].thr.cap s.cores[n].thr.turn j.next.length = (held, some t) ∧
      j.nextOf t = some i ∧ let c := threadCtl j.run.q.desc
      let e := s.threadEntry n c t i
      s.accessFail (c.who n) e.remote c.elem = none ∧ e.slots ≠ []) ∧
  (∃ (n : Fin 256) (j : ThreadJob) (t i : Nat) (held : List Nat) (s : State), s.cores[n].thr.job = some j ∧
      s.threadScan n j s.cores[n].thr.cap s.cores[n].thr.turn j.next.length = (held, some t) ∧
      j.nextOf t = some i ∧ let c := threadCtl j.run.q.desc
      let e := s.threadEntry n c t i
      s.accessFail (c.who n) e.remote c.elem = none ∧ e.slots = []) ∧
  (∃ (n : Fin 256) (j : ThreadJob) (t i : Nat) (held : List Nat) (s : State), s.cores[n].thr.job = some j ∧
      s.threadScan n j s.cores[n].thr.cap s.cores[n].thr.turn j.next.length = (held, some t) ∧
      j.nextOf t = some i ∧ let c := threadCtl j.run.q.desc
      let e := s.threadEntry n c t i
      ∃ f : Fail, s.accessFail (c.who n) e.remote c.elem = some f ∧ j.failed = false) ∧
  (∃ (n : Fin 256) (j : ThreadJob) (i : Nat) (e : Entry) (s : State), s.cores[n].thr.job = some j ∧
      j.inFlight[i]? = some e ∧ let c := threadCtl j.run.q.desc
      entryInTurn (s.cores[n].thr.orphans ++ j.inFlight.take i) e = false) ∧
  (∃ (n : Fin 256) (j : ThreadJob) (i : Nat) (e : Entry) (s : State), s.cores[n].thr.job = some j ∧
      j.inFlight[i]? = some e ∧ let c := threadCtl j.run.q.desc
      ∃ bs : List Byte, entryInTurn (s.cores[n].thr.orphans ++ j.inFlight.take i) e = true ∧ c.store = false ∧
      e.remote < unitBase ∧ s.readChecked (.ofCore n (.req 0)) e.remote c.elem = .ok bs) ∧
  (∃ (n : Fin 256) (j : ThreadJob) (i : Nat) (e : Entry) (s : State), s.cores[n].thr.job = some j ∧
      j.inFlight[i]? = some e ∧ let c := threadCtl j.run.q.desc
      entryInTurn (s.cores[n].thr.orphans ++ j.inFlight.take i) e = true ∧ c.store = false ∧ unitBase ≤ e.remote ∧
      s.readFail (.ofCore n (.req 0)) e.remote c.elem = none) ∧
  (∃ (n : Fin 256) (j : ThreadJob) (i : Nat) (e : Entry) (s : State), s.cores[n].thr.job = some j ∧
      j.inFlight[i]? = some e ∧ let c := threadCtl j.run.q.desc
      ∃ w : State, entryInTurn (s.cores[n].thr.orphans ++ j.inFlight.take i) e = true ∧ c.store = true ∧
      e.remote < unitBase ∧ s.writeChecked (.ofCore n (.req 1)) e.remote e.data = .ok w) :=
  ⟨⟨0, act (thrDsc 1) .started, busy 0 (.thread 0) (act (thrDsc 1) .started), by decide⟩,
   ⟨0, act (thrDsc 2) .started, busy 0 (.thread 0) (act (thrDsc 2) .started), by decide⟩,
   ⟨0, thrNew 1 0x20000, 0, 0, [], threaded (thrNew 1 0x20000), by decide⟩,
   ⟨0, thrNew 1 0x11000002000, 0, 0, [], threaded (thrNew 1 0x11000002000), by decide⟩,
   (by
    obtain ⟨f, h⟩ := of_some (o := (threaded (thrNew 1 0xFFFFFFFFFFF0)).accessFail ((threadCtl (thrFrom 1 0xFFFFFFFFFFF0).desc).who 0) 0xFFFFFFFFFFF0 8) (by decide)
    exact ⟨0, thrNew 1 0xFFFFFFFFFFF0, 0, 0, [], threaded (thrNew 1 0xFFFFFFFFFFF0), by decide, by decide, by decide, f, h, by decide⟩),
   ⟨0, thrJob 1 [⟨0, 0, [some 5], 0x20000, 0x11000000000, []⟩, ⟨0, 0, [some 5], 0x20000, 0x11000000000, []⟩], 1, ⟨0, 0, [some 5], 0x20000, 0x11000000000, []⟩, threaded (thrJob 1 [⟨0, 0, [some 5], 0x20000, 0x11000000000, []⟩, ⟨0, 0, [some 5], 0x20000, 0x11000000000, []⟩]), by decide⟩,
   ⟨0, thrJob 1 [⟨0, 0, [], 0x20000, 0x11000000000, []⟩], 0, ⟨0, 0, [], 0x20000, 0x11000000000, []⟩,
    threaded (thrJob 1 [⟨0, 0, [], 0x20000, 0x11000000000, []⟩]), by decide, by decide,
    List.replicate 8 0, by decide⟩,
   ⟨0, thrJob 1 [⟨0, 0, [], 0x12008500010, 0x11000000000, []⟩], 0, ⟨0, 0, [], 0x12008500010, 0x11000000000, []⟩,
    threaded (thrJob 1 [⟨0, 0, [], 0x12008500010, 0x11000000000, []⟩]), by decide⟩,
   ⟨0, thrJob 2 [⟨0, 0, [], 0x20000, 0x11000000000, [1]⟩], 0, ⟨0, 0, [], 0x20000, 0x11000000000, [1]⟩,
    threaded (thrJob 2 [⟨0, 0, [], 0x20000, 0x11000000000, [1]⟩]), by decide, by decide,
    (of_ok (by decide)).imp (fun _ h => ⟨by decide, by decide, by decide, h⟩)⟩⟩

theorem witness_MatrixCommandsBecomePasses :
  (      ∃ (n : Fin 256) (r : Running) (s : State), ∃ (ps : List (Nat × Nat × Nat)) (bs : List Byte), let c := matmulCtl r.q.desc
      s.matrixNext n 1 = some r ∧ s.matCheck n r.q c = .ok ps ∧ s.metaCheck n r.q c ps = .ok bs) ∧
  (      ∃ (n : Fin 256) (r : Running) (s : State), ∃ (ps : List (Nat × Nat × Nat)) (bs : List Byte), let c := fillCtl r.q.desc
      s.matrixNext n 2 = some r ∧ s.matCheck n r.q c = .ok ps ∧ s.metaCheck n r.q c ps = .ok bs) ∧
  (∃ (n : Fin 256) (r : Running) (s : State), ∃ ps : List (Nat × Nat × Nat), let v := convCtl r.q.desc
      s.matrixNext n 3 = some r ∧ s.convCheck n r.q v (v.mat r.q.desc) = .ok ps) :=
  ⟨⟨0, act mulDsc .started, busy 0 (.matrix 0) (act mulDsc .started), (by
      obtain ⟨ps, h⟩ := of_ok (e := (busy 0 (.matrix 0) (act mulDsc .started)).matCheck 0 mulDsc (matmulCtl mulDsc.desc)) (by decide)
      exact ⟨ps, [], by decide, h, rfl⟩)⟩,
   ⟨0, act mfillDsc .started, busy 0 (.matrix 0) (act mfillDsc .started), (by
      obtain ⟨ps, h⟩ := of_ok (e := (busy 0 (.matrix 0) (act mfillDsc .started)).matCheck 0 mfillDsc (fillCtl mfillDsc.desc)) (by decide)
      exact ⟨ps, [], by decide, h, rfl⟩)⟩,
   ⟨0, act convDsc .started, busy 0 (.matrix 0) (act convDsc .started),
    (of_ok (by decide)).imp (fun _ h => ⟨by decide, h⟩)⟩⟩

theorem witness_PassesFireDrainAndConvert :
  (∃ (n : Fin 256) (before : List MatrixJob) (j : MatrixJob) (p : Pass) (s : State), let o := s.startOps n j p
      nextPass [] s.cores[n].mtx.jobs = some (before, j, p) ∧ s.cores[n].mtx.nextHeld n s.cores[n].tbuf = false ∧
      p.skipped = false ∧ s.cores[n].mtx.contexts < 4 ∧ (∀ x ∈ before, x.run ≠ j.run)) ∧
  (      ∃ (n : Fin 256) (before : List MatrixJob) (j : MatrixJob) (p : Pass) (s : State), nextPass [] s.cores[n].mtx.jobs = some (before, j, p) ∧
      s.cores[n].mtx.nextHeld n s.cores[n].tbuf = true ∧ p.held = false) ∧
  (      ∃ (n : Fin 256) (before : List MatrixJob) (j : MatrixJob) (p : Pass) (s : State), nextPass [] s.cores[n].mtx.jobs = some (before, j, p) ∧
      s.cores[n].mtx.nextHeld n s.cores[n].tbuf = false ∧ p.skipped = true) ∧
  (∃ (n : Fin 256) (j : MatrixJob) (p : Pass) (s : State), drainNext s.cores[n].mtx.jobs = some (j, p)) ∧
  (∃ (n : Fin 256) (j : MatrixJob) (p : Pass) (x : Tile) (s : State), tileNext s.cores[n].mtx.jobs = some (j, p, x) ∧
      s.cores[n].vec.ftq.length < s.cores[n].vec.ftqSlots) ∧
  (∃ (n : Fin 256) (s : State), s.cores[n].vec.ftqSlots ≤ s.cores[n].vec.ftq.length) ∧
  (∃ (n : Fin 256) (r : Running) (ps : List (Nat × Nat × Nat)) (s : State), let c := convertCtl r.q.desc
      s.matrixNext n 4 = some r ∧ nextPass [] s.cores[n].mtx.jobs = none ∧ s.convertCheck n r.q c = .ok ps) :=
  ⟨⟨0, [], ⟨act mulDsc .working, .output, [], [pass1 .ready []]⟩, pass1 .ready [], passing (pass1 .ready []), by decide⟩,
   ⟨0, [⟨act mulDsc .working, .output, [], [{ pass1 .firing [] with writes := [(0x11000000000, [1])] }]⟩],
      ⟨act rivalDsc .started, .output, [], [pass1 .ready []]⟩, pass1 .ready [], up.modMatrix 0 (fun x => { x with jobs := twoJobs }), by decide⟩,
   ⟨0, [], ⟨act mulDsc .working, .output, [], [{ pass1 .ready [] with skipped := true }]⟩, { pass1 .ready [] with skipped := true },
      passing { pass1 .ready [] with skipped := true }, by decide⟩,
   ⟨0, ⟨act mulDsc .working, .output, [], [pass1 .firing []]⟩, pass1 .firing [], passing (pass1 .firing []), by decide⟩,
   ⟨0, ⟨act mulDsc .working, .output, [], [pass1 .firing [tile1]]⟩, pass1 .firing [tile1], tile1,
    (passing (pass1 .firing [tile1])).modVec 0 (fun v => { v with ftqSlots := 1 }), by decide⟩,
   ⟨0, up, by decide⟩,
   (by
    obtain ⟨ps, h⟩ := of_ok (e := (busy 0 (.matrix 0) (act cvtDsc .started)).convertCheck 0 cvtDsc (convertCtl cvtDsc.desc)) (by decide)
    exact ⟨0, act cvtDsc .started, ps, busy 0 (.matrix 0) (act cvtDsc .started), by decide, by decide, h⟩)⟩

theorem witness_ChainsWriteTheirResults :
  (      ∃ (n : Fin 256) (r : Running) (stages : List Word) (ps : List (Nat × Nat × Nat)) (s : State), let c := chainCtl r.q.desc
      let q := QueueId.vector (coreK n)
      s.activeOp (clusterOfCore n) q 1 = some r ∧ r.phase = .started ∧ s.chainCheck n r.q c = .ok (stages, ps) ∧
      c.ftq = false) ∧
  (      ∃ (n : Fin 256) (r : Running) (stages : List Word) (ps : List (Nat × Nat × Nat)) (x : SlotTile) (rest : List SlotTile) (s : State), let c := chainCtl r.q.desc
      let q := QueueId.vector (coreK n)
      s.activeOp (clusterOfCore n) q 1 = some r ∧ r.phase = .started ∧ s.chainCheck n r.q c = .ok (stages, ps) ∧
      c.ftq = true ∧ s.cores[n].vec.ftq = x :: rest ∧ tileMismatch c x = false ∧ x.last = false) ∧
  (      ∃ (n : Fin 256) (r : Running) (stages : List Word) (ps : List (Nat × Nat × Nat)) (x : SlotTile) (rest : List SlotTile) (s : State), let c := chainCtl r.q.desc
      let q := QueueId.vector (coreK n)
      s.activeOp (clusterOfCore n) q 1 = some r ∧ r.phase = .started ∧ s.chainCheck n r.q c = .ok (stages, ps) ∧
      c.ftq = true ∧ s.cores[n].vec.ftq = x :: rest ∧ tileMismatch c x = false ∧ x.last = true) ∧
  (      ∃ (n : Fin 256) (r : Running) (stages : List Word) (ps : List (Nat × Nat × Nat)) (s : State), let c := chainCtl r.q.desc
      let q := QueueId.vector (coreK n)
      s.activeOp (clusterOfCore n) q 1 = some r ∧ r.phase = .started ∧ s.chainCheck n r.q c = .ok (stages, ps) ∧
      c.ftq = true ∧ s.cores[n].vec.ftq = []) ∧
  (      ∃ (n : Fin 256) (r : Running) (x : SlotTile) (rest : List SlotTile) (s : State), let q := QueueId.vector (coreK n)
      s.activeOp (clusterOfCore n) q 2 = some r ∧ firstNonzero (descWords r.q.desc) bodySpans = none ∧
      s.cores[n].vec.ftq = x :: rest) :=
  ⟨(by
    obtain ⟨⟨ws, ps⟩, h⟩ := of_ok (e := (staged (busy 0 (.vector 0) (act (chainDsc false) .started))).chainCheck 0 (chainDsc false)
      (chainCtl (chainDsc false).desc)) (by decide)
    exact ⟨0, act (chainDsc false) .started, ws, ps, staged (busy 0 (.vector 0) (act (chainDsc false) .started)), by decide, by decide,
      h, by decide⟩),
   (by
    obtain ⟨⟨ws, ps⟩, h⟩ := of_ok (e := ((staged (busy 0 (.vector 0) (act (chainDsc true) .started))).modVec 0 (fun v =>
      { v with ftqSlots := 1, ftq := [slot1 false] })).chainCheck 0 (chainDsc true) (chainCtl (chainDsc true).desc)) (by decide)
    exact ⟨0, act (chainDsc true) .started, ws, ps, slot1 false, [], (staged (busy 0 (.vector 0) (act (chainDsc true) .started))).modVec 0
      (fun v => { v with ftqSlots := 1, ftq := [slot1 false] }), by decide, by decide, h, by decide⟩),
   (by
    obtain ⟨⟨ws, ps⟩, h⟩ := of_ok (e := ((staged (busy 0 (.vector 0) (act (chainDsc true) .started))).modVec 0 (fun v =>
      { v with ftqSlots := 1, ftq := [slot1 true] })).chainCheck 0 (chainDsc true) (chainCtl (chainDsc true).desc)) (by decide)
    exact ⟨0, act (chainDsc true) .started, ws, ps, slot1 true, [], (staged (busy 0 (.vector 0) (act (chainDsc true) .started))).modVec 0
      (fun v => { v with ftqSlots := 1, ftq := [slot1 true] }), by decide, by decide, h, by decide⟩),
   (by
    obtain ⟨⟨ws, ps⟩, h⟩ := of_ok (e := ((staged (busy 0 (.vector 0) (act (chainDsc true) .started))).modVec 0 (fun v =>
      { v with ftqSlots := 1, ftq := [] })).chainCheck 0 (chainDsc true) (chainCtl (chainDsc true).desc)) (by decide)
    exact ⟨0, act (chainDsc true) .started, ws, ps, (staged (busy 0 (.vector 0) (act (chainDsc true) .started))).modVec 0
      (fun v => { v with ftqSlots := 1, ftq := [] }), by decide, by decide, h, by decide⟩),
   ⟨0, act (dsc 2 0 0 0 0 0 0 0) .started, slot1 false, [], (busy 0 (.vector 0) (act (dsc 2 0 0 0 0 0 0 0) .started)).modVec 0
      (fun v => { v with ftq := [slot1 false] }), by decide⟩⟩

theorem witness_RowEngineKeepsItsRecords :
  (∃ (n : Fin 256) (r : Running) (ps : List (Nat × Nat × Nat)) (s : State), let g := clusterOfCore n
      let q := QueueId.row (coreK n)
      let c := rowCtl r.q.desc
      let a := stageArith (arithCtlOf c.arith)
      s.rowCheck n r.q c = .ok ps ∧ s.activeOp g q 1 = some r) ∧
  (∃ (n : Fin 256) (r : Running) (ps : List (Nat × Nat × Nat)) (s : State), let g := clusterOfCore n
      let q := QueueId.row (coreK n)
      let c := rowCtl r.q.desc
      let a := stageArith (arithCtlOf c.arith)
      s.rowCheck n r.q c = .ok ps ∧ s.activeOp g q 2 = some r) ∧
  (∃ (n : Fin 256) (r : Running) (ps : List (Nat × Nat × Nat)) (s : State), let g := clusterOfCore n
      let q := QueueId.row (coreK n)
      let c := rowCtl r.q.desc
      let a := stageArith (arithCtlOf c.arith)
      s.rowCheck n r.q c = .ok ps ∧ s.activeOp g q 3 = some r) ∧
  (∃ (n : Fin 256) (r : Running) (ps : List (Nat × Nat × Nat)) (s : State), let g := clusterOfCore n
      let q := QueueId.row (coreK n)
      let c := rowCtl r.q.desc
      let a := stageArith (arithCtlOf c.arith)
      s.rowCheck n r.q c = .ok ps ∧ s.activeOp g q 4 = some r) ∧
  (∃ (n : Fin 256) (r : Running) (ps : List (Nat × Nat × Nat)) (s : State), let g := clusterOfCore n
      let q := QueueId.row (coreK n)
      let c := rowCtl r.q.desc
      let a := stageArith (arithCtlOf c.arith)
      s.rowCheck n r.q c = .ok ps ∧ s.activeOp g q 5 = some r) :=
  ⟨(by
    obtain ⟨ps, h⟩ := of_ok (e := (busy 0 (.row 0) (act (rowDsc 1) .started)).rowCheck 0 (rowDsc 1) (rowCtl (rowDsc 1).desc))
      (by decide)
    exact ⟨0, act (rowDsc 1) .started, ps, busy 0 (.row 0) (act (rowDsc 1) .started), h, by decide⟩),
   (by
    obtain ⟨ps, h⟩ := of_ok (e := (busy 0 (.row 0) (act (rowDsc 2) .started)).rowCheck 0 (rowDsc 2) (rowCtl (rowDsc 2).desc))
      (by decide)
    exact ⟨0, act (rowDsc 2) .started, ps, busy 0 (.row 0) (act (rowDsc 2) .started), h, by decide⟩),
   (by
    obtain ⟨ps, h⟩ := of_ok (e := (busy 0 (.row 0) (act (rowDsc 3) .started)).rowCheck 0 (rowDsc 3) (rowCtl (rowDsc 3).desc))
      (by decide)
    exact ⟨0, act (rowDsc 3) .started, ps, busy 0 (.row 0) (act (rowDsc 3) .started), h, by decide⟩),
   (by
    obtain ⟨ps, h⟩ := of_ok (e := (busy 0 (.row 0) (act (rowDsc 4) .started)).rowCheck 0 (rowDsc 4) (rowCtl (rowDsc 4).desc))
      (by decide)
    exact ⟨0, act (rowDsc 4) .started, ps, busy 0 (.row 0) (act (rowDsc 4) .started), h, by decide⟩),
   (by
    obtain ⟨ps, h⟩ := of_ok (e := (busy 0 (.row 0) (act (rowDsc 5) .started)).rowCheck 0 (rowDsc 5) (rowCtl (rowDsc 5).desc))
      (by decide)
    exact ⟨0, act (rowDsc 5) .started, ps, busy 0 (.row 0) (act (rowDsc 5) .started), h, by decide⟩)⟩

theorem witness_GradientsAndUpdatesWorkThrough :
  (∃ (g : Fin 32) (r : Running) (x : GroupDesc) (bs : List Byte) (s : State), let c := gradCtl r.q.desc
      let size := if c.bf16 then 2 else 4
      s.activeOp g .update 1 = some r ∧ r.phase = .started ∧ s.updLive (dieOfCluster g) = true ∧
      s.gradBad r.q.desc c = none ∧ s.group c.group = some x ∧
      s.updRead (dieOfCluster g) c.src (size * c.count) = .ok bs) ∧
  (∃ (i : Nat) (p : ChunkPart) (x : GroupDesc) (w s : State), s.chunks[i]? = some p ∧ s.chunkReady p = true ∧
      (∀ d : Fin 4, s.dies[d].upd.commit = none) ∧ p.root = s.devNumber ∧ p.kind = 0 ∧ s.group p.group = some x ∧
      ({ s with chunks := s.chunks.filter (fun y => !y.same p) }.stepHeader (s.chunkSum p).2).updWrite
        (dieOfStack (stackOf (landAddr x p.first))) (landAddr x p.first)
        (f32Bytes (s.chunkSum p).1) = .ok w) ∧
  (∃ (i m : Nat) (p : ChunkPart) (s : State), s.chunks[i]? = some p ∧ s.chunkReady p = true ∧
      (∀ d : Fin 4, s.dies[d].upd.commit = none) ∧ p.root ≠ s.devNumber ∧
      s.effParent p.root treeDepth s.devNumber = some m) ∧
  (∃ (g : Fin 32) (r : Running) (s : State), let c := updCtl r.q.desc
      let d := dieOfCluster g
      let new_ := (s.groupsIn c).flatMap (fun x => s.groupWork d x.1 x.2)
      s.activeOp g .update 2 = some r ∧ r.phase = .started ∧ s.updLive d = true ∧ updBad r.q.desc c = none ∧
      updGate s.dies[d].upd r.season = .go) ∧
  (∃ (d : Fin 4) (tb row k : Nat) (td : TableDesc) (l : LogRow) (s : State), s.updLive d = true ∧
      s.dies[d].upd.sumNext = some (tb, row, k) ∧ s.table tb = some td ∧
      s.stackFail (.onDie d.val (.req 5)) (fin12 k) = none ∧ s.hbm[fin12 k].log.find? (logRowIs tb row) = some l) ∧
  (∃ (d : Fin 4) (w : UpdWork) (s : State), s.updLive d = true ∧
      s.workNext s.dies[d].upd [] s.dies[d].upd.work = some w ∧
      delFirst (fun x => decide (x = w)) s.dies[d].upd.work ≠ []) :=
  ⟨⟨16, act gradDsc .started, grp, List.replicate 4 0, grouped (busy 16 .update (act gradDsc .started)), by decide⟩,
   (by
    obtain ⟨w, h⟩ := of_ok (e := ({ ({ grouped up with chunks := [⟨0, 0, 0, 0, 0, 0, [0]⟩] } : State) with chunks := ({ grouped up with chunks := [⟨0, 0, 0, 0, 0, 0, [0]⟩] } : State).chunks.filter (fun y => !y.same ⟨0, 0, 0, 0, 0, 0, [0]⟩) }.stepHeader
      (({ grouped up with chunks := [⟨0, 0, 0, 0, 0, 0, [0]⟩] } : State).chunkSum ⟨0, 0, 0, 0, 0, 0, [0]⟩).2).updWrite (dieOfStack (stackOf (landAddr grp 0))) (landAddr grp 0) (f32Bytes (({ grouped up with chunks := [⟨0, 0, 0, 0, 0, 0, [0]⟩] } : State).chunkSum ⟨0, 0, 0, 0, 0, 0, [0]⟩).1)) (by decide)
    exact ⟨0, ⟨0, 0, 0, 0, 0, 0, [0]⟩, grp, w, { grouped up with chunks := [⟨0, 0, 0, 0, 0, 0, [0]⟩] }, by decide, by decide, by decide,
      by decide, by decide, by decide, h⟩),
   ⟨0, 1, ⟨0, 0, 1, 0, 0, 0, [0]⟩, { linked (grouped up) with chunks := [⟨0, 0, 1, 0, 0, 0, [0]⟩] }, by decide⟩,
   ⟨16, act updDsc .started, grouped (busy 16 .update (act updDsc .started)), by decide⟩,
   ⟨3, 0, 0, 9, tbl, ⟨0, 0, [], some (List.replicate 8 0)⟩, ((tabled up).modStack 9 (fun k => { k with
      log := [⟨0, 0, [], some (List.replicate 8 0)⟩] })).modUpd 3 (fun u => { u with work := [.embed 0 0 0 9] }), by decide⟩,
   ⟨0, .embed 0 0 0 0, up.modUpd 0 (fun u => { u with work := [.embed 0 0 0 0, .embed 0 0 1 0], gsums := [(0, 0, [])] }), by decide⟩⟩

theorem witness_CommitDecidesByTheVote :
  (∃ (g : Fin 32) (r : Running) (s : State), let d := dieOfCluster g
      let vote : Word := BitVec.ofNat 64 (r.q.desc.bits 2 63 0)
      let clip : U32 := BitVec.ofNat 32 (r.q.desc.bits 3 31 0)
      s.activeOp g .update 3 = some r ∧ commitBad r.q.desc clip = none ∧ s.dies[d].upd.commit = none ∧
      s.dies[d].upd.job = none ∧ s.updLive d = true) ∧
  (∃ (g : Fin 32) (r : Running) (c : CommitJob) (s : State), let d := dieOfCluster g
      s.updLive d = true ∧ s.activeOp g .update 3 = some r ∧
      commitBad r.q.desc (BitVec.ofNat 32 (r.q.desc.bits 3 31 0)) = none ∧ s.dies[d].upd.commit = some c ∧
      ¬ (c.cluster = g.val ∧ c.run = r) ∧ c.vote = BitVec.ofNat 64 (r.q.desc.bits 2 63 0) ∧
      c.clipNorm = BitVec.ofNat 32 (r.q.desc.bits 3 31 0)) ∧
  (∃ (n dec season : Nat) (s : State), s.phaseDue = some (n, dec, season)) :=
  ⟨⟨0, act commitDsc .started, busy 0 .update (act commitDsc .started), by decide⟩,
   ⟨1, act commitDsc .started, commitJob, (busy 1 .update (act commitDsc .started)).modUpd 0 (fun u => { u with commit := some commitJob }),
    by decide⟩,
   ⟨7, 1, 0, { up with phaseDue := some (7, 1, 0) }, by decide⟩⟩

theorem witness_PortsComeUpStepByStep :
  (∃ (p : Fin 16) (s : State), ∃ tx : Bool, s.portAt p .pma = true) ∧
  (∃ (p : Fin 16) (s : State), ∃ (lanes inv : BitVec 8) (rev : Bool), s.portAt p .pma = true ∧
      (if s.ports[p].keepKeys then lanes &&& s.ports[p].lanesGood else lanes) ≠ 0) ∧
  (∃ (p : Fin 16) (s : State), ∃ (lanes inv : BitVec 8) (rev : Bool), s.portAt p .pma = true ∧
      (if s.ports[p].keepKeys then lanes &&& s.ports[p].lanesGood else lanes) = 0) ∧
  (∃ (p : Fin 16) (s : State), s.portAt p .fec = true ∧ s.ports[p].keepKeys = false ∧ s.ports[p].worn = false) ∧
  (∃ (p : Fin 16) (s : State), s.portAt p .fec = true ∧ s.ports[p].keepKeys = true) ∧
  (      ∃ (p : Fin 16) (s : State), ∃ (dev role shape : Nat) (pp : Fin 16) (dg : BitVec 512) (c : LinkCarry) (k : Nat), s.portAt p .hello = true ∧
      dev = s.neighbour p ∧ role = roleOpposite (portRole p) ∧ pp.val = role + 8 * (p.val / 8) ∧
      shape = s.portShape p ∧ s.peerBarred dev dg = false ∧ s.ports[p].worn = false) ∧
  (      ∃ (p : Fin 16) (s : State), ∃ (dev role shape : Nat) (pp : Fin 16) (dg : BitVec 512) (c : LinkCarry) (k : Nat), s.portAt p .hello = true ∧
      (dev ≠ s.neighbour p ∨ role ≠ roleOpposite (portRole p) ∨ pp.val ≠ roleOpposite (portRole p) + 8 * (p.val / 8) ∨
          shape ≠ s.portShape p)) ∧
  (∃ (p : Fin 16) (s : State), ∃ (ss : BitVec 256) (sig : List Byte) (c : LinkCarry) (k : Nat), s.portOn p = true ∧
      s.ports[p].state = .keying ∧ s.rot.halted = false ∧ s.ports[p].keyex.secret = some ss ∧
      s.peerBarred s.ports[p].peerDev s.ports[p].peerDigest = false ∧ s.ports[p].keepKeys = false ∧
      ackedFlits c.ackSeq s.ports[p].replay = []) :=
  ⟨⟨0, port0 (fun x => { x with state := .training, step := .pma }), true, by decide⟩,
   ⟨0, port0 (fun x => { x with state := .training, step := .pma }), 0x80, 0, false, by decide⟩,
   ⟨0, port0 (fun x => { x with state := .training, step := .pma }), 0, 0, false, by decide⟩,
   ⟨0, port0 (fun x => { x with state := .training, step := .fec }), by decide⟩,
   ⟨0, port0 (fun x => { x with state := .training, step := .fec, keepKeys := true }), by decide⟩,
   ⟨0, (port0 (fun x => { x with state := .training, step := .hello })).modJob (fun j => { j with state := .none }), 1, 1, 1, 1, 0, ⟨0, 0, 0⟩, 0, by decide⟩,
   ⟨0, port0 (fun x => { x with state := .training, step := .hello }), 1, 0, 1, 1, 0, ⟨0, 0, 0⟩, 0, by decide⟩,
   ⟨0, (port0 (fun x => { x with state := .keying, keyex := { x.keyex with secret := some 5 } })).modJob (fun j => { j with state := .none }),
    5, [], ⟨0, 0, 0⟩, 0, by decide⟩⟩

theorem witness_LinksRetryRetrainAndRekey :
  (∃ (p : Fin 16) (s : State), s.portLive p = true ∧ ∃ (f : Flit) (n : Nat), s.bedOn (bedHost (p.val / 8)) = true ∧
      ((f.check = .clean ∧ n = 0) ∨ f.check = .corrected n) ∧ f.ftype ≠ .idle ∧ f.seq = s.ports[p].expectSeq ∧
      (s.carryIn p (flitCarry f)).roomFor p f = true) ∧
  (∃ (p : Fin 16) (s : State), s.portLive p = true ∧ ∃ f : Flit, s.bedOn (bedHost (p.val / 8)) = true ∧
      (f.check = .fecBad ∨ f.check = .tagBad) ∧ s.ports[p].worn = false) ∧
  (∃ (p : Fin 16) (s : State), s.portLive p = true ∧
      ∃ (seq k : Nat) (c : LinkCarry) (fs : List TxFlit), ackedFlits c.ackSeq s.ports[p].replay = [] ∧
      ackedFlits ((seq + 4095) % 4096) s.ports[p].replay = [] ∧
      s.ports[p].replay.dropWhile (fun f => decide (f.seq ≠ seq % 4096)) = fs ∧ fs ≠ [] ∧
      (s.ports[p].keys = none ∨ s.ports[p].txCount.toNat + fs.length ≤ 2 ^ 46)) ∧
  (∃ (p : Fin 16) (s : State), s.portLive p = true ∧
      ∃ lost : BitVec 8, s.ports[p].lanesUp &&& ~~~lost ≠ s.ports[p].lanesUp ∧
      s.ports[p].lanesUp &&& ~~~lost ≠ 0) ∧
  (∃ (p : Fin 16) (s : State), s.portLive p = true ∧ ∃ lost : BitVec 8, s.ports[p].lanesUp ≠ 0 ∧
      s.ports[p].lanesUp &&& ~~~lost = 0) ∧
  (∃ (p : Fin 16) (s : State), s.portLive p = true ∧
      s.objNum 0x6010 2 ≤ max s.ports[p].failures s.ports[p].failuresTx) ∧
  (∃ (p : Fin 16) (s : State), s.portLive p = true ∧ s.ports[p].worn = true ∧ s.rot.halted = false) ∧
  (∃ (p : Fin 16) (s : State), s.portLive p = true) :=
  ⟨⟨0, linked up, by decide, ⟨.head, 0, false, 0, 0, 0, 0, .clean, []⟩, 0, by decide⟩,
   ⟨15, linked up, by decide, ⟨.body, 3, true, 4095, 0, 0, 0, .fecBad, []⟩, by decide⟩,
   ⟨0, port0 (fun x => { x with replay := [tflit 5, tflit 6] }), by decide, 5, 0, ⟨4, 0, 0⟩, [tflit 5, tflit 6], by decide⟩,
   ⟨0, port0 (fun x => { x with lanesUp := 0xFF }), by decide, 0x01, by decide⟩,
   ⟨0, port0 (fun x => { x with lanesUp := 0x01 }), by decide, 0x01, by decide⟩,
   ⟨0, port0 (fun x => { x with failures := 1000 }), by decide⟩,
   ⟨15, (linked up).modPort 15 (fun x => { x with keys := some (1, 2), txCount := 0x400000000000 }), by decide⟩,
   ⟨15, linked up, by decide⟩⟩

theorem witness_DeliveredPacketsTakeEffect :
  (∃ (p : Packet) (x w s : State), s.pick .write anyPacket = some (p, x) ∧
      x.writeChecked (.req (x.writeRequester p.key0.toNat)) p.key0.toNat p.payload = .ok w) ∧
  (∃ (p : Packet) (td : TableDesc) (slot addr : Nat) (rec : List Byte) (x s : State), let k := rowKeys p
      let payload := if k.versionOnly then leBytes 2 (recVersion rec) else rec
      s.pick .rowReq (fun p => !s.rowWaits p) = some (p, x) ∧ s.table k.table = some td ∧
      s.locate .any k.table td 0 k.row = .ok (s.devNumber, slot, addr) ∧
      s.readChecked (.req 2) addr (if k.versionOnly then 16 else td.stride) = .ok rec ∧
      (s.route p.src (flowSide s.devNumber p.src 1)).isSome = true) ∧
  (∃ (p : Packet) (g : Fin 32) (j : RakeJob) (x s : State), let k := rowKeys p
      s.pick .rowResp anyPacket = some (p, x) ∧ rakeOfUnit k.unit = some g ∧ k.status = 0 ∧
      (s.rakeItems g).find? (fun y => decide (y.2.tag = some k.tag)) = none ∧
      (s.stagedRows g (fun st => decide (st = .asked k.tag ∨ st = .reading k.tag))) = [] ∧
      s.clusters[g].rake.jobs.find? (fun j => j.bag.any (fun b => decide (b.tag = some k.tag))) = some j) ∧
  (∃ (p : Packet) (x s : State), s.pick .scatterAdd anyPacket = some (p, x)) ∧
  (∃ (p : Packet) (x s : State), s.pick .reduce anyPacket = some (p, x) ∧ (chunkOfPacket p).kind ≠ 2) ∧
  (∃ (p : Packet) (x s : State), s.pick .reduce anyPacket = some (p, x) ∧ (chunkOfPacket p).kind = 2 ∧
      (∀ d : Fin 4, s.dies[d].upd.commit = none)) :=
  ⟨(by
    obtain ⟨w, h⟩ := of_ok (e := ({ got up (pkt .write 0x1000 0 [1]) with delivered := [] } : State).writeChecked (.req 4) 0x1000 [1])
      (by decide)
    exact ⟨pkt .write 0x1000 0 [1], _, w, got up (pkt .write 0x1000 0 [1]), rfl, h⟩),
   ⟨pkt .rowReq 0 0 [], tbl, 0, 0x100000, List.replicate 32 0, _, got (tabled up) (pkt .rowReq 0 0 []), rfl, by decide⟩,
   ⟨rowAns, 0, rkBag, _, (got up rowAns).modRake 0 (fun x => { x with jobs := [rkBag] }), rfl, by decide⟩,
   ⟨pkt .scatterAdd 0 0 [], _, got up (pkt .scatterAdd 0 0 []), rfl⟩,
   ⟨pkt .reduce 0 0 [], _, got up (pkt .reduce 0 0 []), rfl, by decide⟩,
   ⟨pkt .reduce 0 0x20000 [], _, got up (pkt .reduce 0 0x20000 []), rfl, by decide⟩⟩

theorem witness_FlowsAcknowledgeAndRetransmit :
  (∃ (p : Packet) (x s : State), let fvc := bitsOf p.key0.toNat 33 32
      s.pick .e2eAck anyPacket = some (p, x) ∧ fvc ≠ 2) ∧
  (∃ (p : Packet) (x s : State), let fvc := bitsOf p.key0.toNat 33 32
      s.pick .e2eAck anyPacket = some (p, x)) ∧
  (∃ (p : Packet) (x s : State), let f := s.txFlow p.src (bitsOf p.key0.toNat 33 32)
      let side := flowSide s.devNumber f.dst f.fvc
      s.pick .e2eNak anyPacket = some (p, x) ∧ (∀ q ∈ f.unacked, (s.route q.dst side).isSome = true)) ∧
  (∃ (i : Nat) (f : TxFlow) (s : State), let side := flowSide s.devNumber f.dst f.fvc
      (s.txFlows.filter (fun f => decide (f.unacked ≠ [])))[i]? = some f ∧
      (∀ q ∈ f.unacked, (s.route q.dst side).isSome = true)) ∧
  (∃ (p q : Packet) (f : TxFlow) (x s : State), s.pick .unreachable anyPacket = some (p, x) ∧
      s.returned (bitsOf p.key0.toNat 31 0) (bitsOf p.key0.toNat 35 32) = some (f, q) ∧ f.fvc ≠ 2) ∧
  (      ∃ (i : Nat) (f : RxFlow) (port : Fin 16) (a b : Bool) (s : State), (s.rxFlows.filter (fun f => decide (0 < f.sinceAck)))[i]? = some f ∧
      s.route f.src (flowSide s.devNumber f.src 2) = some (port, a, b)) :=
  ⟨⟨pkt .e2eAck 0 0 [], _, { got up (pkt .e2eAck 0 0 []) with txFlows := [flow1] }, rfl, by decide⟩,
   ⟨pkt .e2eAck 0 0 [], _, { got up (pkt .e2eAck 0 0 []) with txFlows := [flow1] }, rfl⟩,
   ⟨pkt .e2eNak 0 0 [], _, { got up (pkt .e2eNak 0 0 []) with txFlows := [flow1] }, rfl, by decide⟩,
   ⟨0, flow1, { linked up with txFlows := [flow1] }, by decide⟩,
   ⟨pkt .unreachable 0x1_0000_0000 0 [], sentTo1, flow1, _, { got up (pkt .unreachable 0x1_0000_0000 0 []) with txFlows := [flow1] }, rfl,
    by decide⟩,
   ⟨0, ⟨1, 0, 5, 1, []⟩, 8, false, false, { linked up with rxFlows := [⟨1, 0, 5, 1, []⟩] }, by decide⟩⟩

theorem witness_HostRequestsAreServed :
  (∃ (h : Fin 2) (f : Frame) (s : State), s.hostLive h = true ∧ s.subExists h f.sub = true ∧
      s.hosts[h].subs[f.sub].link = true ∧ f.bytes ≤ frameLimit f.macsec ∧ f.fcsOk = false) ∧
  (      ∃ (h : Fin 2) (f : Frame) (x : SubPort) (qpn psn i : Nat) (req : RoceReq) (q : QueuePair) (s : State), s.hostLive h = true ∧
      s.subExists h f.sub = true ∧ s.hosts[h].subs[f.sub].link = true ∧ f.bytes ≤ frameLimit f.macsec ∧
      f.fcsOk = true ∧ s.macsecCheck h f = some x ∧ s.cannotStore h (framePrio f) f = false ∧
      f.body = .roce q.cfg.peerIp true qpn psn req ∧ s.qpOf h qpn = some (i, q) ∧ q.cfg.ingest = false ∧
      framePrio f ≠ s.hosts[h].ingestPrio ∧ q.cfg.sub = f.sub.val ∧ q.error = false ∧ psn = q.expectPsn ∧
      req ≠ .cnp ∧ req ≠ .other ∧ roceShapeOk q.cfg.mtu req = true ∧
      (req.isRead = true → (s.hosts[h].accepted.filter (fun w => decide (w.qpn = q.cfg.qpn) && w.req.isRead)).length < 16)) ∧
  (      ∃ (h : Fin 2) (w : RoceWait) (i : Nat) (begins : Bool) (q : QueuePair) (b : List Byte) (x y s : State), s.nextWait h RoceReq.isSend = some (w, i, q, x) ∧
      sendParts w.req = some (begins, true, b) ∧ begins ≠ q.sendOpen ∧ q.cfg.ingest = false ∧
      (begins = true → (q.filled - q.consumed).toNat < x.recvSlots h q) ∧
      (q.sendBuf ++ b).length + 8 ≤ q.cfg.slotBytes ∧ x.fillSlot h q (q.sendBuf ++ b) = .ok y) ∧
  (      ∃ (h : Fin 2) (w : RoceWait) (i : Nat) (begins : Bool) (q : QueuePair) (b : List Byte) (x s : State), s.nextWait h RoceReq.isSend = some (w, i, q, x) ∧
      sendParts w.req = some (begins, false, b) ∧ begins ≠ q.sendOpen ∧ q.cfg.ingest = false ∧
      (begins = true → (q.filled - q.consumed).toNat < x.recvSlots h q) ∧
      (q.sendBuf ++ b).length + 8 ≤ q.cfg.slotBytes) ∧
  (      ∃ (h : Fin 2) (w : RoceWait) (i : Nat) (begins ends : Bool) (q : QueuePair) (b : List Byte) (x s : State), s.nextWait h RoceReq.isSend = some (w, i, q, x) ∧
      sendParts w.req = some (begins, ends, b) ∧ begins ≠ q.sendOpen ∧ q.cfg.ingest = true) ∧
  (      ∃ (h : Fin 2) (w : RoceWait) (i k va n a : Nat) (q : QueuePair) (b : List Byte) (x y s : State), let m := b.length - (if n = b.length then 0 else min b.length ((a + b.length) % 8))
      s.nextWait h RoceReq.isWrite = some (w, i, q, x) ∧
      (w.req = .writeOnly k va n b ∨ w.req = .writeFirst k va n b) ∧ q.writeAt = none ∧ q.writeTail = [] ∧
      n ≤ 2 ^ 31 ∧ b.length ≤ n ∧ x.remotePlace h q true k va n = some a ∧
      x.writeChecked (.onDie (4 + h.val) (.req 6)) a (b.take m) = .ok y) ∧
  (      ∃ (h : Fin 2) (w : RoceWait) (i a left : Nat) (q : QueuePair) (b : List Byte) (x y s : State), let bs := q.writeTail ++ b
      let m := bs.length - (if left = b.length then 0 else min bs.length ((a + bs.length) % 8))
      s.nextWait h RoceReq.isWrite = some (w, i, q, x) ∧ ((w.req = .writeMiddle b ∧
      b.length < left) ∨ (w.req = .writeLast b ∧ b.length = left)) ∧ q.writeAt = some (a, left) ∧
      x.writeChecked (.onDie (4 + h.val) (.req 6)) a (bs.take m) = .ok y) ∧
  (      ∃ (h : Fin 2) (w : RoceWait) (i k va n : Nat) (q : QueuePair) (b : List Byte) (x s : State), s.nextWait h RoceReq.isWrite = some (w, i, q, x) ∧
      (w.req = .writeOnly k va n b ∨ w.req = .writeFirst k va n b) ∧ q.writeAt = none ∧ n ≤ 2 ^ 31 ∧
      b.length ≤ n ∧ x.remotePlace h q true k va n = none) ∧
  (      ∃ (h : Fin 2) (w : RoceWait) (i k va n a : Nat) (q : QueuePair) (bs : List Byte) (x s : State), s.nextWait h RoceReq.isRead = some (w, i, q, x) ∧
      w.req = .read k va n ∧ n ≤ 2 ^ 31 ∧ x.remotePlace h q false k va n = some a ∧
      x.readChecked (.onDie (4 + h.val) (.req 6)) a n = .ok bs) :=
  ⟨⟨0, ⟨0, none, none, .bare, false, false, 100, .other⟩, up, by decide⟩,
   (by
    have h : ∃ x, (bare (hosted .recv [])).macsecCheck 0 ⟨0, none, none, .bare, true, false, 100, .roce 3 true 5 0 (.sendOnly [])⟩ =
      some x := of_some (by decide)
    obtain ⟨x, h⟩ := h
    exact ⟨0, _, x, 5, 0, 0, .sendOnly [], qp0, bare (hosted .recv []), by decide, by decide, by decide, by decide, by decide, h,
      by decide⟩),
   (by
    obtain ⟨y, h⟩ := of_ok (e := (hostedServed .recv ⟨5, 0, .sendOnly [1], 0⟩).fillSlot 0 qp0 ([] ++ [1])) (by decide +kernel)
    exact ⟨0, ⟨5, 0, .sendOnly [1], 0⟩, 0, true, qp0, [1], hostedServed .recv ⟨5, 0, .sendOnly [1], 0⟩, y,
      hosted .recv [⟨5, 0, .sendOnly [1], 0⟩], rfl, rfl, by decide, by decide, by decide, by decide, h⟩),
   ⟨0, ⟨5, 0, .sendFirst [1], 0⟩, 0, true, qp0, [1], hostedServed .recv ⟨5, 0, .sendFirst [1], 0⟩,
    hosted .recv [⟨5, 0, .sendFirst [1], 0⟩], rfl, rfl, by decide, by decide, by decide, by decide⟩,
   ⟨0, ⟨5, 0, .sendOnly [1], 0⟩, 0, true, true, qpIn, [1], servedQ qpIn .recv ⟨5, 0, .sendOnly [1], 0⟩,
    hostedQ qpIn .recv [⟨5, 0, .sendOnly [1], 0⟩], rfl, rfl, by decide, by decide⟩,
   (by
    obtain ⟨y, h⟩ := of_ok (e := (hostedServed .general ⟨5, 0, .writeOnly 0 0 1 [1], 0⟩).writeChecked (.req 6) 0x100000 [1]) (by decide)
    exact ⟨0, ⟨5, 0, .writeOnly 0 0 1 [1], 0⟩, 0, 0, 0, 1, 0x100000, qp0, [1], hostedServed .general ⟨5, 0, .writeOnly 0 0 1 [1], 0⟩, y,
      hosted .general [⟨5, 0, .writeOnly 0 0 1 [1], 0⟩], rfl, .inl rfl, by decide, by decide, by decide, by decide, by decide, h⟩),
   (by
    obtain ⟨y, h⟩ := of_ok (e := (servedQ qpMid .general ⟨5, 0, .writeLast [1], 0⟩).writeChecked (.req 6) 0x100000 [1]) (by decide)
    exact ⟨0, ⟨5, 0, .writeLast [1], 0⟩, 0, 0x100000, 1, qpMid, [1], servedQ qpMid .general ⟨5, 0, .writeLast [1], 0⟩, y,
      hostedQ qpMid .general [⟨5, 0, .writeLast [1], 0⟩], rfl, .inr ⟨rfl, by decide⟩, by decide, h⟩),
   ⟨0, ⟨5, 0, .writeOnly 0 4096 1 [1], 0⟩, 0, 0, 4096, 1, qp0, [1], hostedServed .general ⟨5, 0, .writeOnly 0 4096 1 [1], 0⟩,
    hosted .general [⟨5, 0, .writeOnly 0 4096 1 [1], 0⟩], rfl, .inl rfl, by decide⟩,
   ⟨0, ⟨5, 0, .read 0 4095 1, 0⟩, 0, 0, 4095, 1, 0x100FFF, qp0, [0], hostedServed .general ⟨5, 0, .read 0 4095 1, 0⟩,
    hosted .general [⟨5, 0, .read 0 4095 1, 0⟩], rfl, rfl, by decide⟩⟩

theorem witness_SlotsAndAssociationsTurnOver :
  (∃ (h : Fin 2) (n : Fin 256) (v : U32) (q : QueuePair) (s : State), s.hostLive h = true ∧
      tabFind s.hosts[h].qps n.val = some q ∧ q.cfg.ingest = false ∧
      (v - q.consumed).toNat ≤ (q.filled - q.consumed).toNat) ∧
  (∃ (h : Fin 2) (n : Fin 256) (v : U32) (q : QueuePair) (s : State), s.hostLive h = true ∧
      tabFind s.hosts[h].qps n.val = some q ∧ (q.filled - q.consumed).toNat < (v - q.consumed).toNat) ∧
  (∃ (h : Fin 2) (i : Fin 4) (s : State), s.hostLive h = true ∧ s.hosts[h].subs[i].keyed = true ∧
      s.hosts[h].subs[i].worn = true ∧ s.rot.halted = false) ∧
  (∃ (h : Fin 2) (i : Fin 4) (a : Nat) (s : State), s.hostLive h = true ∧ s.hosts[h].subs[i].newAn = some a ∧
      s.hosts[h].subs[i].installedOver s.aon.rtc = true) ∧
  (∃ (h : Fin 2) (i : Fin 4) (a : Nat) (s : State), s.hosts[h].subs[i].oldAn = some a ∧
      s.hosts[h].subs[i].installedOver s.aon.rtc = true ∧ a ≠ s.hosts[h].subs[i].newest) ∧
  (∃ (h : Fin 2) (i : Fin 4) (s : State), s.hosts[h].subs[i].installedOver s.aon.rtc = false) :=
  ⟨⟨0, 0, 0, qp0, hosted .recv [], by decide⟩,
   ⟨0, 0, 1, qp0, hosted .recv [], by decide⟩,
   ⟨0, 0, up.modHost 0 (fun p => { p with subs := p.subs.set 0 { p.subs[0] with keyed := true, keys := [(0, (1, 2))], txPn := [(0, 2 ^ 62)] } }), by decide⟩,
   ⟨1, 0, 1, up.modHost 1 (fun p => { p with subs := p.subs.set 0 { p.subs[0] with newAn := some 1, installedRtc := 9950000000#64 } }), by decide⟩,
   ⟨0, 3, 2, up.modHost 0 (fun p => { p with subs := p.subs.set 3 { p.subs[3] with oldAn := some 2, installedRtc := 9950000000#64 } }), by decide⟩,
   ⟨0, 3, up.modHost 0 (fun p => { p with subs := p.subs.set 3 { p.subs[3] with oldAn := some 2, installedRtc := 9950000001#64 } }), by decide⟩⟩

theorem witness_ShardsAreDecodedAndEmitted :
  (∃ (i : Fin 2) (region : Nat) (bs : List Byte) (rest : List (Nat × List Byte)) (s : State), let x := s.ingests[i]
      let n := noticeOf region bs
      let late := 2 ^ 31 ≤ (n.seq + 2 ^ 32 - x.nextSeq.toNat) % 2 ^ 32 ∨ (x.ready ++ x.early).any (fun m => decide (m.seq = n.seq)) = true
      x.noticeBytes = (region, bs) :: rest ∧ s.ingestLive i = true) ∧
  (      ∃ (i : Fin 2) (c : IngestConfig) (n : Notice) (rest : List Notice) (a : Nat) (bs stream : List Byte) (rs : List (List Byte)) (s : State), let x := s.ingests[i]
      x.cfg = some c ∧ x.ready = n :: rest ∧ s.ingestLive i = true ∧ x.decoded.length < 2 ∧ n.bad = none ∧
      s.shardPlace i n = .ok a ∧ s.readChecked (.onDie (4 + i.val) (.req 6)) a n.length = .ok bs ∧
      s.decodeShard n.codec bs = .ok stream ∧ stream.length ≤ c.stageBytes ∧
      splitRecords c.slotLog2 (stream.length / 16 + 1) 0 stream = .ok rs ∧
      (n.records = 0 ∨ n.records = (rs.filter notPad).length)) ∧
  (∃ (i : Fin 2) (c : IngestConfig) (n : Notice) (rest : List Notice) (o : Nat) (s : State), let x := s.ingests[i]
      x.cfg = some c ∧ x.ready = n :: rest ∧ s.ingestLive i = true ∧ x.decoded.length < 2 ∧ n.bad = some o) ∧
  (∃ (region : Nat) (bs : List Byte), bs.length ≠ 64) ∧
  (      ∃ (i : Fin 2) (c : IngestConfig) (n : Notice) (rs : List (List Byte)) (rest : List (Notice × List (List Byte))) (s : State), let x := s.ingests[i]
      x.cfg = some c ∧ x.decoded = (n, rs) :: rest ∧ s.ingestLive i = true ∧ x.emitQ = []) ∧
  (      ∃ (i : Fin 2) (c : IngestConfig) (r : List Byte) (last : Bool) (rest : List (List Byte × Bool)) (w s : State), let x := s.ingests[i]
      let size := 2 ^ c.outLog2
      let pos := x.outProduced.toNat % size
      let n := roundUp r.length 64
      x.cfg = some c ∧ x.emitQ = (r, last) :: rest ∧ s.ingestLive i = true ∧ pos + n ≤ size ∧ n ≤ x.free c ∧
      s.writeChecked (.onDie (4 + i.val) (.ownReq (.ingest i.val) 6)) (c.outAddr + pos) (r ++ List.replicate (n - r.length) 0) = .ok w) ∧
  (      ∃ (i : Fin 2) (c : IngestConfig) (r : List Byte) (last : Bool) (rest : List (List Byte × Bool)) (v w s : State), let x := s.ingests[i]
      let size := 2 ^ c.outLog2
      let pos := x.outProduced.toNat % size
      let n := roundUp r.length 64
      let pad := padRecord (size - pos)
      x.cfg = some c ∧ x.emitQ = (r, last) :: rest ∧ s.ingestLive i = true ∧ size < pos + n ∧
      pad.length + n ≤ x.free c ∧
      s.writeChecked (.onDie (4 + i.val) (.ownReq (.ingest i.val) 6)) (c.outAddr + pos) pad = .ok v ∧
      v.writeChecked (.onDie (4 + i.val) (.ownReq (.ingest i.val) 6)) c.outAddr (r ++ List.replicate (n - r.length) 0) = .ok w) ∧
  (∃ (i : Fin 2) (v : Word) (s : State), let x := s.ingests[i]
      s.ingestLive i = true ∧ (v - x.outConsumed).toNat ≤ (x.outProduced - x.outConsumed).toNat) ∧
  (∃ (i : Fin 2) (v : Word) (s : State), let x := s.ingests[i]
      s.ingestLive i = true ∧ (x.outProduced - x.outConsumed).toNat < (v - x.outConsumed).toNat) :=
  ⟨⟨0, 0, List.replicate 64 0, [], ingesting (fun x => { x with noticeBytes := [(0, List.replicate 64 0)] }), by decide⟩,
   ⟨0, icfg, notice0 none, [], 0x100000, [16, 0, 0, 1, 0, 0, 0, 0, 0, 0, 0, 0, 0, 0, 0, 0], [16, 0, 0, 1, 0, 0, 0, 0, 0, 0, 0, 0, 0, 0, 0, 0],
    [[16, 0, 0, 1, 0, 0, 0, 0, 0, 0, 0, 0, 0, 0, 0, 0]],
    (ingesting (fun x => { x with ready := [notice0 none] })).setMem (up.mem.writeBytes 0x100000 [16, 0, 0, 1]), by decide⟩,
   ⟨0, icfg, notice0 (some 4), [], 4, ingesting (fun x => { x with ready := [notice0 (some 4)] }), by decide⟩,
   ⟨0, [], by decide⟩,
   ⟨0, icfg, notice0 none, [[1]], [], ingesting (fun x => { x with decoded := [(notice0 none, [[1]])] }), by decide⟩,
   (by
    obtain ⟨w, h⟩ := of_ok (e := (ingesting (fun x => { x with emitQ := [(List.replicate 16 0, false)], outProduced := 0xFFC0 })).writeChecked
      (.onDie 4 (.ownReq (.ingest 0) 6)) 0x40FFC0 (List.replicate 64 0)) (by decide)
    exact ⟨0, icfg, List.replicate 16 0, false, [], w, ingesting (fun x => { x with
      emitQ := [(List.replicate 16 0, false)], outProduced := 0xFFC0 }), by decide, by decide, by decide, by decide, by decide, h⟩),
   (by
    obtain ⟨v, h⟩ := of_ok (e := (ingesting (fun x => { x with emitQ := [(List.replicate 128 0, false)], outProduced := 0xFFC0, outConsumed := 0xFFC0 })).writeChecked (.onDie 4 (.ownReq (.ingest 0) 6)) 0x40FFC0 (padRecord 64)) (by decide)
    obtain ⟨w, k⟩ := of_ok (e := v.writeChecked (.onDie 4 (.ownReq (.ingest 0) 6)) 0x400000 (List.replicate 128 0 ++ List.replicate 0 0))
      (by cases h; decide +kernel)
    exact ⟨0, icfg, List.replicate 128 0, false, [], v, w, (ingesting (fun x => { x with emitQ := [(List.replicate 128 0, false)], outProduced := 0xFFC0, outConsumed := 0xFFC0 })),
      by decide, by decide, by decide, by decide, by decide, h, k⟩),
   ⟨0, 5, ingesting (fun x => { x with outProduced := 5 }), by decide⟩,
   ⟨0, 5, ingesting (fun x => x), by decide⟩⟩

theorem witness_BreopRequestsAreAnswered :
  (∃ (r : BreopReq) (o : ObjSpec) (s : State), let x := breopFields r.payload
      Asked s r ∧ r.op = 1 ∧ r.payload.length = 8 ∧ x.reserved = false ∧ x.high = 0 ∧
      (s.took r).findObj x.index x.sub = .ok o ∧ o.access ≠ .wo ∧ (x.type = o.type ∨ x.type = 0) ∧
      ¬ (o.index = 0x7001 ∧ o.sub = 5) ∧ ¬ (o.index = 0x8010 ∧ o.sub = 2) ∧
      ((s.took r).objValue r.src o).length ≤ 1024) ∧
  (∃ (r : BreopReq) (o : ObjSpec) (s : State), let x := breopFields r.payload
      let w := (s.took r).beforeRead r.src o.index o.sub
      Asked s r ∧ r.op = 1 ∧ r.payload.length = 8 ∧ x.reserved = false ∧ x.high = 0 ∧
      (s.took r).findObj x.index x.sub = .ok o ∧ o.access ≠ .wo ∧ (x.type = o.type ∨ x.type = 0) ∧
      (w.objValue r.src o).length ≤ 1024) ∧
  (∃ (r : BreopReq) (st : Nat) (s : State), let x := breopFields r.payload
      Asked s r ∧ r.op = 1 ∧ r.payload.length = 8 ∧ x.reserved = false ∧ x.high = 0 ∧
      (s.took r).findObj x.index x.sub = .error st) ∧
  (∃ (r : BreopReq) (st : Nat) (v : ObjValue) (w s : State), let x := breopFields r.payload
      Asked s r ∧ r.op = 2 ∧ 8 ≤ r.payload.length ∧ r.payload.length ≤ 1032 ∧ x.reserved = false ∧ x.high = 0 ∧
      writtenValue x.type (r.payload.drop 8) = some v ∧
      (s.took r).writeObject (writerOf r) x.index x.sub v = (st, w)) ∧
  (∃ (r : BreopReq) (o : ObjSpec) (v : ObjValue) (s : State), let x := breopFields r.payload
      Asked s r ∧ r.op = 2 ∧ 8 ≤ r.payload.length ∧ r.payload.length ≤ 1032 ∧ x.reserved = false ∧ x.high = 0 ∧
      writtenValue x.type (r.payload.drop 8) = some v ∧ (s.took r).findObj x.index x.sub = .ok o ∧
      o.access = .rws ∧ r.auth = false) ∧
  (∃ (r : BreopReq) (o : ObjSpec) (s : State), let x := breopFields r.payload
      let v := (s.took r).objValue r.src o
      Asked s r ∧ r.op = 3 ∧ r.payload.length = 16 ∧ x.reserved = false ∧ 1 ≤ x.word1 ∧ x.word1 ≤ 1024 ∧
      (s.took r).findObj x.index x.sub = .ok o ∧ o.access ≠ .wo ∧ x.type = o.type ∧ isNumType o.type = false ∧
      o.index ∉ [0x7001, 0x8010, 0x3001] ∧ x.high ≤ v.length) ∧
  (∃ (r : BreopReq) (o : ObjSpec) (s : State), let x := breopFields r.payload
      let u := if x.high = 0 then (s.took r).beforeRead r.src o.index o.sub else s.took r
      let v := u.objValue r.src o
      let d := slice v x.high x.word1
      let w := if o.index = 0x3001 ∧ o.sub = 2 then u.modHealth (Health.markRead x.high d.length) else u
      Asked s r ∧ r.op = 3 ∧ r.payload.length = 16 ∧ x.reserved = false ∧ 1 ≤ x.word1 ∧ x.word1 ≤ 1024 ∧
      (s.took r).findObj x.index x.sub = .ok o ∧ o.access ≠ .wo ∧ x.type = o.type ∧ isNumType o.type = false ∧
      x.high ≤ v.length) ∧
  (∃ (r : BreopReq) (o : ObjSpec) (bs : List Byte) (s : State), let x := breopFields r.payload
      Asked s r ∧ r.op = 4 ∧ x.reserved = false ∧ 1 ≤ x.word1 ∧ x.word1 ≤ 1024 ∧
      r.payload.length = 16 + roundUp x.word1 8 ∧ allZero (r.payload.drop (16 + x.word1)) = true ∧
      (s.took r).findObj x.index x.sub = .ok o ∧ (s.took r).writeDenied (writerOf r) o = none ∧ x.type = o.type ∧
      isNumType o.type = false ∧ (∀ n, objMaxLen o = some n → x.high + x.word1 ≤ n) ∧
      (s.took r).imageBusy o x.high = false ∧
      stageBlock (s.stagingOf o) (writerOf r) x.high (slice r.payload 16 x.word1) = .ok bs) ∧
  (∃ (r : BreopReq) (o : ObjSpec) (bs : List Byte) (st : Nat) (w s : State), let x := breopFields r.payload
      let n := x.word1 % 65536
      Asked s r ∧ r.op = 4 ∧ x.reserved = false ∧ 1 ≤ n ∧ n ≤ 1024 ∧ x.word1 = n + 65536 + bs.length * 2 ^ 32 ∧
      bs.length < 2 ^ 32 ∧ r.payload.length = 16 + roundUp n 8 ∧ allZero (r.payload.drop (16 + n)) = true ∧
      (s.took r).findObj x.index x.sub = .ok o ∧ (s.took r).writeDenied (writerOf r) o = none ∧ x.type = o.type ∧
      isNumType o.type = false ∧ (∀ m, objMaxLen o = some m → x.high + n ≤ m) ∧
      (s.took r).imageBusy o x.high = false ∧
      stageBlock (s.stagingOf o) (writerOf r) x.high (slice r.payload 16 n) = .ok bs ∧
      ((s.took r).dropStaging o).writeValue (writerOf r) o (.bytes (fin16 o.type) bs) = (st, w)) :=
  ⟨⟨mgmtReq 1 (addrWord 0x1001 1 1 0), mkObj 0x1001 1 1 .const 1 .any, asked (mgmtReq 1 (addrWord 0x1001 1 1 0)), by
    unfold Asked; decide⟩,
   ⟨mgmtReq 1 (addrWord 0x1001 1 1 0), mkObj 0x1001 1 1 .const 1 .any, asked (mgmtReq 1 (addrWord 0x1001 1 1 0)), by
    unfold Asked; decide⟩,
   ⟨mgmtReq 1 (addrWord 0x0FFF 1 0 0), 1, asked (mgmtReq 1 (addrWord 0x0FFF 1 0 0)), by
    unfold Asked; decide⟩,
   ⟨mgmtReq 2 (addrWord 0x4020 1 3 0 ++ leBytes 8 500), _, .num 3 500, _, asked (mgmtReq 2 (addrWord 0x4020 1 3 0 ++ leBytes 8 500)), by
    unfold Asked; decide, by decide, by decide, by decide, by decide, by decide, by decide, rfl⟩,
   ⟨mgmtReq 2 (addrWord 0x1020 1 1 0 ++ leBytes 8 1), mkObj 0x1020 1 1 .rws 0 (.range 0 1), .num 1 1,
    asked (mgmtReq 2 (addrWord 0x1020 1 1 0 ++ leBytes 8 1)), by
    unfold Asked; decide⟩,
   ⟨mgmtReq 3 (addrWord 0x6031 1 8 0 ++ leBytes 8 1024), mkObj 0x6031 1 8 .rws 0 (.maxLen 131072),
    asked (mgmtReq 3 (addrWord 0x6031 1 8 0 ++ leBytes 8 1024)), by
    unfold Asked; decide⟩,
   ⟨mgmtReq 3 (addrWord 0x6031 1 8 0 ++ leBytes 8 1024), mkObj 0x6031 1 8 .rws 0 (.maxLen 131072),
    asked (mgmtReq 3 (addrWord 0x6031 1 8 0 ++ leBytes 8 1024)), by
    unfold Asked; decide⟩,
   ⟨mgmtReq 4 (addrWord 0x7001 1 8 0 ++ leBytes 8 1 ++ [5, 0, 0, 0, 0, 0, 0, 0]), mkObj 0x7001 1 8 .wo 0 (.maxLen 16384), [5],
    asked (mgmtReq 4 (addrWord 0x7001 1 8 0 ++ leBytes 8 1 ++ [5, 0, 0, 0, 0, 0, 0, 0])), by
    unfold Asked; decide, by decide, by decide, by decide, by decide, by decide, by decide, by decide, by decide, by decide, by decide,
    by rintro n ⟨⟩; decide, by decide, by decide⟩,
   ⟨mgmtReq 4 (addrWord 0x7001 1 8 1 ++ leBytes 8 0x2_0001_0001 ++ [5, 0, 0, 0, 0, 0, 0, 0]), mkObj 0x7001 1 8 .wo 0 (.maxLen 16384),
    [9, 5], _, _, (asked (mgmtReq 4 (addrWord 0x7001 1 8 1 ++ leBytes 8 0x2_0001_0001 ++
      [5, 0, 0, 0, 0, 0, 0, 0]))).modAgent (fun a => { a with staging := [⟨0x7001, 1, ⟨1, 2⟩, 0, [9], 0⟩] }), by
    unfold Asked; decide, by decide, by decide, by decide, by decide, by decide, by decide, by decide, by decide, by decide, by decide, by decide, by decide,
    by rintro n ⟨⟩; decide, by decide, by decide, rfl⟩⟩

theorem witness_SubscriptionsNotifyAndLapse :
  (∃ (r : BreopReq) (o : ObjSpec) (s : State), let x := breopFields r.payload
      Asked s r ∧ r.op = 5 ∧ bitOf x.word1 0 = false ∧ (s.took r).subObj r = .ok o ∧
      s.agent.subs.find? (subIs r o) = none ∧ s.agent.subs.length < 32) ∧
  (∃ (r : BreopReq) (o : ObjSpec) (y : Subscription) (s : State), let x := breopFields r.payload
      Asked s r ∧ r.op = 5 ∧ bitOf x.word1 0 = false ∧ (s.took r).subObj r = .ok o ∧
      s.agent.subs.find? (subIs r o) = some y) ∧
  (∃ (r : BreopReq) (o : ObjSpec) (s : State), Asked s r ∧ r.op = 5 ∧ bitOf (breopFields r.payload).word1 0 = false ∧
      (s.took r).subObj r = .ok o ∧ s.agent.subs.find? (subIs r o) = none ∧ 32 ≤ s.agent.subs.length) ∧
  (∃ (r : BreopReq) (o : ObjSpec) (x : Subscription) (s : State), Asked s r ∧ r.op = 5 ∧
      bitOf (breopFields r.payload).word1 0 = true ∧ (s.took r).subObj r = .ok o ∧
      s.agent.subs.find? (subIs r o) = some x) ∧
  (∃ (i : Nat) (x : Subscription) (o : ObjSpec) (s : State), s.agent.subs[i]? = some x ∧
      s.findObj x.index x.sub = .ok o) ∧
  (∃ (i : Nat) (x : Subscription) (o : ObjSpec) (s : State), s.noteSubs.agent.subs[i]? = some x ∧
      s.noteSubs.findObj x.index x.sub = .ok o ∧ s.agentUp = true ∧ x.changed = true ∧ x.due s.aon.rtc = true) ∧
  (∃ (i : Nat) (x : Subscription) (s : State), s.agent.subs[i]? = some x ∧
      x.lease * 25000000 ≤ (s.aon.rtc - x.renewedRtc).toNat) ∧
  (∃ (i : Nat) (g : Staging) (s : State), s.agent.staging[i]? = some g ∧ 25000000 ≤ (s.aon.rtc - g.lastRtc).toNat) ∧
  (∃ (i : Nat) (k : Kept) (s : State), s.agent.kept[i]? = some k ∧ 25000000 ≤ (s.aon.rtc - k.rtc).toNat) ∧
  (∃ (i : Nat) (x : Session) (s : State), s.agent.sessions[i]? = some x ∧
      7500000000 ≤ (s.aon.rtc - x.usedRtc).toNat) ∧
  (      ∃ (f : MgmtFrame) (src : Source) (bytes : List Byte) (r : BreopReq) (s : State), let dst : Source := { addr := s.agent.addrInForce, port := s.breopPort }
      let w : State := { s with agent := { s.agent with admitted := s.agent.admitted + 1, requests := s.agent.requests ++ [r] } }
      s.agentUp = true ∧ s.agent.mgmtLink ≠ .down ∧ mgmtFrameOk f = true ∧ s.mgmtFull = false ∧
      f.body = .breop src dst bytes ∧ breopOf src dst none bytes = some r) ∧
  (      ∃ (f : MgmtFrame) (src : Source) (bytes : List Byte) (s : State), let dst : Source := { addr := s.agent.addrInForce, port := s.breopPort }
      s.agentUp = true ∧ s.agent.mgmtLink ≠ .down ∧ mgmtFrameOk f = true ∧ s.mgmtFull = false ∧
      f.body = .breop src dst bytes ∧ breopOf src dst none bytes = none) ∧
  (∃ (f : MgmtFrame) (src dst : Source) (bytes : List Byte) (s : State), f.body = .breop src dst bytes ∧
      dst ≠ { addr := s.agent.addrInForce, port := s.breopPort } ∧ s.mgmtFull = false) ∧
  (∃ (f : MgmtFrame) (s : State), (1522 < f.length ∨ 1 < f.tags)) ∧
  (∃ (f : MgmtFrame) (a : Nat) (s : State), (f.body = .arp true ∨ f.body = .icmpEcho ∨ f.body = .icmpv6 ∨
        (f.body = .dhcp a false ∧ s.objNum 0x1010 2 = 0)) ∧ s.agentUp = true ∧ s.agent.mgmtLink ≠ .down ∧
      mgmtFrameOk f = true ∧ s.mgmtFull = false ∧ (s.fifo ⟨.mgmtTx, 0⟩).flow = false) ∧
  (∃ (f : MgmtFrame) (a : Nat) (s : State), f.body = .dhcp a true ∧ s.agentUp = true ∧ s.agent.mgmtLink ≠ .down ∧
      mgmtFrameOk f = true ∧ s.mgmtFull = false ∧ s.objNum 0x1010 2 = 0) ∧
  (∃ (f : MgmtFrame) (a : Nat) (s : State), f.body = .slaac a ∧ s.agentUp = true ∧ s.agent.mgmtLink ≠ .down ∧
      mgmtFrameOk f = true ∧ s.mgmtFull = false ∧ s.objNum 0x1010 2 = 2 ∧ (s.fifo ⟨.mgmtTx, 0⟩).flow = false) ∧
  (∃ (link : PhyLink) (s : State), s.bedOn bedRot = true) :=
  ⟨⟨mgmtReq 5 (addrWord 0x1001 1 1 0 ++ leBytes 8 0), mkObj 0x1001 1 1 .const 1 .any, asked (mgmtReq 5 (addrWord 0x1001 1 1 0 ++ leBytes 8 0)), by
    unfold Asked; decide⟩,
   ⟨mgmtReq 5 (addrWord 0x1001 1 1 0 ++ leBytes 8 0), mkObj 0x1001 1 1 .const 1 .any, sub1 0x1001 60,
    (asked (mgmtReq 5 (addrWord 0x1001 1 1 0 ++ leBytes 8 0))).modAgent (fun a => { a with subs := [sub1 0x1001 60] }), by
    unfold Asked; decide⟩,
   ⟨mgmtReq 5 (addrWord 0x1001 1 1 0 ++ leBytes 8 0), mkObj 0x1001 1 1 .const 1 .any,
    (asked (mgmtReq 5 (addrWord 0x1001 1 1 0 ++ leBytes 8 0))).modAgent (fun a => { a with subs := List.replicate 32 (sub1 0x1000 60) }), by
    unfold Asked; decide⟩,
   ⟨mgmtReq 5 (addrWord 0x1001 1 1 0 ++ leBytes 8 1), mkObj 0x1001 1 1 .const 1 .any, sub1 0x1001 60,
    (asked (mgmtReq 5 (addrWord 0x1001 1 1 0 ++ leBytes 8 1))).modAgent (fun a => { a with subs := [sub1 0x1001 60] }), by
    unfold Asked; decide⟩,
   ⟨0, sub1 0x1001 60, mkObj 0x1001 1 1 .const 1 .any, up.modAgent (fun a => { a with subs := [sub1 0x1001 60] }), by decide⟩,
   ⟨0, { sub1 0x1001 60 with changed := true, lastValue := up.objValue ⟨1, 2⟩ (mkObj 0x1001 1 1 .const 1 .any), sentRtc := some 9999750000#64 }, mkObj 0x1001 1 1 .const 1 .any,
    up.modAgent (fun a => { a with subs := [{ sub1 0x1001 60 with changed := true, sentRtc := some 9999750000#64 }] }), by decide⟩,
   ⟨0, sub1 0x1001 400, up.modAgent (fun a => { a with subs := [sub1 0x1001 400] }), by decide⟩,
   ⟨0, ⟨0x7001, 1, ⟨1, 2⟩, 0, [9], 9975000000⟩, up.modAgent (fun a => { a with staging := [⟨0x7001, 1, ⟨1, 2⟩, 0, [9], 9975000000⟩] }),
    by decide⟩,
   ⟨0, ⟨respTo (mgmtReq 1 []) 0 [], 9975000000⟩, up.modAgent (fun a => { a with kept := [⟨respTo (mgmtReq 1 []) 0 [], 9975000000⟩] }),
    by decide⟩,
   ⟨0, ⟨1, 0, 0, 0, none, 2500000000⟩, up.modAgent (fun a => { a with sessions := [⟨1, 0, 0, 0, none, 2500000000⟩] }), by decide⟩,
   (by
    obtain ⟨r, h⟩ := of_some (o := breopOf ⟨1, 2⟩ ⟨up.agent.addrInForce, up.breopPort⟩ none (leBytes 8 0x114F42 ++ List.replicate 16 0))
      (by decide)
    exact ⟨mgmtBreop (leBytes 8 0x114F42 ++ List.replicate 16 0), ⟨1, 2⟩, leBytes 8 0x114F42 ++ List.replicate 16 0, r, up, by decide,
      by decide, by decide, by decide, rfl, h⟩),
   ⟨mgmtBreop (List.replicate 23 0), ⟨1, 2⟩, List.replicate 23 0, up, by decide⟩,
   ⟨mgmt (.breop ⟨1, 2⟩ ⟨up.agent.addrInForce + 1, up.breopPort⟩ []), ⟨1, 2⟩, ⟨up.agent.addrInForce + 1, up.breopPort⟩, [], up, by decide⟩,
   ⟨⟨1523, 0, .other⟩, up, by decide⟩,
   ⟨mgmt (.arp true), 0, up, by decide⟩,
   ⟨mgmt (.dhcp 0xC0A80002 true), 0xC0A80002, up, by decide⟩,
   ⟨mgmt (.slaac 5), 5, { up with objs := { up.objs with nums := [(objKey 0x1010 2, 2)] } }, by decide⟩,
   ⟨.down, up, by decide⟩⟩

theorem witness_FirmwareIsMeasuredAndQuoted :
  (      ∃ (s : State), let slot (b : Bool) : Bool := slotOk s.rot.minSvn (if b then s.rot.fwSlots.2 else s.rot.fwSlots.1)
      s.bedOn bedRot = true ∧ s.rot.stage = 0 ∧ s.rot.halted = false) ∧
  (∃ (bytes : List Byte) (s : State), s.agentUp = true ∧ s.rot.fwStatus ≠ 1) ∧
  (      ∃ (f : FwImage) (flashOk : Bool) (s : State), let fails : Option Nat := if (imageFails s.rot.minSvn f).isSome then imageFails s.rot.minSvn f else if flashOk then none else some 6
      s.rot.fwStaged = some f ∧ s.rot.fwStatus = 1 ∧ s.bedOn bedRot = true) ∧
  (∃ (f : FwImage) (v : Nat) (s : State), s.agentUp = true ∧ s.fwInForce = some f ∧ s.rot.minSvn ≤ v ∧ v ≤ imgSvn f ∧
      v ≤ 64) ∧
  (∃ (f : FwImage) (v : Nat) (s : State), s.agentUp = true ∧ s.fwInForce = some f ∧
      (v < s.rot.minSvn ∨ imgSvn f < v)) ∧
  (∃ (i : Fin 16) (b : Byte) (d : List Byte) (s : State), s.agentUp = true ∧ b.toNat = i.val ∧ 10 ≤ i.val ∧ d ≠ [] ∧
      d.length ≤ 1023) ∧
  (∃ (n : List Byte) (s : State), s.agentUp = true ∧ 32 ≤ n.length ∧ n.length ≤ 64) ∧
  (∃ (n : List Byte) (s : State), s.agentUp = true ∧ s.rot.quoteNonce = some n ∧ n.length ≤ 64) ∧
  (∃ (s : State), s.bedOn bedRot = true) :=
  ⟨⟨up.modRot (fun r => { r with stage := 0 }), by decide⟩,
   ⟨[], up, by decide⟩,
   ⟨image 1, false, up.modRot (fun r => { r with fwStaged := some (image 1), fwStatus := 1 }), by decide⟩,
   ⟨image 64, 64, up.modRot (fun r => { r with fwSlots := (some (image 64), none) }), by decide⟩,
   ⟨image 1, 2, up.modRot (fun r => { r with fwSlots := (some (image 1), none) }), by decide⟩,
   ⟨10, 10, List.replicate 1023 1, up, by decide +kernel⟩,
   ⟨List.replicate 32 0, up, by decide⟩,
   ⟨List.replicate 64 1, up.modRot (fun r => { r with quoteNonce := some (List.replicate 64 1) }), by decide⟩,
   ⟨up, by decide⟩⟩

theorem witness_SessionsKeysAndUnlocks :
  (∃ (src : Source) (s : State), s.agentUp = true) ∧
  (∃ (src : Source) (b : List Byte) (s : State), s.agentUp = true ∧ b.length ≤ 16384) ∧
  (∃ (src : Source) (b : List Byte) (total : Nat) (s : State), s.agentUp = true ∧
      (total ≠ b.length ∨ 16384 < total)) ∧
  (∃ (n : Nat) (x : Session) (s : State), s.agentUp = true ∧ x ∈ s.agent.sessions ∧ x.id = n) ∧
  (∃ (ks : List (List Byte)) (s : State), s.agentUp = true ∧ ks ≠ [] ∧ ks.length ≤ 4 ∧ (∀ k ∈ ks, k.length = 2592)) ∧
  (∃ (src : Source) (b : List Byte) (h : Fin 2) (i : Fin 4) (s : State), s.agentUp = true ∧ b.length = 1569 ∧
      (b.headD 0).toNat = 4 * h.val + i.val ∧ s.bedOn (bedHost h.val) = true ∧ s.subExists h i = true) ∧
  (∃ (src : Source) (b : List Byte) (s : State), s.rot.halted = true) ∧
  (∃ (src : Source) (b : List Byte) (s : State), s.agentUp = true) :=
  ⟨⟨⟨1, 2⟩, up, by decide⟩,
   ⟨⟨1, 2⟩, openValue, challenged, by decide +kernel⟩,
   ⟨⟨1, 2⟩, [], 1, up, by decide⟩,
   ⟨7, ⟨7, 0, 0, 0, none, 0⟩, up.modAgent (fun a => { a with sessions := [⟨7, 0, 0, 0, none, 0⟩] }), by decide⟩,
   ⟨[List.replicate 2592 0], up, by decide +kernel⟩,
   ⟨⟨1, 2⟩, 4 :: List.replicate 1568 0, 1, 0, up, by decide +kernel⟩,
   ⟨⟨1, 2⟩, [], { up with rot := { up.rot with halted := true } }, by decide⟩,
   ⟨⟨1, 2⟩, tokenValue, challenged, by decide⟩⟩

theorem witness_JobsAreAdmittedAndEnded :
  (∃ (bytes : List Byte) (s : State), s.agentUp = true ∧ s.rot.recovery = false ∧
      (s.job.state = .none ∨ s.job.state = .rejected)) ∧
  (∃ (m : Manifest) (s : State), s.job.state = .verifying ∧ s.job.manifest = some m ∧ s.rot.halted = false) ∧
  (∃ s : State, s.rot.halted = true) ∧
  (∃ (s : State), s.agentUp = true ∧ s.rot.recovery = false ∧ s.job.state = .running) ∧
  (∃ (s : State), s.agentUp = true ∧ s.rot.recovery = false ∧ s.job.state = .verifying) :=
  ⟨⟨[], up.modJob (fun j => { j with state := .rejected }), by decide⟩,
   ⟨default, owned (up.modJob (fun j => { j with state := .verifying, manifest := some default })), by decide⟩,
   ⟨{ up with rot := { up.rot with halted := true } }, by decide⟩,
   ⟨up, by decide⟩,
   ⟨up.modJob (fun j => { j with state := .verifying }), by decide⟩⟩

theorem witness_ObjectWritesTakeTheirValue :
  (∃ (i : BitVec 16) (k : Byte) (o : ObjSpec) (ty : Byte) (n : Nat) (s : State), s.agentUp = true ∧
      s.findObj i.toNat k.toNat = .ok o ∧ o.index = i.toNat ∧ o.sub = k.toNat ∧
      (o.access = .rw ∨ o.access = .rws) ∧ ty.toNat = o.type ∧ isNumType o.type = true ∧
      n < 256 ^ objTypeBytes o.type ∧ s.numOk o n = true ∧
      i.toNat ∉ [0x2020, 0x2022, 0x2030, 0x3003, 0x4020, 0x5021, 0x7001, 0x7004, 0xA001] ∧
      ∃ w : Fin 16, w.val = ty.toNat) ∧
  (∃ (k : Byte) (o : ObjSpec) (w : Fin 16) (n : Nat) (s : State), s.agentUp = true ∧
      s.findObj 0x4020 k.toNat = .ok o ∧ o.index = 0x4020 ∧ o.sub = k.toNat ∧ (o.access = .rw ∨ o.access = .rws) ∧
      w.val = o.type ∧ isNumType o.type = true ∧ n < 256 ^ objTypeBytes o.type ∧ s.numOk o n = true) ∧
  (∃ (d : Fin 4) (mv : Nat) (s : State), s.agentUp = true ∧ s.servesIndex 0x2010 = true ∧ 600 ≤ mv ∧ mv ≤ 800 ∧
      mv % 5 = 0) ∧
  (∃ (d : Fin 4) (mv : Nat) (s : State), s.agentUp = true ∧ s.servesIndex 0x2010 = true ∧
      (mv < 600 ∨ 800 < mv ∨ mv % 5 ≠ 0)) ∧
  (∃ (i : BitVec 16) (k : Byte) (o : ObjSpec) (v : ObjValue) (s : State), s.agentUp = true ∧
      s.findObj i.toNat k.toNat = .ok o ∧ (o.access = .const ∨ o.access = .ro)) ∧
  (∃ (i : BitVec 16) (k : Byte) (o : ObjSpec) (v : Nat) (s : State), s.bedOn bedRot = true ∧
      objFind i.toNat k.toNat = some o ∧ o.access = .rws ∧ objKeepsNothing i.toNat k.toNat = false ∧
      isNumType o.type = true ∧ tabFind s.objs.nums (objKey i.toNat k.toNat) = some v) :=
  ⟨⟨0x5010, 1, mkObj 0x5010 1 3 .rw 1000 (.range 10 100000), 3, 500, up, by decide, by decide, by decide, by decide, by decide,
    by decide, by decide, by decide, by decide, by decide, 3, by decide⟩,
   ⟨1, mkObj 0x4020 1 3 .rw 2000 (.zeroOr 100 100000), 3, 500, up, by decide⟩,
   ⟨3, 795, up, by decide⟩,
   ⟨0, 601, up, by decide⟩,
   ⟨0x1001, 1, mkObj 0x1001 1 1 .const 1 .any, .num 1 5, up, by decide⟩,
   ⟨0x1020, 1, mkObj 0x1020 1 1 .rws 0 (.range 0 1), 1, { up with objs := { up.objs with nums := [(objKey 0x1020 1, 1)] } }, by decide⟩⟩

theorem witness_RequestsRetireAndFence :
  (∃ (a : Nat) (s : State), s.agentUp = true ∧ s.servesIndex 0x5021 = true ∧ a < hbmEnd ∧
      s.bedOn (bedStack (stackOf a).val) = true ∧ s.hbm[stackOf a].retired.length + 1 < s.objNum 0x5010 4 ∧
      s.hbm[stackOf a].retired.length + 1 < 1024 ∧ (∀ e ∈ s.hbm[stackOf a].retired, e.addr ≠ a / 4096 * 4096)) ∧
  (∃ (u : BitVec 16) (k : FenceKind) (s : State), s.agentUp = true ∧ s.servesIndex 0x3003 = true ∧
      fenceNamed u = some k ∧ (∀ f ∈ s.health.fences, f.unit ≠ fenceUid k)) ∧
  (∃ (u cause : BitVec 16) (k : FenceKind) (s : State), fenceNamed u = some k ∧ fenceCause k cause = true ∧
      (∀ f ∈ s.health.fences, f.unit ≠ fenceUid k)) ∧
  (∃ (u cause : BitVec 16) (k : FenceKind) (s : State), fenceNamed u = some k ∧ fenceCause k cause = false) ∧
  (∃ (u : BitVec 16) (k : FenceKind) (s : State), s.agentUp = true ∧ s.servesIndex 0x3003 = true ∧
      fenceNamed u = some k ∧ s.clearable k = true) :=
  ⟨⟨0xBFFFFFFFFF, up, by decide⟩,
   ⟨uidCluster 31 0, .cluster 31, up, by decide⟩,
   ⟨uidStack 11, 0x0803, .stack 11, up, by decide⟩,
   ⟨uidDie 3 8, 0x0703, .die 3, up, by decide⟩,
   ⟨uidCluster 3 0, .cluster 3, up.modHealth (fun h => { h with fences := [⟨uidCluster 3 0, 0, true, 0, true⟩] }), by decide⟩⟩

theorem witness_CountersSnapAndRegistersTakeWrites :
  (∃ (u : StallUnit) (s : State), s.clusterFenced (stallCluster u) = false ∧ s.clusterOn (stallCluster u) = true) ∧
  (∃ (u : StallUnit) (s : State), s.agentUp = true ∧ s.servesIndex 0x8010 = true ∧
      stallUnitOf (s.objNum 0x8010 1) = some u ∧ s.clusterOn (stallCluster u) = true) ∧
  (      ∃ (k : Fin 12) (pc : Fin 64) (v : Word) (a : BitVec 48) (s : State), a.toNat = dieUnitBase (k.val / 3) (5 + k.val % 3) + 0x1000 + 8 * pc.val ∧
      s.accessFail .any a.toNat 8 = none) ∧
  (∃ (g : Fin 32) (v : Word) (a : BitVec 48) (s : State), a.toNat = clusterUnitBase g.val 1 + 0x18 ∧
      s.accessFail .any a.toNat 8 = none) ∧
  (∃ (k : Fin 12) (v : Word) (a : BitVec 48) (s : State), a.toNat = dieUnitBase (k.val / 3) (5 + k.val % 3) + 0x10 ∧
      s.accessFail .any a.toNat 8 = none) ∧
  (∃ (a : BitVec 48) (v : Word) (wide : Bool) (f : Fail) (s : State), unitBase ≤ a.toNat ∧
      s.accessFail .any a.toNat (if wide then 8 else 4) = some f) :=
  ⟨⟨.engine 255 5, up, by decide⟩,
   ⟨.unit 0 1, { up with objs := { up.objs with nums := [(objKey 0x8010 1, (uidCluster 0 1).toNat)] } }, by decide⟩,
   ⟨11, 63, 0, BitVec.ofNat 48 (dieUnitBase 3 7 + 0x1000 + 8 * 63), up, by decide⟩,
   ⟨31, 0, BitVec.ofNat 48 (clusterUnitBase 31 1 + 0x18), up, by decide⟩,
   ⟨0, 0, BitVec.ofNat 48 (dieUnitBase 0 5 + 0x10), up, by decide⟩,
   (by
    have h : ∃ f, up.accessFail .any 0xFFFFFFFFFFFF 8 = some f := of_some (by decide)
    obtain ⟨f, h⟩ := h
    exact ⟨0xFFFFFFFFFFFF, 0, true, f, up, by decide, h⟩)⟩

theorem witness_EventsFencesAndWiringAreKept :
  (∃ (e : Event) (rest : List Event) (s : State), s.health.raised = e :: rest ∧ s.bedOn bedRot = true ∧
      6 ≤ s.rot.stage ∧ (loggedClass e.code = true ∨ s.health.recent s.aon.rtc e = false)) ∧
  (∃ (e : Event) (rest : List Event) (s : State), s.health.raised = e :: rest ∧ s.bedOn bedRot = true ∧
      6 ≤ s.rot.stage ∧ loggedClass e.code = false ∧ s.health.recent s.aon.rtc e = true) ∧
  (∃ (g : Fin 32) (s : State), let ms := (s.aon.rtc - s.clusters[g].advanceRtc).toNat / 25000
      s.jobRuns = true ∧ s.clusters[g].active = true ∧ s.clusterLive g = true ∧ s.objNum 0x3010 1 ≠ 0 ∧
      s.objNum 0x3010 1 ≤ ms ∧ s.clusters[g].stalledRaised = false) ∧
  (∃ (u cause : BitVec 16) (s : State), s.health.capCause = some (u, cause)) ∧
  (∃ (s : State), s.health.capCause = none ∧ s.health.published = false ∧ 6 ≤ s.rot.stage) ∧
  (∃ (as bs : List FenceEntry) (f : FenceEntry) (s : State), s.health.fences = as ++ f :: bs ∧
      (∀ x ∈ as, (x.persistent && !x.flashed) = false) ∧ f.persistent = true ∧ f.flashed = false) ∧
  (∃ (o : Sideband) (s : State), s.sidebandLow o = false ∧ s.aon.sidebandOf o ≠ .openLine) ∧
  (∃ (o : Sideband) (s : State), s.sidebandLow o = true ∧ s.aon.sidebandOf o ≠ .shortSupply) ∧
  (∃ (o : Sideband) (s : State), s.sidebandLow o = false ∧ s.aon.sidebandOf o ≠ .shortGround) ∧
  (∃ (l : Fin 2) (s : State), s.aon.powered = true ∧ s.refclkIs l = false) ∧
  (∃ (l : Fin 2) (s : State), s.refclkIs l = true) ∧
  (∃ (e : EdgeId) (s : State), (∀ f ∈ s.health.fences, f.unit ≠ edgeUid e.val) ∧
      2 ≤ (s.health.edgeRetries.filter (fun x => decide (x.1 = e.val ∧
      (s.aon.rtc - x.2).toNat < 25000000))).length) :=
  ⟨⟨ev 0x0101, [], up.modHealth (fun h => { h with raised := [ev 0x0101] }), by decide⟩,
   ⟨ev 0x0101, [], up.modHealth (fun h => { h with raised := [ev 0x0101], lastTime := [(uidDie 0 8, 0x0101, 9999999999)] }), by decide⟩,
   ⟨7, (up.modCluster 7 (fun c => { c with advanceRtc := 10000000000 - 25000000 })), by decide⟩,
   ⟨uidCluster 0 0, 0x0701, up.modHealth (fun h => { h with capCause := some (uidCluster 0 0, 0x0701) }), by decide⟩,
   ⟨up, by decide⟩,
   ⟨[⟨1, 0, false, 0, false⟩], [], ⟨2, 0, true, 0, false⟩, up.modHealth (fun h => { h with
      fences := [⟨1, 0, false, 0, false⟩, ⟨2, 0, true, 0, false⟩] }), by decide⟩,
   ⟨.rotFault, up, by decide⟩,
   ⟨.rotFault, up.modAon (fun a => { a with rotFaultLow := true }), by decide⟩,
   ⟨.replace, up, by decide⟩,
   ⟨1, up, by decide⟩,
   ⟨1, up.modAon (fun a => { a with refclkMissing := (false, true) }), by decide⟩,
   ⟨4, up.modHealth (fun h => { h with edgeRetries := [(4, 9999999999), (4, 9975000001)] }), by decide⟩⟩

theorem witness_BedsStartStopAndReset :
  (∃ (b : Fin 62) (s : State), s.agentUp = true ∧ s.rot.recovery = false ∧ 2 ≤ b.val ∧ s.bedHeld b = false) ∧
  (∃ (b : Fin 62) (on : Bool) (s : State), s.agentUp = true ∧ s.rot.recovery = false ∧ b.val < 2) ∧
  (∃ (b : Fin 62) (s : State), s.agentUp = true ∧ s.rot.recovery = false ∧ 2 ≤ b.val ∧ s.jobHolds b = false) ∧
  (∃ (b : Fin 62) (s : State), s.mayStart b = true ∧ (∀ c : Fin 62, c < b → s.mayStart c = false) ∧
      s.startingCount < 8 ∧ s.rampFree = true) ∧
  (∃ s : State, s.rampFree = false) ∧
  (∃ (b : Fin 62) (s : State), s.rot.halted = true ∧ bedMeasured b = true) ∧
  (∃ (b : Fin 62) (s : State), s.beds[b].phase = .starting ∧ s.bedOn (bedParent b) = true ∧
      (s.rot.halted = false ∨ bedMeasured b = false)) ∧
  (∃ (b : Fin 62) (g : Fin 32) (s : State), s.beds[b].phase = .starting ∧ bedKind b = .cluster g ∧
      (∀ f ∈ s.health.fences, f.unit ≠ uidCluster g.val 0)) ∧
  (∃ (s : State), s.beds[bedRot].phase = .starting) ∧
  (∃ (b : Fin 62) (s : State), s.mayStop b = true ∧ (∀ c : Fin 62, b < c → s.mayStop c = false) ∧
      s.transferOut b = false) ∧
  (∃ (b : Fin 62) (s : State), s.mayStop b = true ∧ (∀ c : Fin 62, b < c → s.mayStop c = false) ∧
      s.transferOut b = true) ∧
  (∃ (b : Fin 62) (s : State), s.beds[b].phase = .stopping) ∧
  (∃ (s : State), s.aon.rotRetry = some true ∧ s.beds[bedRot].phase = .off ∧ s.aon.powerSteps = true) ∧
  (∃ (s : State), s.agentUp = true ∧ s.rot.recovery = false) ∧
  (∃ (g : Fin 32) (s : State), s.agentUp = true ∧ s.rot.recovery = false ∧
      (s.job.state = .none ∨ s.job.state = .rejected) ∧ s.clusterOn g = true) :=
  ⟨⟨2, up, by decide⟩,
   ⟨1, false, up, by decide⟩,
   ⟨61, up, by decide⟩,
   ⟨20, (up.modBed 20 (fun b => { b with phase := .off })).modAon (fun a => { a with rampRtc := some 9999997500#64 }), by decide⟩,
   ⟨up.modAon (fun a => { a with rampRtc := some 9999997501#64 }), by decide⟩,
   ⟨2, { up with rot := { up.rot with halted := true } }, by decide⟩,
   ⟨61, up.modBed 61 (fun b => { b with phase := .starting }), by decide⟩,
   ⟨20, 0, up.modBed 20 (fun b => { b with phase := .starting }), by decide⟩,
   ⟨up.modBed 1 (fun b => { b with phase := .starting }), by decide⟩,
   ⟨61, up.modBed 61 (fun b => { b with target := false }), by decide⟩,
   ⟨8, stackLeaving, by decide⟩,
   ⟨61, up.modBed 61 (fun b => { b with phase := .stopping }), by decide⟩,
   ⟨(up.modBed 1 (fun b => { b with phase := .off })).modAon (fun a => { a with rotRetry := some true }), by decide⟩,
   ⟨up, by decide⟩,
   ⟨31, up.modJob (fun j => { j with state := .none }), by decide⟩⟩

theorem witness_SuppliesShutAndRestart :
  (∃ (standby vin : Bool) (s : State), (standby = true ∨ vin = true)) ∧
  (∃ (s : State), s.aon.powered = true ∧ s.aon.reversed = false ∧ s.health.latch.length < 16) ∧
  (∃ (mv : Nat) (s : State), s.aon.powered = true ∧ s.aon.underV = false ∧ s.health.latch.length < 16) ∧
  (∃ (mv : Nat) (s : State), s.aon.powered = true ∧ s.aon.overV = false ∧ s.health.latch.length < 16) ∧
  (∃ (i : Fin 8) (s : State), s.aon.powered = true ∧ s.aon.therm.getLsbD i.val = false ∧ s.health.latch.length < 16) ∧
  (∃ (mv : Nat) (s : State), s.aon.powered = true ∧ s.aon.standbyLow = false) ∧
  (∃ (s : State), s.aon.powered = true ∧ s.aon.shut = true) ∧
  (∃ (s : State), s.aon.powered = true ∧ s.aon.shut = false ∧ s.aon.shutCause = none ∧ s.aon.powerSteps = false ∧
      s.aon.reversed = false ∧ s.aon.overV = false) ∧
  (∃ (i : Fin 8) (s : State), s.aon.powered = true ∧ s.aon.shut = true) ∧
  (∃ (c : ShutCause) (s : State), s.aon.shutCause = some c ∧ c ≠ .thermal ∧ s.aon.shut = true ∧
      s.aon.inputsOk = true) ∧
  (∃ (s : State), s.cooled = true ∧ s.objNum 0x2040 9 = 0) ∧
  (∃ (s : State), s.cooled = true ∧ s.objNum 0x2040 9 = 1) ∧
  (∃ (s : State), s.aon.shut = true ∧ s.aon.shutCause = some .thermal ∧ s.cooled = false) ∧
  (∃ (s : State), s.aon.powered = true) ∧
  (∃ (vin stby : Nat) (s : State), s.aon.powered = true ∧ vin < 65536 ∧ stby < 65536) ∧
  (∃ (w : U32) (s : State), s.bedOn bedRot = true ∧ s.aon.packageMv = 600 ∧ 0 < s.aon.overMs ∧
      pinOver s.powerLimit w = true) ∧
  (∃ (w : U32) (s : State), s.bedOn bedRot = true ∧ pinOver s.powerLimit w = false ∧ pinBelow s.powerLimit w = true) ∧
  (∃ (d : Fin 4) (up : Bool) (s : State), s.bedOn bedRot = true) ∧
  (∃ (s : State), s.bedOn bedRot = true ∧ s.aon.arrayLimit = 100 ∧ pinBelow s.powerLimit s.aon.pinW = true) ∧
  (∃ (s : State), s.bedOn bedRot = true ∧ pinOver s.powerLimit s.aon.pinW = true) :=
  ⟨⟨true, false, State.reset, by decide⟩,
   ⟨up, by decide⟩,
   ⟨0, up, by decide⟩,
   ⟨0, up, by decide⟩,
   ⟨7, up, by decide⟩,
   ⟨0, up, by decide⟩,
   ⟨up.modAon (fun a => { a with shut := true }), by decide⟩,
   ⟨up.modAon (fun a => { a with powerSteps := false }), by decide⟩,
   ⟨0, up.modAon (fun a => { a with shut := true }), by decide⟩,
   ⟨.underV, up.modAon (fun a => { a with shut := true, shutCause := some .underV }), by decide⟩,
   ⟨bare40 0, by decide⟩,
   ⟨bare40 1, by decide⟩,
   ⟨(bare40 0).modAon (fun a => { a with therm := 1 }), by decide⟩,
   ⟨up, by decide⟩,
   ⟨65535, 0, up, by decide⟩,
   ⟨0x457A0000, up.modAon (fun a => { a with packageMv := 600, overMs := 1 }), by decide⟩,
   ⟨0, up, by decide⟩,
   ⟨3, true, up, by decide⟩,
   ⟨up, by decide⟩,
   ⟨up.modAon (fun a => { a with pinW := 0x457A0000 }), by decide⟩⟩

theorem witness_StepRunsTheFrontCommand :
  (∃ (c : Instr) (rest : List Instr) (s : State), s.pending = c :: rest) ∧
  (∃ (s : State), s.pending = []) :=
  ⟨⟨.boot, [.phyInt .down], { up with pending := [.boot, .phyInt .down] }, by decide⟩,
   ⟨up, by decide⟩⟩

theorem witness_EveryStepKeepsMemoryCanonical :
    ∃ s t : State, s.mem.wf = true ∧ step s = .next t :=
  ⟨{ granted 0x1000 true with pending := [.hbmWrite ⟨2, 0x1000⟩ [1] calm .baseDie] }, _, by decide, rfl⟩

theorem witness_EveryStepKeepsLaunchTablesAndSequencers :
    ∃ s t : State, LaunchTablesOk s ∧ SequencersOk s ∧ step s = .next t :=
  ⟨{ up.modCluster 31 (fun c => { c with launch := [(255, ⟨0, 0x0001_0000_0000_0000#64, 0, 0, false⟩)] }) with
      pending := [.lent 31] }, _, by unfold LaunchTablesOk; decide, by unfold SequencersOk; decide, rfl⟩

/-! ### Operands that do not fit, one for each check -/

theorem test_fifo_number : (Instr.fifoWrite ⟨.mgmtRx, 1⟩ .head).wellFormed = false := by decide
theorem test_fifo_number_read : (Instr.fifoRead ⟨.hostTx, 2⟩).wellFormed = false := by decide
theorem test_fifo_number_crossing : (Instr.pointerCrossing ⟨.hbmRead, 768⟩ .reader).wellFormed = false := by decide
theorem test_fifo_number_wm : (Instr.wmWrite ⟨.fabTx, 16⟩ 0).wellFormed = false := by decide
theorem test_scrub_aligned : (Instr.scrub 0 32 calm none).wellFormed = false := by decide
theorem test_scrub_unit : (Instr.scrub 0 64 calm (some [0])).wellFormed = false := by decide
theorem test_hbmRead_end : (Instr.hbmRead ⟨2, 0xC000000000⟩ calm .baseDie).wellFormed = false := by decide
theorem test_hbmWrite_unit : (Instr.hbmWrite ⟨2, 63⟩ [0, 0] calm .baseDie).wellFormed = false := by decide
theorem test_hbmWrite_fits : (Instr.hbmWrite ⟨2, 62⟩ [0, 0] calm .baseDie).wellFormed = true := by decide
theorem test_transfer_page :
    (Instr.lotteryDecision (.channel 0 0) [⟨2, 0x0100, .request, 0x3C0, 2, false⟩]).wellFormed = false := by decide
theorem test_transfer_page_bite :
    (Instr.watchdogBite (.channel 0 0) 1000 [⟨2, 0x0100, .request, 0x3C0, 5, false⟩]).wellFormed = false := by decide
theorem test_flit_payload : (Instr.flitReceive 0 ⟨.head, 0, false, 0, 0, 0, 0, .clean, []⟩).wellFormed = false := by decide
theorem test_flit_seq : (Flit.ok ⟨.head, 0, false, 4096, 0, 0, 0, .clean, List.replicate 256 0⟩) = false := by decide
theorem test_hello_dev : (Instr.hello ⟨0, ⟨0, 0, 0⟩, 0⟩ 32768 1 0 0 0).wellFormed = false := by decide
theorem test_clusterReset_number : (Instr.clusterReset 256).wellFormed = false := by decide
theorem test_no_word : decodeTableWord 64 0x13 = none := by decide

/-! ### Worked examples of the chapters -/

/-- Chapter 01: engine 2 of core 171, the sequencer of cluster 21, stack 7. -/
theorem test_uids : uidEngine 171 2 = 0x2AC2 ∧ uidCluster 21 1 = 0x5501 ∧ uidStack 7 = 0x9006 := by decide

theorem test_windows : clusterBase 21 = 0x01002A000000 ∧ coreBase 171 = 0x01102AC00000 ∧
    coreEngineBase 171 2 = 0x012025320000 := by decide

/-- Chapter 03: the images of entries 3 and 8 pass, and a LAUNCH of a reserved queue does not. -/
theorem test_launch_images :
    launchOk (.ofWords 0x1A070000000002A3 0x000101002A004300 0 0) = true ∧
    launchOk (.ofWords 0x00070000000002A3 0x001A000000000000 0x10 0) = true ∧
    launchOk (.ofWords 0xFF070000000002A3 0x000101002A004300 0 0) = false := by decide

/-- Entry 8 is a DEVICE barrier that waits for token 0x010 and comes back for Season 0x2AA. -/
theorem test_launch_fields :
    let e := LaunchEntry.ofWords 0x00070000000002A3 0x001A000000000000 0x10 0
    e.scope = .device ∧ e.waits = [0x10] ∧ (launchRearm e).season = 0x2AA := by decide

theorem test_setexp_word :
    seqDecode 0x0000801000000013 = ⟨0x13, 0, 0, 0, 0, 0x8010⟩ ∧ seqWordBad 0x0000801000000013 = false := by decide

/-- Chapter 04: the counter block and the selection from its words. -/
theorem test_harrow_counter : ctrHarrow 0x2A2 0x5501 7 1 25 0 = 0x0650007155010000000002A2 := by decide

theorem test_floyd :
    floydPick (fun k => [0x80000000, 0x30000000, 0x2F000000, 0xFFFFFFFF].getD k 0) 100 4 = [48, 18, 98, 99] := by decide

/-- Chapter 05: the requantized row. -/
theorem test_requantize :
    requantize false none [0x3F000000, 0xBFA00000, 0x40000000, 0x3F400000] =
      ⟨0x2287, 0xBD00, [0x89, 0, 0xFF, 0x9D], 0⟩ := by decide +kernel

/-- The ORDERED sum: +0.0, then -2^-24, then the partial 0x3F800000 of 1.0 and 2^-24. -/
theorem test_ordered_sum :
    fadd arithRne 0x3F800000 0x33800000 = 0x3F800000 ∧
    fadd arithRne (fadd arithRne 0 0xB3800000) 0x3F800000 = 0x3F7FFFFF := by decide +kernel

/-- Chapter 06: the place of 0x001234567800, and the contests of pseudo-channel 13. -/
theorem test_hbm_place : hbmPlace 0x001234567800 = ⟨4, 13, 0x0F, 0x611, 0⟩ := by decide

theorem test_lottery :
    lottery 8 [(0, 16), (2, 48), (3, 0), (5, 16)] ⟨0xACE1, 0, none, []⟩ = some (2, ⟨0x4722, 0, none, []⟩) ∧
    lottery 8 [(0, 16), (2, 0), (3, 0), (5, 16)] ⟨0xACE1, 0, none, []⟩ = some (0, ⟨0x4722, 0, none, []⟩) := by decide

/-- Chapter 07: word 4 of the ILOAD. -/
theorem test_thread_word :
    let c := threadCtl ⟨0x0200000000000101, 0x0015000000000000, 0x000201102AD00000, 0x1000000000, 0x0002810000001000,
      0x100, 0x01102AC00000, 0x100⟩
    (c.count, c.elem, c.threads, c.depth) = (0x1000, 0x100, 16, 2) ∧
    threadBad 171 1024 ⟨0x0200000000000101, 0x0015000000000000, 0x000201102AD00000, 0x1000000000, 0x0002810000001000,
      0x100, 0x01102AC00000, 0x100⟩ c = none := by decide

/-- Chapter 08: a tie under each rounding. -/
theorem test_bf16_tie :
    (convFp fp32 bf16 .rne false 0x3F808000).code = 0x3F80 ∧ (convFp fp32 bf16 .rtz false 0x3F808000).code = 0x3F80 ∧
    (convFp fp32 bf16 (.sr 0x7FFF) false 0x3F808000).code = 0x3F80 ∧
    (convFp fp32 bf16 (.sr 0x8000) false 0x3F808000).code = 0x3F81 ∧
    (convFp fp32 bf16 (.sr 0x8000) false 0xBF808000).code = 0xBF81 := by decide +kernel

/-- The block of 1000.0, 3.3 and -0.01. -/
theorem test_mx_block :
    let b := mxConvert .fp32 .e4m3 ⟨0, false⟩ (fun _ => 0)
      (([0x447A0000, 0x40533333, 0xBC23D70A] ++ List.replicate 29 0).map (decodeFp fp32))
    b.scale = 0x80 ∧ b.codes.take 4 = [0x7E, 0x3D, 0x83, 0] := by decide +kernel

/-- A group of three products on an accumulator of 2.0. -/
theorem test_dot_group :
    dotGroup .e4m3 .e4m3 false (-2) (([0x38, 0x44, 0xB0, 0]).map (decodeFp e4m3)) (([0x40, 0x3C, 0x48, 0]).map (decodeFp e4m3))
      0x40000000 = 0x40480000 := by decide +kernel

/-- The group that overflows, and the one that R298 flushes. -/
theorem test_dot_overflow :
    dotGroup .e4m3 .e4m3 false 144 [decodeFp e4m3 0x7E] [decodeFp e4m3 0x7E] 0 = 0x7F800000 ∧
    dotGroup .e4m3 .e4m3 true 144 [decodeFp e4m3 0x7E] [decodeFp e4m3 0x7E] 0 = 0x7F7FFFFF ∧
    dotGroup .e4m3 .e4m3 false (-254) [decodeFp e4m3 0x38] [decodeFp e4m3 0x38] 0 = 0 := by decide +kernel

/-- Chapter 09: the fields of the MATMUL. -/
theorem test_matmul_words :
    let c := matmulCtl ⟨0x0300000000000101, 0x0015000000000000, 0x0000960010000000, 0x0000D0001000A000, 0x8010000,
      0x000100800060012C, 0x006000600080, 0⟩
    (c.m, c.n, c.k, c.mode) = (300, 96, 128, 1) ∧ (c.aFmt, c.aScale, c.bLoc, c.bScale, c.dLoc, c.dFmt) =
      (4, 0x9600, 0xA000, 0xD000, 0x10000, 2) ∧ (c.lda, c.ldb, c.ldd) = (128, 96, 96) := by decide

/-- Chapter 10: the metadata header, and the slots of positions 0, 2, 6 and 7. -/
theorem test_sparse_metadata :
    let bs := leBytes 8 0x0000000800014201 ++ List.replicate 56 (0 : Byte) ++ [0xC5, 0, 0, 0]
    metaHead bs = ⟨1, 2, 4, 1, 8⟩ ∧ (List.range 8).filter (nmKept bs 8 0) = [0, 2, 6, 7] ∧
    [0, 2, 6, 7].map (nmSlot bs (metaHead bs) 0) = [0, 1, 2, 3] := by decide +kernel

/-- Chapter 11: the sum of a row of 128 by lanes, and word 0 of its summary. -/
theorem test_row_sum :
    let x (i : Nat) : U32 := if i = 0 then 0x4B800000 else if i = 1 ∨ i = 65 then 0x3F800000 else 0
    rowAcc 0 (fun acc i => fadd arithRne acc (x i)) (fadd arithRne) 128 = 0x4B800001 := by decide +kernel

theorem test_summary_word : summaryWord0 0x2AC2 1 false false false false 0x040 0x2A3 = 0x002A304000012AC2 := by decide

/-- Chapter 12: element 0 of the FACTORED row. -/
theorem test_update_element :
    let h : Hyper := ⟨0x3F000000, 0x3F000000, 0, 0, 0x3E000000, 0x3D800000, 0x3F800000, 0x3F800000⟩
    rowStat h h.beta2 0x3E800000 (sumSquares (List.replicate 32 0x3F000000)) 32 = 0x3E800000 ∧
    denseElem h (denom h 0x3E800000) 0x3F800000 0x3C800000 0x3F000000 = ⟨0x3F75C000, 0x3E840000, false⟩ := by decide +kernel

theorem test_moment_block : (momentEncode (0x3E840000 :: List.replicate 31 0)).1 = 0x7D ∧
    ((momentEncode (0x3E840000 :: List.replicate 31 0)).2.head?) = some 0x42 := by decide +kernel

/-- Chapter 13: the path's first hop, its turn into Y, and the headers on hop 6. -/
theorem test_route :
    nextRole 0x16D true 0x17C3 0x1456 = some 6 ∧ nextRole 0x16D true (22 + 30 * 32 + 5 * 1024) 0x1456 = some 2 ∧
    nextRole 0x16D true 0x1456 0x1456 = none ∧ flowSide 6083 5206 3 = 0 := by decide

theorem test_packet_words :
    let p : Packet := { dst := 0x1456, src := 0x17C3, ptype := .scatterAdd, fvc := 3, psn := 0xA11, step := 30,
                        key0 := 0x0004020000030000, key1 := 0, payload := List.replicate 512 0 }
    packetHeader p = [0x0200003417C31456, 0x0000001E00000A11, 0x0004020000030000, 0] ∧
    linkHeader 1 3 true 0x123 0x456 0 0 0 = 0x45612371 := by decide

/-- Chapter 14: the counter block of draws 0 to 3. -/
theorem test_shuffle_counter : ctrShuffle 0xC011 3 0 = 0x35C011000000000000 := by decide

/-- Chapter 15: the request's words, and header 0 of the two responses. -/
theorem test_breop_request :
    breopOf ⟨1, 2⟩ ⟨3, 4843⟩ none (leBytes 8 0x0008000000114F42 ++ leBytes 8 0x101 ++ leBytes 8 0 ++ leBytes 8 0x32010) =
      some ⟨⟨1, 2⟩, ⟨3, 4843⟩, none, 1, false, 0x101, 0, 0, leBytes 8 0x32010,
        leBytes 8 0x0008000000114F42 ++ leBytes 8 0x101 ++ leBytes 8 0 ++ leBytes 8 0x32010, [], false⟩ := by decide +kernel

theorem test_breop_responses :
    (respHeader ⟨⟨1, 2⟩, ⟨3, 4843⟩, none, 1, 0, 0x101, 0, 0, false, List.replicate 16 0, []⟩).head? = some 0x0010000001114F42 ∧
    (respHeader ⟨⟨1, 2⟩, ⟨3, 4843⟩, none, 2, 5, 0x101, 0, 0, false, List.replicate 8 0, []⟩).head? = some 0x0008000501214F42 := by decide

/-- The cipher example of FIPS 197 (log entry 5). -/
theorem test_aes :
    bytesNat (aes128 (natBytes 16 0x3c4fcf098815f7aba6d2ae2816157e2b) (natBytes 16 0x340737e0a29831318d305a88a8f64332)) =
      0x320b6a19978511dcfb09dc021d842539 := by decide +kernel

/-- The first AES-256-GCM examples without and with a block of zeros, from the cipher's public test vectors (log entry 5). -/
theorem test_gcm :
    gcmSeal 0 (List.replicate 12 0) [] [] = ([], bytesOfNats (beBytes 16 0x530f8afbc74536b9a963b4f1c4cb738b)) ∧
    gcmSeal 0 (List.replicate 12 0) [] (List.replicate 16 0) =
      (bytesOfNats (beBytes 16 0xcea7403d4d606b6e074ec5d3baf39d18), bytesOfNats (beBytes 16 0xd0d1c8a799996bf0265b98b5d48ab919)) := by
  decide +kernel

/-- The checksums of no bytes, an LZ4 frame of five equal bytes behind a skippable frame, and Zstandard frames of nothing and of 20
equal bytes in a compressed block (log entry 62). -/
theorem test_checksums : xxHash32 [] = 0x02CC5D05 ∧ xxHash64 [] = 0xEF46DB3751D8E999 := by decide +kernel

theorem test_zstd :
    zstdDecode [] [0x28, 0xB5, 0x2F, 0xFD, 0x24, 0, 1, 0, 0, 0x99, 0xE9, 0xD8, 0x51] = .ok [] ∧
    zstdDecode [] [0x28, 0xB5, 0x2F, 0xFD, 0x20, 20, 0x45, 0, 0, 0x10, 0x71, 0x71, 1, 0, 0x1E, 0xC0, 2] =
      .ok (List.replicate 20 0x71) := by decide +kernel

theorem test_lz4 :
    lz4Decode ([0x50, 0x2A, 0x4D, 0x18, 1, 0, 0, 0, 7] ++ [4, 0x22, 0x4D, 0x18, 0x64, 0x40, 0xA7, 10, 0, 0, 0, 0x1A, 0x61, 1, 0, 0x50,
      0x61, 0x61, 0x61, 0x61, 0x61, 0, 0, 0, 0, 4, 0x38, 0xB5, 0x31]) = .ok (List.replicate 20 0x61) := by decide +kernel

end Sys2Proof.Tests
end

section
/-! PROOFS. Frames and events: updates of one cluster, of its cores and of the health record, put one behind the other. -/

namespace Sys2Proof.Machine

/-- Only a cluster and the cores may differ: what starting and ending descriptors can reach. -/
def OnlyClusterCores (g : Fin 32) (s t : State) : Prop :=
  t = { s with clusters := s.clusters.set g t.clusters[g], cores := t.cores }

section
variable {g : Fin 32} {s t u : State}

theorem OnlyClusterCores.trans (h : OnlyClusterCores g s t) (k : OnlyClusterCores g t u) : OnlyClusterCores g s u := by
  unfold OnlyClusterCores at *
  rw [k, h]
  simp

theorem OnlyCluster.events (h : OnlyCluster g s t) (k : OnlyHealth t u) : OnlyClusterEvents g s u := by
  unfold OnlyCluster OnlyHealth OnlyClusterEvents at *
  rw [k, h]
  simp

theorem onlyCluster_modCluster (f : Cluster → Cluster) : OnlyCluster g s (s.modCluster g f) := by
  simp [OnlyCluster, State.modCluster]

theorem onlyClusterCores_modCluster (f : Cluster → Cluster) : OnlyClusterCores g s (s.modCluster g f) := by
  simp [OnlyClusterCores, State.modCluster]

theorem onlyClusterCores_modCore (n : Fin 256) (f : Core → Core) : OnlyClusterCores g s (s.modCore n f) := by
  simp [OnlyClusterCores, State.modCore]

theorem OnlyClusterCores.refl : OnlyClusterCores g s s := by simp [OnlyClusterCores]
end

section
variable (s : State) (u : BitVec 16) (c n a0 a1 a2 : Nat)

theorem onlyHealth_raise : OnlyHealth s (s.raise u c n a0 a1 a2) := by
  rcases raiseEvent_cases s _ with h | ⟨_, h⟩ <;> rw [OnlyHealth, State.raise, h]

/-- While the ROT bed is on, the event joins the raised ones with its code and unit (R556). -/
theorem raise_on (h : s.bedOn bedRot = true) : ∃ e : Event, (s.raise u c n a0 a1 a2).health.raised = s.health.raised ++ [e] ∧
    e.code = BitVec.ofNat 16 c ∧ e.unit = u :=
  ⟨_, raiseEvent_on s _ h, rfl, rfl⟩
end

end Sys2Proof.Machine
end

section
/-! PROOFS. Descriptors: what starting, finishing and completing a descriptor does to its queue (R89 to R98, R121). -/

namespace Sys2Proof.Machine

/-! ### Queues -/

section
variable (s : State) (g : Fin 32) (q : QueueId) (r r' : Running) (d : QDesc)

@[simp] theorem queue_modQueue (f : Queue → Queue) : (s.modQueue g q f).queue g q = f (s.queue g q) := by
  simp [State.modQueue, State.queue, Cluster.modQueue, Cluster.queue]

/-- A queue is read from the cluster's table of queues alone. -/
theorem queue_congr {t : State} (h : t.clusters[g].queues = s.clusters[g].queues) : t.queue g q = s.queue g q := by
  simp only [State.queue, Cluster.queue, h]

theorem queue_popHead : (s.popHead g q).queue g q = { s.queue g q with waiting := (s.queue g q).waiting.drop 1 } :=
  queue_modQueue ..

theorem queue_endRunning : (s.endRunning g q r).queue g q =
    { s.queue g q with running := delFirst (fun y => y = r) (s.queue g q).running } := queue_modQueue ..

theorem queue_setRunning : (s.setRunning g q r r').queue g q =
    { s.queue g q with running := modFirst (fun y => y = r) (fun _ => r') (s.queue g q).running } := queue_modQueue ..

@[simp] theorem queue_raise (u : BitVec 16) (c n a0 a1 a2 : Nat) : (s.raise u c n a0 a1 a2).queue g q = s.queue g q :=
  queue_congr _ _ _ (by simp)

@[simp] theorem summaries_endRunning : (s.endRunning g q r).clusters[g].summaries = s.clusters[g].summaries := by
  simp [State.endRunning, State.modQueue, Cluster.modQueue]

theorem onlyCluster_modQueue (f : Queue → Queue) : OnlyCluster g s (s.modQueue g q f) :=
  onlyCluster_modCluster (fun c => c.modQueue (queueCode q) f)

/-! ### Starting (R92 to R96) -/

/-- What starting the head adds to the started descriptors of its queue. -/
def State.startOf : Running :=
  { q := d, season := s.clusters[g].season, ordinal := nextOrdinal (s.queue g q) s.clusters[g].season, phase := .started, summary := none }

theorem waiting_startHead : ((s.startHead g q d).queue g q).waiting = (s.queue g q).waiting.drop 1 := by
  simp [State.startHead]

theorem running_startHead : ((s.startHead g q d).queue g q).running = (s.queue g q).running ++ [s.startOf g q d] := by
  simp [State.startHead, State.startOf]

/-- What a start sets in its engine is Harrow's own or the thread unit's: no queue changes. -/
theorem queue_latchStart (d : Desc) : (s.latchStart g q d).queue g q = s.queue g q := by
  apply queue_congr
  cases q with
  | harrow =>
    unfold State.latchStart
    dsimp only
    split
    · simp [State.modHarrow]
    · rfl
  | _ => rfl

theorem onlyClusterCores_latchStart (d : Desc) : OnlyClusterCores g s (s.latchStart g q d) := by
  cases q with
  | harrow =>
    unfold State.latchStart
    dsimp only
    split
    · exact onlyClusterCores_modCluster _
    · exact .refl
  | thread k => exact onlyClusterCores_modCore (coreOf g k) (fun c => { c with thr := { c.thr with cap := s.objNum 0x5030 1 } })
  | _ => exact .refl

/-! ### Faults (R90, R555) -/

/-- A fault that is no uncorrectable read only raises its event. -/
theorem raiseDesc_eq_raise (n : Nat) (f : Fail) (h : f.code ≠ 0x0203) : s.raiseDesc g q d n f =
    s.raise (queueUnit g q) f.code (s.eventSeason q n) f.arg0 f.arg1 (dctx (queueCode q) d) := by
  simp [State.raiseDesc, State.countUe, h]

/-! ### Completing (R89, R92, R121) -/

/-- The summary that a completing descriptor owes, where it owes one, enters the cluster's queue. -/
def State.pushOwed : Option Summary → State
  | none => s
  | some x => s.pushSummary g q x

theorem onlyClusterCores_pushOwed (o : Option Summary) : OnlyClusterCores g s (s.pushOwed g q o) := by
  cases o with
  | none => exact .refl
  | some x =>
    refine (onlyClusterCores_modCluster (fun c => { c with summaries := c.summaries ++ [x] })).trans ?_
    cases q with
    | vector k =>
      exact onlyClusterCores_modCore (coreOf g k) (fun c => { c with vec := { c.vec with summaries := wrap64 c.vec.summaries 1 } })
    | row k =>
      exact onlyClusterCores_modCore (coreOf g k) (fun c => { c with row := { c.row with summaries := wrap64 c.row.summaries 1 } })
    | _ => exact .refl

theorem clusters_pushOwed (o : Option Summary) : (s.pushOwed g q o).clusters[g] =
    { s.clusters[g] with summaries := s.clusters[g].summaries ++ o.toList } := by
  cases o with
  | none => simp [State.pushOwed]
  | some x => cases q <;> simp [State.pushOwed, State.pushSummary, State.modVec, State.modRow]

theorem postDone_eq : s.postDone g r = { s with posts := (s.postDone g r).posts } := by
  unfold State.postDone
  dsimp only
  split <;> rfl

@[simp] theorem clusters_postDone : (s.postDone g r).clusters = s.clusters := by rw [postDone_eq]

theorem posts_postDone (h : r.q.desc.postEn = true) : (s.postDone g r).posts = s.posts ++
    [⟨some g.val, r.q.desc.postCluster, r.q.desc.postToken, r.season + b2n r.q.desc.postNext, false, 0⟩] := by
  simp [State.postDone, h, State.postToken]

theorem posts_postDone_off (h : r.q.desc.postEn = false) : (s.postDone g r).posts = s.posts := by
  simp [State.postDone, h]
end

/-! ### The commands, case by case -/

section
variable {s : State} {g : Fin 32} {q : QueueId} {d : QDesc} {r : Running}

theorem headState_bad {c : Cluster} {o : Nat} (h : headerBad q d.desc = some o) : headState c q d = .bad o := by
  simp [headState, h]

theorem exec_descriptorStart_ready (ha : s.clusterAccepts g = true) (hl : s.queueLive g q = true)
    (hd : s.headDesc g q = some d) (hr : headState s.clusters[g] q d = .ready) :
    exec (.descriptorStart g q) s = .next ((s.startHead g q d).latchStart g q d.desc) := by
  simp only [exec, execDescriptorStart, ha, hl, hd, hr, and_self, if_true]

theorem exec_descriptorStart_waits (hd : s.headDesc g q = some d) (hw : headState s.clusters[g] q d = .waits) :
    exec (.descriptorStart g q) s = .next s := by
  simp only [exec, execDescriptorStart, hd, hw, ite_self]

/-- A bad header faults at the head, whether or not its waits hold (log entry 15). -/
theorem exec_descriptorStart_bad {o : Nat} (ha : s.clusterAccepts g = true) (hl : s.queueLive g q = true)
    (hd : s.headDesc g q = some d) (hb : headState s.clusters[g] q d = .bad o) :
    exec (.descriptorStart g q) s = .next ((s.popHead g q).raiseDesc g q d s.clusters[g].season (failFormat d.addr o)) := by
  simp only [exec, execDescriptorStart, ha, hl, hd, hb, and_self, if_true]

theorem exec_queueNop (h : s.findRunning g q .started 0 = some r) :
    exec (.queueNop g q) s = .next (s.setRunning g q r { r with phase := .finished, summary := none }) := by
  simp [exec, execQueueNop, h, State.finishDesc]

/-- With room for the summary that it owes, the oldest finished descriptor completes (log entry 19). -/
theorem exec_descriptorComplete_room (hl : s.clusterLive g = true)
    (hf : (s.queue g q).running.find? (fun r => decide (r.phase = .finished)) = some r)
    (hr : r.summary = none ∨ s.clusters[g].summaries.length < 64) :
    exec (.descriptorComplete g q) s = .next (((s.endRunning g q r).pushOwed g q r.summary).postDone g r) := by
  simp only [exec, execDescriptorComplete, hl, if_true, hf]
  cases hs : r.summary with
  | none => rfl
  | some x =>
    have hroom : ¬ 64 ≤ s.clusters[g].summaries.length := by simpa [hs] using hr
    simp only [hroom, if_false, State.pushOwed]

theorem exec_descriptorComplete_full
    (hf : (s.queue g q).running.find? (fun r => decide (r.phase = .finished)) = some r)
    (ho : r.summary.isSome = true) (hr : 64 ≤ s.clusters[g].summaries.length) :
    exec (.descriptorComplete g q) s = .next s := by
  obtain ⟨x, hx⟩ := Option.isSome_iff_exists.mp ho
  simp only [exec, execDescriptorComplete, hf, hx, hr, if_true, ite_self]

theorem descriptorStart_ready_yields (ha : s.clusterAccepts g = true) (hl : s.queueLive g q = true)
    (hd : s.headDesc g q = some d) (hr : headState s.clusters[g] q d = .ready) :
    Yields (.descriptorStart g q) s (fun t => (t.queue g q).waiting = (s.queue g q).waiting.drop 1 ∧
      t.credits g q = queueDepth q - ((s.queue g q).waiting.length - 1) ∧
      (∃ r : Running, (t.queue g q).running = (s.queue g q).running ++ [r] ∧ r.q = d ∧
        r.season = s.clusters[g].season ∧ r.phase = .started) ∧ OnlyClusterCores g s t) := by
  refine ⟨_, exec_descriptorStart_ready ha hl hd hr, ?_, ?_, ⟨s.startOf g q d, ?_, rfl, rfl, rfl⟩, ?_⟩
  · rw [queue_latchStart, waiting_startHead]
  · rw [State.credits, queue_latchStart, waiting_startHead, List.length_drop]
  · rw [queue_latchStart, running_startHead]
  · exact (onlyClusterCores_modCluster _).trans (onlyClusterCores_latchStart ..)

theorem descriptorStart_bad_yields {o : Nat} (ha : s.clusterAccepts g = true) (hl : s.queueLive g q = true)
    (hd : s.headDesc g q = some d) (hb : headerBad q d.desc = some o) :
    Yields (.descriptorStart g q) s (fun t => (t.queue g q).waiting = (s.queue g q).waiting.drop 1 ∧
      (t.queue g q).running = (s.queue g q).running ∧ OnlyClusterEvents g s t ∧
      (s.bedOn bedRot = true → ∃ e : Event, t.health.raised = s.health.raised ++ [e] ∧ e.code = 0x0101)) := by
  have hx := exec_descriptorStart_bad ha hl hd (headState_bad hb)
  rw [raiseDesc_eq_raise _ _ _ _ _ _ (by decide : (0x0101 : Nat) ≠ 0x0203)] at hx
  refine ⟨_, hx, ?_, ?_, ?_, fun hrot => ?_⟩
  · rw [queue_raise, queue_popHead]
  · rw [queue_raise, queue_popHead]
  · exact (onlyCluster_modQueue ..).events (onlyHealth_raise ..)
  · obtain ⟨e, he, hc, -⟩ := raise_on (s.popHead g q) (queueUnit g q) 0x0101 ((s.popHead g q).eventSeason q s.clusters[g].season)
      d.addr o (dctx (queueCode q) d) hrot
    exact ⟨e, he, hc⟩

theorem descriptorComplete_yields (hl : s.clusterLive g = true)
    (hf : (s.queue g q).running.find? (fun r => decide (r.phase = .finished)) = some r)
    (hr : r.summary = none ∨ s.clusters[g].summaries.length < 64) :
    Yields (.descriptorComplete g q) s (fun t =>
      (t.queue g q).running = delFirst (fun y => decide (y = r)) (s.queue g q).running ∧
      t.clusters[g].summaries = s.clusters[g].summaries ++ r.summary.toList ∧
      (r.q.desc.postEn = true → t.posts = s.posts ++
        [⟨some g.val, r.q.desc.postCluster, r.q.desc.postToken, r.season + b2n r.q.desc.postNext, false, 0⟩]) ∧
      (r.q.desc.postEn = false → t.posts = s.posts) ∧
      t = { s with clusters := s.clusters.set g t.clusters[g], cores := t.cores, posts := t.posts }) := by
  have hframe : OnlyClusterCores g s ((s.endRunning g q r).pushOwed g q r.summary) :=
    (onlyClusterCores_modCluster _).trans (onlyClusterCores_pushOwed ..)
  have hposts : ((s.endRunning g q r).pushOwed g q r.summary).posts = s.posts := by rw [hframe]
  refine ⟨_, exec_descriptorComplete_room hl hf hr, ?_, ?_, fun he => ?_, fun he => ?_, ?_⟩
  · rw [queue_congr (s.endRunning g q r) g q (by rw [clusters_postDone, clusters_pushOwed]), queue_endRunning]
  · rw [clusters_postDone, clusters_pushOwed, summaries_endRunning]
  · rw [posts_postDone _ _ _ he, hposts]
  · rw [posts_postDone_off _ _ _ he, hposts]
  · rw [postDone_eq, hframe]
    simp
end

/-- Settles O9, clause by clause from the lemma of each outcome of DESCRIPTOR_START, QUEUE_NOP and DESCRIPTOR_COMPLETE. -/
theorem descriptorsStartAndComplete : Obligations.DescriptorsStartAndComplete := by
  refine ⟨fun _ _ _ _ => descriptorStart_ready_yields, fun _ _ _ _ => exec_descriptorStart_waits,
    fun _ _ _ _ _ => descriptorStart_bad_yields, fun g q r s h => ⟨_, exec_queueNop h, onlyCluster_modQueue .., ?_⟩,
    fun _ _ _ _ => descriptorComplete_yields, fun _ _ _ _ => exec_descriptorComplete_full⟩
  rw [queue_setRunning]

end Sys2Proof.Machine
end

section
/-! PROOFS. Registers: the units of register addresses, register writes, and the snapshots of the stall counters (R30 to R35, R274). -/

namespace Sys2Proof.Machine

/-! ### Register addresses (R30, R40) -/

theorem regUnitOf_dieUnitBase (d : Fin 4) (u : Fin 9) {off : Nat} (h : off < 0x100000) :
    regUnitOf (dieUnitBase d.val u.val + off) = some (.die d u, off) := by
  have hin : unitBase ≤ dieUnitBase d.val u.val + off ∧ dieUnitBase d.val u.val + off < unitBase + 0x40000000 := by
    simp only [dieUnitBase, dieBase]; omega
  have ho : dieUnitBase d.val u.val + off - unitBase = (0x8000000 + (off + u.val * 0x100000)) + d.val * 0x10000000 := by
    simp only [dieUnitBase, dieBase]; omega
  have hx : 0x8000000 + (off + u.val * 0x100000) < 0x10000000 := by omega
  have hoff : (0x8000000 + (off + u.val * 0x100000)) % 0x100000 = off := by
    rw [← Nat.add_assoc, Nat.add_mul_mod_self_right]; omega
  simp [regUnitOf, hin, ho, hx, hoff, Nat.add_mul_div_right, Nat.div_eq_of_lt, Nat.mod_eq_of_lt, h, fin4]

theorem regUnitOf_clusterUnitBase (g : Fin 32) (u : Fin 9) {off : Nat} (h : off < 0x80000) :
    regUnitOf (clusterUnitBase g.val u.val + off) = some (.cluster g u, off) := by
  have hin : unitBase ≤ clusterUnitBase g.val u.val + off ∧ clusterUnitBase g.val u.val + off < unitBase + 0x40000000 := by
    simp only [clusterUnitBase, dieBase]; omega
  have ho : clusterUnitBase g.val u.val + off - unitBase =
      ((0x800000 + (off + u.val * 0x80000)) + g.val % 8 * 0x1000000) + g.val / 8 * 0x10000000 := by
    simp only [clusterUnitBase, dieBase]; omega
  have hy : 0x800000 + (off + u.val * 0x80000) < 0x1000000 := by omega
  have hx : (0x800000 + (off + u.val * 0x80000)) + g.val % 8 * 0x1000000 < 0x8000000 := by omega
  have hx' : (0x800000 + (off + u.val * 0x80000)) + g.val % 8 * 0x1000000 < 0x10000000 := by omega
  have hg : 8 * (g.val / 8) + g.val % 8 = g.val := Nat.div_add_mod ..
  simp [regUnitOf, hin, ho, hx, hx', hy, Nat.add_mul_div_right, Nat.div_eq_of_lt, Nat.mod_eq_of_lt, h, hg, fin32]

/-- Below the FIFO pairs of R69 an offset is no FIFO register. -/
theorem fifoReg_below (u : RegUnit) {off : Nat} (h : off < 0xF000) : fifoReg u off = none := by
  simp [fifoReg, h]

/-! ### Writes (R7, R31, R32) -/

section
variable (s : State) {a : BitVec 48} {v : Word} {u : RegUnit} {off : Nat}

/-- An 8-byte write at the offset of a word writes that word as a whole. -/
theorem regWrite_wide {a : Nat} (h : regUnitOf a = some (u, off)) (h8 : off % 8 = 0) :
    s.regWrite a 8 v.toNat = s.regWordWrite u off v true := by
  have hoff : off / 8 * 8 = off := by omega
  simp [State.regWrite, h, h8, hoff]

theorem regWordWrite_die (d : Fin 4) (x : Fin 9) (h : off < 0xF000) :
    s.regWordWrite (.die d x) off v true = s.dieWrite d x off v true := by
  simp [State.regWordWrite, fifoReg_below _ h]

theorem regWordWrite_cluster (g : Fin 32) (x : Fin 9) (h : off < 0xF000) :
    s.regWordWrite (.cluster g x) off v true = s.clusterWrite g x off v true := by
  simp [State.regWordWrite, fifoReg_below _ h]

theorem unitBase_le_of_regUnitOf {a : Nat} (h : regUnitOf a = some (u, off)) : unitBase ≤ a := by
  by_contra hlt
  have hlink : ¬ linkBase ≤ a := fun hle => hlt (Nat.le_trans (by decide) hle)
  simp [regUnitOf, hlt, hlink] at h

theorem exec_registerWrite_wide (h : regUnitOf a.toNat = some (u, off)) (h8 : off % 8 = 0)
    (hs : s.accessFail .any a.toNat 8 = none) : exec (.registerWrite a v true) s = .next (s.regWordWrite u off v true) := by
  have ha : ¬ a.toNat < unitBase := Nat.not_lt.mpr (unitBase_le_of_regUnitOf h)
  simp only [exec, execRegisterWrite, ha, if_false, if_true, hs, regWrite_wide s h h8]

/-- A write that the access rules refuse raises their event at the agent (log entry 47). -/
theorem exec_registerWrite_refused {wide : Bool} {f : Fail} (ha : unitBase ≤ a.toNat)
    (hs : s.accessFail .any a.toNat (if wide then 8 else 4) = some f) :
    exec (.registerWrite a v wide) s = .next (s.raise uidAgent f.code s.seasonMin f.arg0 f.arg1 0) := by
  simp only [exec, execRegisterWrite, Nat.not_lt.mpr ha, if_false, hs, State.raiseD]
end

/-! ### The registers of a stack (R246) and of Harrow (R167) -/

section
variable (s : State) (k : Fin 12) {a : BitVec 48} {v : Word} {off : Nat}

/-- A stack's place among the units of its die: units 5 to 7 of die k / 3 (R40). -/
def stackUnit : Fin 9 := ⟨5 + k.val % 3, by omega⟩

theorem regUnitOf_stack (h : off < 0x100000) : regUnitOf (dieUnitBase (k.val / 3) (5 + k.val % 3) + off) =
    some (.die ⟨k.val / 3, by omega⟩ (stackUnit k), off) :=
  regUnitOf_dieUnitBase ⟨k.val / 3, by omega⟩ (stackUnit k) h

/-- A write of the block of a stack's unit is a write of that stack. -/
theorem dieWrite_stack : s.dieWrite ⟨k.val / 3, by omega⟩ (stackUnit k) off v true =
    if off = 8 then s.seedWrite k (v.setWidth 16)
    else if 0x1000 ≤ off ∧ off < 0x1200 then s.ticketsWrite (.channel k (Fin.ofNat 64 ((off - 0x1000) / 8))) v
    else s := by
  have hu : ¬ (stackUnit k).val = 0 := by simp [stackUnit]
  have hr : 5 ≤ (stackUnit k).val ∧ (stackUnit k).val ≤ 7 := by simp only [stackUnit]; omega
  have hk : fin12 (3 * (k.val / 3) + ((stackUnit k).val - 5)) = k := by
    ext; simp only [fin12, stackUnit, Fin.val_ofNat]; omega
  simp only [State.dieWrite, hu, hr, hk, if_false, if_true, and_self]

theorem exec_registerWrite_stack (ha : a.toNat = dieUnitBase (k.val / 3) (5 + k.val % 3) + off) (h : off < 0xF000)
    (h8 : off % 8 = 0) (hs : s.accessFail .any a.toNat 8 = none) : exec (.registerWrite a v true) s =
      .next (s.dieWrite ⟨k.val / 3, by omega⟩ (stackUnit k) off v true) := by
  have hu := regUnitOf_stack k (off := off) (by omega)
  rw [← ha] at hu
  rw [exec_registerWrite_wide s hu h8 hs, regWordWrite_die _ _ _ h]

theorem registerWrite_tickets_yields (pc : Fin 64) (ha : a.toNat = dieUnitBase (k.val / 3) (5 + k.val % 3) + 0x1000 + 8 * pc.val)
    (hs : s.accessFail .any a.toNat 8 = none) :
    Yields (.registerWrite a v true) s (fun t => OnlyStack k s t ∧ t.hbm[k].ticketsOf pc.val = v) := by
  rw [Nat.add_assoc] at ha
  have hin : 0x1000 ≤ 0x1000 + 8 * pc.val ∧ 0x1000 + 8 * pc.val < 0x1200 := by omega
  have h8 : ¬ 0x1000 + 8 * pc.val = 8 := by omega
  have hpc : Fin.ofNat 64 ((0x1000 + 8 * pc.val - 0x1000) / 8) = pc := by
    ext; simp only [Fin.val_ofNat]; omega
  have hx := exec_registerWrite_stack s k (v := v) ha (by omega) (by omega) hs
  rw [dieWrite_stack, if_neg h8, if_pos hin, hpc] at hx
  refine ⟨_, hx, ?_, ?_⟩
  · simp [OnlyStack, State.ticketsWrite, State.modStack]
  · simp [State.ticketsWrite, Stack.ticketsOf]

theorem exec_registerWrite_ceCount (ha : a.toNat = dieUnitBase (k.val / 3) (5 + k.val % 3) + 0x10)
    (hs : s.accessFail .any a.toNat 8 = none) : exec (.registerWrite a v true) s = .next s := by
  rw [exec_registerWrite_stack s k ha (by decide) (by decide) hs, dieWrite_stack, if_neg (by decide), if_neg (by decide)]

theorem registerWrite_specTemplate_yields (g : Fin 32) (ha : a.toNat = clusterUnitBase g.val 1 + 0x18)
    (hs : s.accessFail .any a.toNat 8 = none) :
    Yields (.registerWrite a v true) s (fun t => OnlyCluster g s t ∧ t.clusters[g].harrow.specTemplate = v.setWidth 48) := by
  have hu := regUnitOf_clusterUnitBase g 1 (off := 0x18) (by decide)
  have hw : s.clusterWrite g 1 0x18 v true = s.modHarrow g (fun x => { x with specTemplate := v.setWidth 48 }) := rfl
  have hx := exec_registerWrite_wide s (v := v) (ha ▸ hu) (by decide) hs
  rw [regWordWrite_cluster _ _ _ (by decide), hw] at hx
  exact ⟨_, hx, onlyCluster_modCluster (fun c => { c with harrow := { c.harrow with specTemplate := v.setWidth 48 } }),
    by simp [State.modHarrow]⟩

theorem registerWrite_refused_yields {wide : Bool} {f : Fail} (ha : unitBase ≤ a.toNat)
    (hs : s.accessFail .any a.toNat (if wide then 8 else 4) = some f) :
    Yields (.registerWrite a v wide) s (fun t => OnlyHealth s t ∧
      (s.bedOn bedRot = true → ∃ e ∈ t.health.raised, e.code = BitVec.ofNat 16 f.code ∧ e.unit = uidAgent)) := by
  refine ⟨_, exec_registerWrite_refused s ha hs, onlyHealth_raise .., fun hrot => ?_⟩
  obtain ⟨e, he, hcode, hunit⟩ := raise_on s uidAgent f.code s.seasonMin f.arg0 f.arg1 0 hrot
  exact ⟨e, by simp [he], hcode, hunit⟩
end

/-! ### Stall counters (R273, R274, R517) -/

section
variable (s : State) (u : StallUnit)

@[simp] theorem stall_modStall (f : Stall → Stall) : (s.modStall u f).stall u = f (s.stall u) := by
  cases u <;> simp [State.modStall, State.stall]

@[simp] theorem modStall_mem (f : Stall → Stall) : (s.modStall u f).mem = s.mem := by cases u <;> rfl

@[simp] theorem modStall_health (f : Stall → Stall) : (s.modStall u f).health = s.health := by cases u <;> rfl

/-- A unit keeps its counters when the agent's record changes. -/
@[simp] theorem stall_modAgent (f : Agent → Agent) : (s.modAgent f).stall u = s.stall u := by cases u <;> rfl

theorem snapUnit_on (h : s.clusterOn (stallCluster u) = true) :
    s.snapUnit u = s.modStall u (Stall.snap s.clusters[stallCluster u].osc.tick) := if_pos h

theorem exec_snap (hf : s.clusterFenced (stallCluster u) = false) (h : s.clusterOn (stallCluster u) = true) :
    exec (.snap u) s = .next (s.modStall u (Stall.snap s.clusters[stallCluster u].osc.tick)) := by
  simp [exec, execSnap, hf, snapUnit_on s u h]

/-- The state after a snapshot of `u` that COUNTER_SNAPSHOT asked for. -/
def State.snapTaken : State :=
  let t := s.modStall u (Stall.snap s.clusters[stallCluster u].osc.tick)
  t.modAgent (fun a => { a with counterSnap := t.snapBytes (s.objNum 0x8010 1) u })

theorem exec_counterSnapshot (ha : s.agentUp = true) (hs : s.servesIndex 0x8010 = true)
    (hu : stallUnitOf (s.objNum 0x8010 1) = some u) (h : s.clusterOn (stallCluster u) = true) :
    exec .counterSnapshot s = .next (s.snapTaken u) := by
  simp only [exec, execCounterSnapshot, ha, hs, and_self, if_true, State.counterSnapshot, hu, snapUnit_on s u h, State.snapTaken]

theorem snap_yields (hf : s.clusterFenced (stallCluster u) = false) (h : s.clusterOn (stallCluster u) = true) :
    Yields (.snap u) s (fun t => (t.stall u).snapCounts = (s.stall u).counts ∧ (t.stall u).counts = (s.stall u).counts ∧
      (t.stall u).snapTick = s.clusters[stallCluster u].osc.tick ∧ t.mem = s.mem ∧ t.health = s.health) :=
  ⟨_, exec_snap s u hf h, by simp [Stall.snap]⟩

theorem counterSnapshot_yields (ha : s.agentUp = true) (hs : s.servesIndex 0x8010 = true)
    (hu : stallUnitOf (s.objNum 0x8010 1) = some u) (h : s.clusterOn (stallCluster u) = true) :
    Yields .counterSnapshot s (fun t => (t.stall u).snapCounts = (s.stall u).counts ∧
      (t.stall u).snapTick = s.clusters[stallCluster u].osc.tick ∧
      t.agent.counterSnap = leBytes 8 (s.objNum 0x8010 1 % 65536) ++ wordBytes s.clusters[stallCluster u].osc.tick ++
        (s.stall u).counts.toList.flatMap wordBytes) := by
  refine ⟨_, exec_counterSnapshot s u ha hs hu h, ?_⟩
  simp [State.snapTaken, State.snapBytes, Stall.snap]
end

/-- Settles O53, clause by clause from the lemma of each command and register. -/
theorem countersSnapAndRegistersTakeWrites : Obligations.CountersSnapAndRegistersTakeWrites :=
  ⟨fun u s => snap_yields s u, fun u s => counterSnapshot_yields s u,
    fun k pc _ _ s => registerWrite_tickets_yields s k pc, fun g _ _ s => registerWrite_specTemplate_yields s g,
    fun k _ _ s => exec_registerWrite_ceCount s k, fun _ _ _ _ s => registerWrite_refused_yields s⟩

end Sys2Proof.Machine
end

section
/-! PROOFS. MemoryFrames: the operations of the model that leave memory as it is, in the order of its files. -/

namespace Sys2Proof.Machine

/-! The proofs of this part are many: elaborated one after another they need far less memory than side by side. -/

set_option Elab.async false

/-! Most operations change units, counters and events alone. With these rules the canonical form of memory has to be
followed through the operations that write memory, and through no others. -/

theorem foldl_mem {α : Type} {f : State → α → State} (hf : ∀ s x, (f s x).mem = s.mem) (xs : List α) (s : State) :
    (xs.foldl f s).mem = s.mem := by
  induction xs generalizing s with
  | nil => rfl
  | cons x xs ih => rw [List.foldl_cons, ih, hf]

theorem foldl_fst_mem {α β : Type} {f : State × β → α → State × β} (hf : ∀ x a, (f x a).1.mem = x.1.mem)
    (xs : List α) (x : State × β) : (xs.foldl f x).1.mem = x.1.mem := by
  induction xs generalizing x with
  | nil => rfl
  | cons a xs ih => rw [List.foldl_cons, ih, hf]

section
variable {s : State}

/-! ### Named operations -/

@[simp] theorem modUpd_mem (d f) : (s.modUpd d f).mem = s.mem := rfl
@[simp] theorem modSeq_mem (g f) : (s.modSeq g f).mem = s.mem := rfl
@[simp] theorem modOsc_mem (g f) : (s.modOsc g f).mem = s.mem := rfl
@[simp] theorem modHarrow_mem (g f) : (s.modHarrow g f).mem = s.mem := rfl
@[simp] theorem modRake_mem (g f) : (s.modRake g f).mem = s.mem := rfl
@[simp] theorem modSprinkler_mem (g f) : (s.modSprinkler g f).mem = s.mem := rfl
@[simp] theorem modMatrix_mem (n f) : (s.modMatrix n f).mem = s.mem := rfl
@[simp] theorem modTbuf_mem (n f) : (s.modTbuf n f).mem = s.mem := rfl
@[simp] theorem modVec_mem (n f) : (s.modVec n f).mem = s.mem := rfl
@[simp] theorem modRow_mem (n f) : (s.modRow n f).mem = s.mem := rfl
@[simp] theorem modXfer_mem (n f) : (s.modXfer n f).mem = s.mem := rfl
@[simp] theorem modThr_mem (n f) : (s.modThr n f).mem = s.mem := rfl
@[simp] theorem freshWord_mem : (s.freshWord).2.mem = s.mem := rfl
@[simp] theorem freshEntropy_mem : (s.freshEntropy).2.mem = s.mem := rfl
@[simp] theorem setObjNum_mem (i sub v) : (s.setObjNum i sub v).mem = s.mem := rfl
@[simp] theorem setObjBytes_mem (i sub b) : (s.setObjBytes i sub b).mem = s.mem := rfl
@[simp] theorem noteRead_mem (a n) : (s.noteRead a n).mem = s.mem := by unfold State.noteRead; split <;> rfl
@[simp] theorem dropLogs_mem (k) : (s.dropLogs k).mem = s.mem := rfl
@[simp] theorem dropStack_mem (k) : (s.dropStack k).mem = s.mem := rfl

/-! ### Boundary FIFO flags -/

@[simp] theorem setFifo_mem (f x) : (s.setFifo f x).mem = s.mem := rfl
@[simp] theorem send_mem (m) : (s.send m).mem = s.mem := rfl
@[simp] theorem sendPfc_mem (h prio time) : (s.sendPfc h prio time).mem = s.mem := foldl_mem (fun _ _ => by rfl) _ _

@[simp] theorem sendPfcs_mem (h prios time) : (s.sendPfcs h prios time).mem = s.mem := by
  simp [State.sendPfcs, foldl_mem]

@[simp] theorem syncPause_mem (h) : (s.syncPause h).mem = s.mem := by
  simp only [State.syncPause]
  (repeat' split) <;> simp

@[simp] theorem modSub_mem (h i f) : (s.modSub h i f).mem = s.mem := rfl
@[simp] theorem framesOut_mem (h sub n) : (s.framesOut h sub n).mem = s.mem := rfl

@[simp] theorem sendFrame_mem (e) : (s.sendFrame e).mem = s.mem := by
  simp only [State.sendFrame]
  (repeat' split) <;> simp

@[simp] theorem flushHost_mem : (s.flushHost).mem = s.mem := by simp [State.flushHost, foldl_mem]
@[simp] theorem sendMgmt_mem (m) : (s.sendMgmt m).mem = s.mem := by unfold State.sendMgmt; split <;> rfl
@[simp] theorem flushMgmt_mem : (s.flushMgmt).mem = s.mem := by simp [State.flushMgmt, foldl_mem]

/-! ### Fabric operations -/

@[simp] theorem openRecovery_mem (k) : (s.openRecovery k).mem = s.mem := by unfold State.openRecovery; split <;> rfl
@[simp] theorem closeRecovery_mem (k) : (s.closeRecovery k).mem = s.mem := rfl

@[simp] theorem giveCells_mem (charged owes sel n) : (s.giveCells charged owes sel n).mem = s.mem := by
  unfold State.giveCells
  (repeat' split) <;> simp

@[simp] theorem giveEntry_mem (e) : (s.giveEntry e).mem = s.mem := by simp [State.giveEntry]

theorem queueEntry_mem {e side moved t} (h : s.queueEntry e side moved = some t) : t.mem = s.mem := by
  simp only [State.queueEntry] at h
  (repeat' split at h) <;> cases h <;> simp

@[simp] theorem setTxFlow_mem (f) : (s.setTxFlow f).mem = s.mem := by unfold State.setTxFlow; split <;> rfl

theorem sendOne_mem {dst y step key0 key1 bs t} (h : s.sendOne dst y step key0 key1 bs = .ok t) : t.mem = s.mem := by
  simp only [State.sendOne] at h
  split at h
  · cases h
  · cases h
    simp [queueEntry_mem ‹_›]

theorem sendParts_mem {dst y step key0 key1 parts t} (h : s.sendParts dst y step key0 key1 parts = .ok t) :
    t.mem = s.mem := by
  induction parts generalizing s key0 with
  | nil => cases h; rfl
  | cons b rest ih =>
    rw [State.sendParts] at h
    split at h
    · cases h
    · rw [ih h, sendOne_mem ‹_›]

theorem sendPacket_mem {dst y step key0 key1 bs t} (h : s.sendPacket dst y step key0 key1 bs = .ok t) :
    t.mem = s.mem :=
  sendParts_mem h

@[simp] theorem countNoRoute_mem (dst t) : (s.countNoRoute dst t).mem = s.mem := rfl
@[simp] theorem noRoute_mem (f) : (s.noRoute f).mem = s.mem := by unfold State.noRoute; split <;> rfl

@[simp] theorem trySend_mem (dst t step key0 key1 payload) : (s.trySend dst t step key0 key1 payload).mem =
    s.mem := by
  unfold State.trySend
  split
  · exact sendPacket_mem ‹_›
  · simp

/-! ### Queues and tokens -/

@[simp] theorem postToken_mem (p) : (s.postToken p).mem = s.mem := rfl
@[simp] theorem modQueue_mem (g q f) : (s.modQueue g q f).mem = s.mem := rfl
@[simp] theorem enqueue_mem (g q d) : (s.enqueue g q d).mem = s.mem := rfl
@[simp] theorem endRunning_mem (g q r) : (s.endRunning g q r).mem = s.mem := rfl
@[simp] theorem setRunning_mem (g q r r') : (s.setRunning g q r r').mem = s.mem := rfl
@[simp] theorem countUe_mem (f) : (s.countUe f).mem = s.mem := by unfold State.countUe; split <;> rfl
@[simp] theorem raiseDesc_mem (g q d season f) : (s.raiseDesc g q d season f).mem = s.mem := by simp [State.raiseDesc]
@[simp] theorem failDesc_mem (g q r f) : (s.failDesc g q r f).mem = s.mem := by simp [State.failDesc]
@[simp] theorem finishDesc_mem (g q r summary) : (s.finishDesc g q r summary).mem = s.mem := rfl
@[simp] theorem latchCap_mem (g q) : (s.latchCap g q).mem = s.mem := by unfold State.latchCap; split <;> rfl

@[simp] theorem latchStart_mem (g q d) : (s.latchStart g q d).mem = s.mem := by
  unfold State.latchStart
  (repeat' split) <;> simp

@[simp] theorem popHead_mem (g q) : (s.popHead g q).mem = s.mem := rfl
@[simp] theorem startHead_mem (g q d) : (s.startHead g q d).mem = s.mem := rfl

/-! ### Seasons, launch tables and barriers -/

@[simp] theorem sendArrival_mem (g sc) : (sendArrival g s sc).mem = s.mem := by
  simp only [sendArrival]
  split <;> simp

@[simp] theorem settle_mem (g) : (s.settle g).mem = s.mem := by unfold State.settle; split <;> simp

@[simp] theorem receivePost_mem (p) : (s.receivePost p).mem = s.mem := by
  simp only [State.receivePost]
  (repeat' split) <;> simp

@[simp] theorem dropPost_mem (p) : (s.dropPost p).mem = s.mem := by unfold State.dropPost; split <;> rfl

theorem postDesc_mem {g q addr launch t} (h : s.postDesc g q addr launch = .ok t) : t.mem = s.mem := by
  simp only [State.postDesc] at h
  (repeat' split at h) <;> cases h
  simp

@[simp] theorem learnGone_mem (root n) : (s.learnGone root n).mem = s.mem := by unfold State.learnGone; split <;> rfl

@[simp] theorem tryRelease_mem (sc die season) : (s.tryRelease sc die season).mem = s.mem := by
  simp only [State.tryRelease]
  split
  · rfl
  · split
    · exact foldl_mem (fun _ _ => by simp) _ _
    · (repeat' split) <;> simp

@[simp] theorem settleBarriers_mem : (s.settleBarriers).mem = s.mem := by simp [State.settleBarriers, foldl_mem]
@[simp] theorem learnFrom_mem (a) : (s.learnFrom a).mem = s.mem := by unfold State.learnFrom; split <;> simp

/-! ### Tables -/

@[simp] theorem setTable_mem (t td) : (s.setTable t td).mem = s.mem := rfl
@[simp] theorem countRead_mem (t slot addr) : (s.countRead t slot addr).mem = s.mem := rfl
@[simp] theorem countReads_mem (xs) : (s.countReads xs).mem = s.mem := foldl_mem (fun _ _ => by simp) _ _
@[simp] theorem countApplied_mem (t slot addr) : (s.countApplied t slot addr).mem = s.mem := rfl
@[simp] theorem addSlots_mem (k n) : (s.addSlots k n).mem = s.mem := rfl
@[simp] theorem countSlots_mem (addr n) : (s.countSlots addr n).mem = s.mem := rfl

/-! ### Harrow -/

@[simp] theorem sampleEnd_mem (g r j) : (s.sampleEnd g r j).mem = s.mem := by unfold State.sampleEnd; split <;> simp
@[simp] theorem ringWrite_mem (g v) : (s.ringWrite g v).mem = s.mem := by unfold State.ringWrite; split <;> simp
@[simp] theorem confirmSpec_mem (g sp) : (s.confirmSpec g sp).mem = s.mem := by simp [State.confirmSpec]

/-! ### Rake and Cloche -/

@[simp] theorem rowLookup_mem (g c td row) : (s.rowLookup g c td row).2.mem = s.mem := by
  simp only [State.rowLookup]
  (repeat' split) <;> simp

@[simp] theorem setRakeJob_mem (g r j) : (s.setRakeJob g r j).mem = s.mem := rfl
@[simp] theorem dropRakeJob_mem (g r) : (s.dropRakeJob g r).mem = s.mem := rfl
@[simp] theorem openRakeJob_mem (g r blocks) : (s.openRakeJob g r blocks).2.mem = s.mem := rfl

@[simp] theorem settleJob_mem (g c td j) : (s.settleJob g c td j).mem = s.mem := by
  unfold State.settleJob
  (repeat' split) <;> simp

@[simp] theorem noFit_mem (g r) : (s.noFit g r).mem = s.mem := rfl

theorem askRow_mem {g dev table row versionOnly spec tag t}
    (h : s.askRow g dev table row versionOnly spec = .ok (tag, t)) : t.mem = s.mem := by
  simp only [State.askRow] at h
  split at h
  · cases h
  · cases h
    simp [sendPacket_mem ‹_›]

@[simp] theorem itemFailed_mem (g j i f) : (s.itemFailed g j i f).mem = s.mem := by
  simp only [State.itemFailed]
  split <;> simp

@[simp] theorem setStaged_mem (g x x') : (s.setStaged g x x').mem = s.mem := rfl
@[simp] theorem dropStaged_mem (g x) : (s.dropStaged g x).mem = s.mem := rfl

@[simp] theorem settleStaged_mem (g x) : (s.settleStaged g x).mem = s.mem := by
  unfold State.settleStaged
  split <;> rfl

@[simp] theorem failStaged_mem (g x f) : (s.failStaged g x f).mem = s.mem := by simp [State.failStaged]

@[simp] theorem versionAnswer_mem (g x r version) : (s.versionAnswer g x r version).mem = s.mem := by
  unfold State.versionAnswer
  split <;> rfl

@[simp] theorem countParts_mem (ps) : (s.countParts ps).mem = s.mem := foldl_fst_mem (fun _ _ => by simp) _ _

@[simp] theorem openBag_mem (g c td j) : (s.openBag g c td j).mem = s.mem := by
  unfold State.openBag
  (repeat' split) <;> simp

@[simp] theorem addMember_mem (g c td j b key row rec) : (s.addMember g c td j b key row rec).mem = s.mem := by
  unfold State.addMember
  split <;> simp

@[simp] theorem addCoalesced_mem (g c td j b key rec) : (s.addCoalesced g c td j b key rec).mem = s.mem := by
  simp only [State.addCoalesced]
  split <;> simp

@[simp] theorem poolMember_mem (g c td j b) : (s.poolMember g c td j b).mem = s.mem := by
  unfold State.poolMember
  (repeat' split) <;> simp
  exact askRow_mem ‹_›

/-! ### Sprinkler -/

@[simp] theorem logFault_mem (d) : (s.logFault d).mem = s.mem := rfl

theorem sendPartial_mem {g p t} (h : s.sendPartial g p = .ok t) : t.mem = s.mem := by
  simp only [State.sendPartial] at h
  (repeat' split at h) <;> cases h <;> try rfl
  simp [sendPacket_mem ‹_›]

@[simp] theorem sendPartials_mem (g ps) : (s.sendPartials g ps).2.mem = s.mem := by
  induction ps generalizing s with
  | nil => rfl
  | cons p ps ih =>
    rw [State.sendPartials]
    split
    · rw [ih, sendPartial_mem ‹_›]
    · simp [ih]

theorem makeRoom_mem {g t} (h : s.makeRoom g = some t) : t.mem = s.mem := by
  simp only [State.makeRoom] at h
  (repeat' split at h) <;> cases h <;> simp

@[simp] theorem contribute_mem (g t row mb pos grad) : (s.contribute g t row mb pos grad).mem = s.mem := by
  simp only [State.contribute]
  split
  · simp
  · rename_i t ht
    split at ht
    · cases ht; simp
    · simp [makeRoom_mem ht]

theorem scatterOne_mem {g c td j t} (h : s.scatterOne g c td j = .ok t) : t.mem = s.mem := by
  simp only [State.scatterOne] at h
  (repeat' split at h) <;> cases h
  simp

@[simp] theorem scatterList_mem (g c td n j) : (s.scatterList g c td n j).2.2.mem = s.mem := by
  induction n generalizing s j with
  | zero => rfl
  | succ n ih =>
    rw [State.scatterList]
    split
    · rfl
    · split
      · simp
      · rw [ih, scatterOne_mem ‹_›]

@[simp] theorem scatterBags_mem (g c td n j) : (s.scatterBags g c td n j).2.2.mem = s.mem := by
  induction n generalizing s j with
  | zero => rfl
  | succ n ih =>
    rw [State.scatterBags]
    split
    · rfl
    · dsimp only
      split
      · rw [ih, scatterList_mem]
      · simp

@[simp] theorem scatterGo_mem (g c td j) : (s.scatterGo g c td j).mem = s.mem := by
  simp only [State.scatterGo]
  (repeat' split) <;> simp

@[simp] theorem takeMode_mem (d) : (s.takeMode d).mem = s.mem := foldl_mem (fun _ _ => by rfl) _ _

@[simp] theorem scatterStart_mem (g r c) : (s.scatterStart g r c).mem = s.mem := by
  simp only [State.scatterStart]
  (repeat' split) <;> simp

@[simp] theorem flushStart_mem (g r mb mask) : (s.flushStart g r mb mask).mem = s.mem := by
  simp only [State.flushStart]
  (repeat' split) <;> simp

@[simp] theorem ownerFaults_mem (td half) : (s.ownerFaults td half).mem = s.mem :=
  foldl_mem (fun _ _ => by split <;> simp) _ _

@[simp] theorem flipTable_mem (season t td) : (s.flipTable season t td).mem = s.mem := by simp [State.flipTable]

@[simp] theorem flipOwners_mem (season) : (s.flipOwners season).mem = s.mem := by
  simp [State.flipOwners, foldl_mem, apply_ite State.mem]

@[simp] theorem endMoves_mem (season) : (s.endMoves season).mem = s.mem := rfl
@[simp] theorem applied_mem (p slot addr) : (s.applied p slot addr).mem = s.mem := rfl

@[simp] theorem partialFails_mem (p unit f) : (s.partialFails p unit f).mem = s.mem := by
  unfold State.partialFails
  (repeat' split) <;> simp

@[simp] theorem recordPartial_mem (p slot addr) : (s.recordPartial p slot addr).mem = s.mem := by
  simp only [State.recordPartial]
  (repeat' split) <;> simp

@[simp] theorem countPassed_mem (cluster) : (s.countPassed cluster).mem = s.mem := by
  unfold State.countPassed
  split <;> rfl

@[simp] theorem passPartial_mem (p dev) : (s.passPartial p dev).mem = s.mem := by
  unfold State.passPartial
  split
  · simp
  · split <;> simp [sendPacket_mem ‹_›]

/-! ### Update units -/

theorem shadowWrite_mem {d a bs t} (h : s.shadowWrite d a bs = .ok t) : t.mem = s.mem := by
  simp only [State.shadowWrite] at h
  (repeat' split at h) <;> cases h
  simp

@[simp] theorem updFault_mem (d f) : (s.updFault d f).mem = s.mem := by simp [State.updFault]
@[simp] theorem backFault_mem (d f) : (s.backFault d f).mem = s.mem := by unfold State.backFault; split <;> simp

@[simp] theorem stepHeader_mem (step) : (s.stepHeader step).mem = s.mem := by
  simp [State.stepHeader, foldl_mem, apply_ite State.mem]

@[simp] theorem deliverCol_mem (gi j0 v) : (s.deliverCol gi j0 v).mem = s.mem := by
  simp only [State.deliverCol]
  split
  · rfl
  · refine (foldl_mem (fun _ _ => by rfl) _ _).trans ?_
    split
    · exact shadowWrite_mem ‹_›
    · simp

@[simp] theorem sendDown_mem (p v step) : (s.sendDown p v step).mem = s.mem := by simp [State.sendDown, foldl_mem]

@[simp] theorem settleGrads_mem : (s.settleGrads).mem = s.mem :=
  foldl_mem (fun _ _ => by (repeat' split) <;> simp) _ _

@[simp] theorem clearColpart_mem (d g) : (s.clearColpart d g).mem = s.mem := by
  unfold State.clearColpart
  split <;> rfl

@[simp] theorem updDone_mem (d) : (s.updDone d).mem = s.mem := by unfold State.updDone; (repeat' split) <;> simp

@[simp] theorem updStart_mem (g r c) : (s.updStart g r c).mem = s.mem := by
  simp [State.updStart, foldl_mem, apply_ite State.mem]

@[simp] theorem skipSum_mem (d t row f) : (s.skipSum d t row f).mem = s.mem := by simp [State.skipSum]

@[simp] theorem nonfiniteEvent_mem (d elem group kept) : (s.nonfiniteEvent d elem group kept).mem = s.mem := by
  simp only [State.nonfiniteEvent]
  (repeat' split) <;> simp

@[simp] theorem skewRecord_mem (d addr step) : (s.skewRecord d addr step).mem = s.mem := by
  simp only [State.skewRecord]
  (repeat' split) <;> simp

theorem shadowWrites_mem {d ws t} (h : s.shadowWrites d ws = .ok t) : t.mem = s.mem := by
  induction ws generalizing s with
  | nil => cases h; rfl
  | cons w ws ih =>
    rw [State.shadowWrites] at h
    split at h
    · cases h
    · rw [ih h, shadowWrite_mem ‹_›]

theorem addColpart_mem {d g o t} (h : s.addColpart d g o = .ok t) : t.mem = s.mem := by
  unfold State.addColpart at h
  split at h
  · cases h
  · exact shadowWrite_mem h

theorem denseWrite_mem {d gi g i x o t} (h : s.denseWrite d gi g i x o = .ok t) : t.mem = s.mem := by
  simp only [State.denseWrite] at h
  split at h
  · cases h
  · rename_i u hu
    refine Eq.trans ?_ (shadowWrites_mem hu)
    split at h
    · split at h
      · cases h
      · rename_i v hv
        have hv : v.mem = u.mem := by
          rw [shadowWrite_mem hv]
          split
          · simp
          · split <;> simp
        split at h
        · cases h; exact hv
        · exact (addColpart_mem h).trans hv
    · cases h
      split
      · simp
      · split <;> simp

@[simp] theorem denseUpdate_mem (d gi i c vote) : (s.denseUpdate d gi i c vote).mem = s.mem := by
  simp only [State.denseUpdate]
  split
  · rfl
  · split
    · simp
    · simp
    · split
      · simp [apply_ite State.mem, foldl_mem]
      · split
        · rw [denseWrite_mem ‹_›]
          simp [apply_ite State.mem, foldl_mem]
        · simp [apply_ite State.mem, foldl_mem]

@[simp] theorem countClamped_mem (n) : (s.countClamped n).mem = s.mem := by
  unfold State.countClamped
  split
  · rfl
  · exact foldl_mem (fun _ _ => by rfl) _ _

@[simp] theorem embedUpdate_mem (d gi t row k c vote) : (s.embedUpdate d gi t row k c vote).mem = s.mem := by
  simp only [State.embedUpdate]
  (repeat' split) <;> simp

@[simp] theorem doWork_mem (d w) : (s.doWork d w).mem = s.mem := by unfold State.doWork; split <;> simp

@[simp] theorem sendCols_mem : (s.sendCols).mem = s.mem := by
  simp only [State.sendCols]
  split
  · refine (foldl_mem (fun _ _ => ?_) _ _).trans (foldl_mem (fun _ _ => by rfl) _ _)
    split
    · rfl
    · split
      · simp
      · exact foldl_mem (fun _ _ => by rfl) _ _
  · rfl

@[simp] theorem settleCommits_mem : (s.settleCommits).mem = s.mem :=
  (foldl_mem (fun _ _ => by (repeat' split) <;> simp) _ _).trans (by simp)

@[simp] theorem commitSkip_mem (d) : (s.commitSkip d).mem = s.mem := by
  simp [State.commitSkip, foldl_mem (fun s k => dropLogs_mem k)]

@[simp] theorem takeModes_mem : (s.takeModes).mem = s.mem := by simp [State.takeModes, foldl_mem, apply_ite State.mem]

@[simp] theorem commitEnds_mem (taken t dec season) : (s.commitEnds taken t dec season).mem = s.mem := by
  unfold State.commitEnds
  split <;> simp

@[simp] theorem failGrads_mem (p) : (s.failGrads p).mem = s.mem := foldl_mem (fun _ _ => by split <;> simp) _ _

/-! ### Completion and advance -/

@[simp] theorem postDone_mem (g r) : (s.postDone g r).mem = s.mem := by simp only [State.postDone]; split <;> simp

@[simp] theorem pushSummary_mem (g q x) : (s.pushSummary g q x).mem = s.mem := by
  unfold State.pushSummary
  split <;> rfl

@[simp] theorem decideSpec_mem (g) : (s.decideSpec g).mem = s.mem := by
  unfold State.decideSpec
  (repeat' split) <;> simp

@[simp] theorem advanceCluster_mem (g) : (s.advanceCluster g).mem = s.mem := by
  simp only [State.advanceCluster]
  split <;> simp

/-! ### Boundary FIFOs -/

@[simp] theorem putFifo_mem (f x) : (s.putFifo f x).mem = s.mem := by unfold State.putFifo; (repeat' split) <;> simp

@[simp] theorem writeWm_mem (f value) : (s.writeWm f value).mem = s.mem := by
  simp only [State.writeWm]
  split <;> simp

@[simp] theorem resetFifo_mem (f cause) : (s.resetFifo f cause).mem = s.mem := by
  simp only [State.resetFifo]
  split <;> simp

@[simp] theorem resetFifosOfBed_mem (b cause) : (s.resetFifosOfBed b cause).mem = s.mem := by
  simp [State.resetFifosOfBed, foldl_mem]

@[simp] theorem resetFifosOfUnit_mem (u cause) : (s.resetFifosOfUnit u cause).mem = s.mem := by
  simp [State.resetFifosOfUnit, foldl_mem]

@[simp] theorem forgetFifosOfBed_mem (b) : (s.forgetFifosOfBed b).mem = s.mem := by simp [State.forgetFifosOfBed]

/-! ### Agent -/

@[simp] theorem sendResp_mem (m) : (s.sendResp m).mem = s.mem := by unfold State.sendResp; split <;> simp
@[simp] theorem answer_mem (m) : (s.answer m).mem = s.mem := by simp [State.answer]
@[simp] theorem dropFrame_mem : (s.dropFrame).mem = s.mem := rfl
@[simp] theorem useSession_mem (id seq) : (s.useSession id seq).mem = s.mem := rfl
@[simp] theorem accept_mem (r) : (s.accept r).mem = s.mem := by unfold State.accept; split <;> rfl

theorem answeredAtOnce_mem {r t} (h : s.answeredAtOnce r = some t) : t.mem = s.mem := by
  simp only [State.answeredAtOnce] at h
  (repeat' split at h) <;> cases h <;> simp

@[simp] theorem settleRequests_mem (rs) : (s.settleRequests rs).mem = s.mem := by
  induction rs generalizing s with
  | nil => rfl
  | cons r rs ih =>
    rw [State.settleRequests]
    split
    · rw [ih, answeredAtOnce_mem ‹_›]
    · rfl

@[simp] theorem settleAgent_mem : (s.settleAgent).mem = s.mem := by simp [State.settleAgent]

@[simp] theorem admitMessage_mem (src dest via bytes) : (s.admitMessage src dest via bytes).mem = s.mem := by
  unfold State.admitMessage
  split <;> simp

@[simp] theorem mgmtTake_mem (f) : (s.mgmtTake f).mem = s.mem := by unfold State.mgmtTake; (repeat' split) <;> simp

/-! ### Fences -/

@[simp] theorem dropCluster_mem (g) : (s.dropCluster g).mem = s.mem := foldl_mem (fun _ _ => by rfl) _ _

@[simp] theorem dropUpdate_mem (d) : (s.dropUpdate d).mem = s.mem :=
  (foldl_mem (fun _ _ => by split <;> rfl) _ _).trans (by simp [foldl_mem (fun s k => dropLogs_mem k)])

@[simp] theorem dropRequests_mem (h gone) : (s.dropRequests h gone).mem = s.mem := by simp [State.dropRequests]
@[simp] theorem errorQps_mem (h) : (s.errorQps h).mem = s.mem := by simp [State.errorQps]

@[simp] theorem dropIngestRequests_mem (h) : (s.dropIngestRequests h).mem = s.mem := by
  simp [State.dropIngestRequests]

@[simp] theorem emptyFtq_mem (cause n) : (s.emptyFtq cause n).mem = s.mem := by
  simp only [State.emptyFtq]
  split <;> simp

@[simp] theorem emptyFtqs_mem (g cause) : (s.emptyFtqs g cause).mem = s.mem := by simp [State.emptyFtqs, foldl_mem]
@[simp] theorem unitEffects_mem (k) : (s.unitEffects k).mem = s.mem := by unfold State.unitEffects; split <;> simp

@[simp] theorem cutOff_mem (before) : (s.cutOff before).mem = s.mem := by
  simp [State.cutOff, foldl_mem, apply_ite State.mem]

@[simp] theorem fenceEffects_mem (before k) : (s.fenceEffects before k).mem = s.mem := by
  unfold State.fenceEffects
  split <;> simp

@[simp] theorem fenceEvent_mem (k code persistent cause by_) :
    (s.fenceEvent k code persistent cause by_).mem = s.mem := by
  unfold State.fenceEvent
  split <;> simp

@[simp] theorem capacityChange_mem (u cause) : (s.capacityChange u cause).mem = s.mem := rfl

@[simp] theorem fenceOne_mem (k persistent cause by_) : (s.fenceOne k persistent cause by_).mem = s.mem := by
  simp only [State.fenceOne]
  (repeat' split) <;> simp

@[simp] theorem fenceWith_mem (k persistent cause also) : (s.fenceWith k persistent cause also).mem = s.mem := by
  simp [State.fenceWith, foldl_mem, apply_ite State.mem]

@[simp] theorem fenceUnit_mem (k persistent cause) : (s.fenceUnit k persistent cause).mem = s.mem := by
  simp [State.fenceUnit]

@[simp] theorem liftFence_mem (u) : (s.liftFence u).mem = s.mem := by unfold State.liftFence; split <;> rfl
@[simp] theorem sramEvent_mem (k) : (s.sramEvent k).mem = s.mem := by unfold State.sramEvent; split <;> simp

@[simp] theorem fenceClear_mem (k) : (s.fenceClear k).mem = s.mem := by
  simp only [State.fenceClear, capacityChange_mem]
  exact foldl_mem (fun _ _ => by split <;> simp) _ _

/-! ### Host ports -/

@[simp] theorem setQp_mem (h i q) : (s.setQp h i q).mem = s.mem := rfl
@[simp] theorem reply_mem (h q m n) : (s.reply h q m n).mem = s.mem := by simp [State.reply]
@[simp] theorem hostGive_mem (h n) : (s.hostGive h n).mem = s.mem := by simp [State.hostGive]
@[simp] theorem dropWaits_mem (h qpn) : (s.dropWaits h qpn).mem = s.mem := by simp [State.dropWaits]

@[simp] theorem nakError_mem (h i q psn syndrome) : (s.nakError h i q psn syndrome).mem = s.mem := by
  simp [State.nakError]

@[simp] theorem nakRefuse_mem (h i q psn syndrome) : (s.nakRefuse h i q psn syndrome).mem = s.mem := by
  simp [State.nakRefuse]

@[simp] theorem ackQp_mem (h q psn) : (s.ackQp h q psn).mem = s.mem := by simp [State.ackQp]

@[simp] theorem congested_mem (h i q ce) : (s.congested h i q ce).1.mem = s.mem := by
  unfold State.congested
  split <;> simp

@[simp] theorem takeRequest_mem (h i q psn req cells) : (s.takeRequest h i q psn req cells).mem = s.mem := by
  simp only [State.takeRequest]
  split <;> simp

@[simp] theorem takeAgain_mem (h q psn req cells) : (s.takeAgain h q psn req cells).mem = s.mem := by
  simp only [State.takeAgain]
  split <;> simp

@[simp] theorem countFrame_mem (h) : (s.countFrame h).mem = s.mem := rfl

@[simp] theorem roceIn_mem (h f prio src icrcOk qpn psn req) :
    (s.roceIn h f prio src icrcOk qpn psn req).mem = s.mem := by
  unfold State.roceIn
  split
  · rfl
  · split
    · rfl
    · split
      · simp
      · split
        · rfl
        · split
          · simp
          · rename_i i q _ _ _ _
            have ht := congested_mem (s := s.countFrame h) h i { q with prio := prio } f.ce
            generalize (s.countFrame h).congested h i { q with prio := prio } f.ce = x at ht ⊢
            obtain ⟨t, q⟩ := x
            simp only [apply_ite State.mem, takeRequest_mem, takeAgain_mem, ackQp_mem, reply_mem, ite_self]
            simpa using ht

@[simp] theorem enterFrame_mem (h prio f) : (s.enterFrame h prio f).mem = s.mem := by
  simp only [State.enterFrame]
  (repeat' split) <;> simp

@[simp] theorem inBandIn_mem (h f src dst bytes) : (s.inBandIn h f src dst bytes).mem = s.mem := by
  unfold State.inBandIn
  (repeat' split) <;> simp

theorem nextWait_mem {k ok w i q t} (h : s.nextWait k ok = some (w, i, q, t)) : t.mem = s.mem := by
  unfold State.nextWait at h
  split at h
  · cases h
  · obtain ⟨x, -, ⟨⟩⟩ := Option.map_eq_some_iff.mp h
    simp

@[simp] theorem refuseAccess_mem (h i q psn rkey va) : (s.refuseAccess h i q psn rkey va).mem = s.mem := by
  simp [State.refuseAccess]

@[simp] theorem rdmaFails_mem (h i q psn f) : (s.rdmaFails h i q psn f).mem = s.mem := by simp [State.rdmaFails]
@[simp] theorem notReady_mem (h i q psn) : (s.notReady h i q psn).mem = s.mem := by simp [State.notReady]

@[simp] theorem recvWrite_mem (h q v) : (s.recvWrite h q v).mem = s.mem := by
  unfold State.recvWrite
  (repeat' split) <;> simp

@[simp] theorem hostLanes_mem (host link) : (s.hostLanes host link).mem = s.mem := by
  unfold State.hostLanes
  (repeat' split) <;> simp

/-! ### Ingest engines -/

@[simp] theorem shardEvent_mem (i seq offset cause) : (s.shardEvent i seq offset cause).mem = s.mem := by
  simp [State.shardEvent]

@[simp] theorem takeNotice_mem (i n) : (s.takeNotice i n).mem = s.mem := by
  simp only [State.takeNotice]
  (repeat' split) <;> simp

@[simp] theorem shardUnread_mem (i f) : (s.shardUnread i f).mem = s.mem := by simp [State.shardUnread]
@[simp] theorem shardDone_mem (i n records) : (s.shardDone i n records).mem = s.mem := rfl
@[simp] theorem outWrite_mem (i v) : (s.outWrite i v).mem = s.mem := by simp only [State.outWrite]; split <;> simp

/-! ### Stacks and arbiters -/

@[simp] theorem setArb_mem (a x) : (s.setArb a x).mem = s.mem := by unfold State.setArb; split <;> rfl
@[simp] theorem arbJoin_mem (a asks) : (s.arbJoin a asks).mem = s.mem := by simp [State.arbJoin]

theorem arbDecide_mem {a asks i t} (h : s.arbDecide a asks = some (i, t)) : t.mem = s.mem := by
  obtain ⟨x, -, ⟨⟩⟩ := Option.map_eq_some_iff.mp h
  dsimp only
  split <;> simp

@[simp] theorem ticketsWrite_mem (a v) : (s.ticketsWrite a v).mem = s.mem := by
  unfold State.ticketsWrite
  split <;> rfl

@[simp] theorem seedWrite_mem (k v) : (s.seedWrite k v).mem = s.mem := by unfold State.seedWrite; split <;> simp

@[simp] theorem watchdogFence_mem (a r source) : (s.watchdogFence a r source).mem = s.mem := by
  unfold State.watchdogFence
  (repeat' split) <;> simp

@[simp] theorem arbNext_mem (a asks) : (s.arbNext a asks).mem = s.mem := by
  unfold State.arbNext
  split
  · rfl
  · cases ha : s.arbDecide a asks with
    | none => simp
    | some x => exact arbDecide_mem ha

@[simp] theorem retireLimit_mem (k) : (s.retireLimit k).mem = s.mem := by
  simp only [State.retireLimit]
  split <;> simp

@[simp] theorem retire_mem (gran cause) : (s.retire gran cause).mem = s.mem := by
  simp only [State.retire]
  (repeat' split) <;> simp

@[simp] theorem corrected_mem (unit) : (s.corrected unit).mem = s.mem := by
  simp only [State.corrected]
  split <;> simp

@[simp] theorem poisonUnit_mem (unit) : (s.poisonUnit unit).mem = s.mem := by simp [State.poisonUnit]
@[simp] theorem retireDue_mem : (s.retireDue).mem = s.mem := by simp [State.retireDue, foldl_mem, apply_ite State.mem]
@[simp] theorem uncorrected_mem (unit) : (s.uncorrected unit).mem = s.mem := by simp [State.uncorrected]
@[simp] theorem upsetUnit_mem (unit u) : (s.upsetUnit unit u).mem = s.mem := rfl
@[simp] theorem scrubStart_mem (k) : (s.scrubStart k).mem = s.mem := by unfold State.scrubStart; split <;> rfl

/-! ### Transport -/

@[simp] theorem settleRecovery_mem : (s.settleRecovery).mem = s.mem := by
  simp only [State.settleRecovery]
  (repeat' split) <;> simp

@[simp] theorem scatterFails_mem (dst psn f) : (s.scatterFails dst psn f).mem = s.mem :=
  foldl_mem (fun _ _ => by dsimp only; (repeat' split) <;> simp) _ _

@[simp] theorem commitFails_mem (f) : (s.commitFails f).mem = s.mem :=
  foldl_mem (fun _ _ => by (repeat' split) <;> simp) _ _

@[simp] theorem gradFails_mem (group first f) : (s.gradFails group first f).mem = s.mem :=
  foldl_mem (fun _ _ => by split <;> simp) _ _

@[simp] theorem copyLost_mem (p) : (s.copyLost p).mem = s.mem := rfl

theorem sendAbove_mem {root p t} (h : s.sendAbove root p = some t) : t.mem = s.mem := by
  obtain ⟨m, -, rfl⟩ := Option.map_eq_some_iff.mp h
  simp

@[simp] theorem sendBelow_mem (root p) : (s.sendBelow root p).mem = s.mem := by simp [State.sendBelow, foldl_mem]
@[simp] theorem freeKept_mem (p) : (s.freeKept p).mem = s.mem := rfl

@[simp] theorem dropUnacked_mem (f gone) : (s.dropUnacked f gone).mem = s.mem :=
  (foldl_mem (fun _ _ => freeKept_mem _) _ _).trans (setTxFlow_mem _)

@[simp] theorem setRxFlow_mem (f) : (s.setRxFlow f).mem = s.mem := by unfold State.setRxFlow; split <;> rfl
@[simp] theorem ackFlow_mem (f) : (s.ackFlow f).mem = s.mem := by rw [State.ackFlow, trySend_mem, setRxFlow_mem]
@[simp] theorem deliver_mem (p) : (s.deliver p).mem = s.mem := by unfold State.deliver; (repeat' split) <;> simp
@[simp] theorem handOver_mem (p) : (s.handOver p).mem = s.mem := by unfold State.handOver; split <;> simp

@[simp] theorem drainHeld_mem (n f) : (State.drainHeld n s f).1.mem = s.mem := by
  induction n generalizing s f with
  | zero => rfl
  | succ n ih =>
    rw [State.drainHeld]
    split
    · rfl
    · simp [ih]

@[simp] theorem receiveNumbered_mem (die ch p) : (s.receiveNumbered die ch p).mem = s.mem := by
  simp only [State.receiveNumbered]
  (repeat' split) <;> simp

@[simp] theorem receiveHere_mem (die ch p) : (s.receiveHere die ch p).mem = s.mem := by simp [State.receiveHere]

theorem pick_mem {y ok p t} (h : s.pick y ok = some (p, t)) : t.mem = s.mem := by
  obtain ⟨p, -, ⟨⟩⟩ := Option.map_eq_some_iff.mp h
  rfl

@[simp] theorem copyArrived_mem (a) : (s.copyArrived a).mem = s.mem := by
  unfold State.copyArrived
  (repeat' split) <;> simp

@[simp] theorem answerRow_mem (p status payload) : (s.answerRow p status payload).mem = s.mem := by
  simp [State.answerRow]

@[simp] theorem forwardRow_mem (p dev unit) : (s.forwardRow p dev unit).mem = s.mem := by
  simp only [State.forwardRow]
  split
  · simp
  · simp [sendPacket_mem ‹_›]

@[simp] theorem serveRow_mem (p k) : (s.serveRow p k).mem = s.mem := by
  unfold State.serveRow
  (repeat' split) <;> simp

@[simp] theorem countForwarded_mem (g tag) : (s.countForwarded g tag).mem = s.mem := by
  unfold State.countForwarded
  (repeat' split) <;> simp

/-! ### Fabric links -/

@[simp] theorem emitAs_mem (port ftype vc cls seq payload as_) :
    (s.emitAs port ftype vc cls seq payload as_).mem = s.mem :=
  rfl

@[simp] theorem rekey_mem (port) : (s.rekey port).mem = s.mem := rfl

@[simp] theorem emit_mem (port ftype vc cls seq payload as_) :
    (s.emit port ftype vc cls seq payload as_).mem = s.mem := by
  unfold State.emit
  split <;> rfl

@[simp] theorem emitFlit_mem (port head vc cls seq payload) : (s.emitFlit port head vc cls seq payload).mem
    = s.mem := by
  simp [State.emitFlit]

@[simp] theorem emitIdle_mem (port) : (s.emitIdle port).mem = s.mem := by simp [State.emitIdle]
@[simp] theorem emitNak_mem (port) : (s.emitNak port).mem = s.mem := by simp [State.emitNak]
@[simp] theorem emitKeyex_mem (port payload) : (s.emitKeyex port payload).mem = s.mem := by simp [State.emitKeyex]
@[simp] theorem linkAck_mem (port seq) : (s.linkAck port seq).mem = s.mem := by simp [State.linkAck, foldl_mem]
@[simp] theorem carryIn_mem (port c) : (s.carryIn port c).mem = s.mem := by simp [State.carryIn]
@[simp] theorem takeCarry_mem (rx) : (s.takeCarry rx).mem = s.mem := by simp [State.takeCarry]
@[simp] theorem resend_mem (port fs) : (s.resend port fs).mem = s.mem := by simp [State.resend, foldl_mem]
@[simp] theorem markMoved_mem (dst) : (s.markMoved dst).mem = s.mem := rfl
@[simp] theorem retrain_mem (port) : (s.retrain port).mem = s.mem := rfl

@[simp] theorem miswire_mem (port dev peerPort why) : (s.miswire port dev peerPort why).mem = s.mem := by
  simp [State.miswire]

@[simp] theorem setWidth_mem (port lanes) : (s.setWidth port lanes).mem = s.mem := by
  simp only [State.setWidth]
  (repeat' split) <;> simp

@[simp] theorem portUpNow_mem (port) : (s.portUpNow port).mem = s.mem := by
  simp only [State.portUpNow]
  split <;> simp

@[simp] theorem modKeyex_mem (port f) : (s.modKeyex port f).mem = s.mem := rfl

@[simp] theorem takeEk_mem (port bytes) : (s.takeEk port bytes).mem = s.mem := by
  simp only [State.takeEk]
  split <;> simp

@[simp] theorem takeCt_mem (port bytes) : (s.takeCt port bytes).mem = s.mem := by
  simp only [State.takeCt]
  split <;> simp

@[simp] theorem badFlit_mem (port tag) : (s.badFlit port tag).mem = s.mem := by simp [State.badFlit]
@[simp] theorem arriveHere_mem (port cls p) : (s.arriveHere port cls p).mem = s.mem := by simp [State.arriveHere]
@[simp] theorem countFlit_mem (port) : (s.countFlit port).mem = s.mem := rfl

@[simp] theorem transmit_mem (port e) : (s.transmit port e).mem = s.mem := by
  simp [State.transmit, foldl_mem, apply_ite State.mem]

/-! ### Oscillators -/

@[simp] theorem trimRequest_mem (cluster) : (trimRequest cluster s).mem = s.mem := by
  unfold trimRequest
  split <;> rfl

/-! ### Beds -/

@[simp] theorem extend_mem (i data) : (s.extend i data).mem = s.mem := rfl
@[simp] theorem measurePart_mem (i) : (s.measurePart i).mem = s.mem := by unfold State.measurePart; split <;> rfl
@[simp] theorem measureBed_mem (b) : (s.measureBed b).mem = s.mem := by unfold State.measureBed; split <;> simp

@[simp] theorem freshCluster_mem (g) : (s.freshCluster g).mem = s.mem :=
  foldl_mem (fun _ _ => by simp) _ _

@[simp] theorem freshDie_mem (d) : (s.freshDie d).mem = s.mem := by simp only [State.freshDie]; split <;> simp
@[simp] theorem freshHost_mem (h) : (s.freshHost h).mem = s.mem := rfl
@[simp] theorem latchFabric_mem : (s.latchFabric).mem = s.mem := rfl
@[simp] theorem freshPort_mem (p) : (s.freshPort p).mem = s.mem := rfl
@[simp] theorem freshFab_mem (p q) : (s.freshFab p q).mem = s.mem := by simp only [State.freshFab]; split <;> simp
@[simp] theorem beginRamp_mem (b) : (s.beginRamp b).mem = s.mem := rfl
@[simp] theorem liftBed_mem (b) : (s.liftBed b).mem = s.mem := by unfold State.liftBed; split <;> simp

@[simp] theorem subPortsDown_mem (h) : (s.subPortsDown h).mem = s.mem := by
  simp only [State.subPortsDown]
  split <;> simp

@[simp] theorem stopBallast_mem (b) : (s.stopBallast b).mem = s.mem := by
  unfold State.stopBallast
  split
  · exact foldl_mem (fun _ _ => by split <;> rfl) _ _
  · rfl

@[simp] theorem targetOff_mem (b) : (s.targetOff b).mem = s.mem := by simp [State.targetOff]

@[simp] theorem writeTarget_mem (b on) : (s.writeTarget b on).2.mem = s.mem := by
  simp only [State.writeTarget]
  (repeat' split) <;> simp
  (all_goals exact (foldl_mem (fun _ _ => targetOff_mem _) _ _).trans (targetOff_mem _))

@[simp] theorem settleShut_mem : (s.settleShut).mem = s.mem := by unfold State.settleShut; split <;> rfl
@[simp] theorem portFailed_mem (p) : (s.portFailed p).mem = s.mem := by unfold State.portFailed; split <;> rfl

/-! ### The always-on domain -/

@[simp] theorem startRot_mem : (s.startRot).mem = s.mem := rfl
@[simp] theorem restart_mem (cause) : (s.restart cause).mem = s.mem := rfl

@[simp] theorem sidebandFound_mem (o x) : (s.sidebandFound o x).mem = s.mem := by
  unfold State.sidebandFound
  split <;> simp

@[simp] theorem setRefclk_mem (l missing) : (s.setRefclk l missing).mem = s.mem := rfl
@[simp] theorem extendMr2_mem : (s.extendMr2).mem = s.mem := rfl
@[simp] theorem mr2Since_mem (before) : (s.mr2Since before).mem = s.mem := by unfold State.mr2Since; split <;> rfl
@[simp] theorem bootSlot_mem : (s.bootSlot).mem = s.mem := by simp only [State.bootSlot]; (repeat' split) <;> simp
@[simp] theorem bootAgent_mem : (s.bootAgent).mem = s.mem := by simp [State.bootAgent]

@[simp] theorem bootTargets_mem : (s.bootTargets).mem = s.mem := by
  unfold State.bootTargets
  split
  · rfl
  · exact foldl_mem (fun _ _ => by split <;> rfl) _ _

/-! ### Vector engine -/

@[simp] theorem chainKeep_mem (n g q r j) : (s.chainKeep n g q r j).mem = s.mem := rfl

/-! ### Matrix engine -/

@[simp] theorem failMatrix_mem (n r f) : (s.failMatrix n r f).mem = s.mem := by
  unfold State.failMatrix
  split <;> simp

@[simp] theorem takeJob_mem (n r mode bs ps) : (s.takeJob n r mode bs ps).mem = s.mem := rfl
@[simp] theorem matmulOp_mem (n r c) : (matmulOp n r c s).mem = s.mem := by unfold matmulOp; (repeat' split) <;> simp

@[simp] theorem matrixSettle_mem (n) : (s.matrixSettle n).mem = s.mem :=
  foldl_mem (fun _ _ => by simp) _ _

@[simp] theorem noteIdle_mem : (s.noteIdle).mem = s.mem := foldl_mem (fun _ _ => by (repeat' split) <;> simp) _ _

/-! ### Transfer engine and thread unit -/

@[simp] theorem threadStart_mem (core opcode) : (threadStart core opcode s).mem = s.mem := by
  simp only [threadStart]
  (repeat' split) <;> simp

@[simp] theorem setThreadJob_mem (n j) : (s.setThreadJob n j).mem = s.mem := rfl

@[simp] theorem threadEnd_mem (n j) : (s.threadEnd n j).mem = s.mem := by
  unfold State.threadEnd
  (repeat' split) <;> simp

@[simp] theorem threadFault_mem (n j f) : (s.threadFault n j f).mem = s.mem := by
  unfold State.threadFault
  split <;> simp

@[simp] theorem entryCounted_mem (n) : (s.entryCounted n).mem = s.mem := rfl

/-! ### Base dies -/

@[simp] theorem dropWorkOf_mem (g q r) : (s.dropWorkOf g q r).mem = s.mem := by unfold State.dropWorkOf; split <;> rfl
@[simp] theorem markFault_mem (g q) : (s.markFault g q).mem = s.mem := by unfold State.markFault; split <;> rfl
@[simp] theorem updateSkips_mem (d unit f) : (s.updateSkips d unit f).mem = s.mem := by simp [State.updateSkips]

@[simp] theorem failActive_mem (g q f) : (s.failActive g q f).mem = s.mem := by
  unfold State.failActive
  (repeat' split) <;> simp

@[simp] theorem failIssuer_mem (stack issuer f) : (s.failIssuer stack issuer f).mem = s.mem := by
  unfold State.failIssuer
  (repeat' split) <;> simp

@[simp] theorem uncorrectable_mem (unit issuer) : (s.uncorrectable unit issuer).mem = s.mem := by
  simp [State.uncorrectable]

@[simp] theorem unitMoved_mem (unit g) : (s.unitMoved unit g).mem = s.mem := rfl
@[simp] theorem served_mem (r unit write issuer data) : (s.served r unit write issuer data).mem = s.mem := rfl

/-! ### Jobs -/

@[simp] theorem startCluster_mem (m g) : (s.startCluster m g).mem = s.mem := by
  simp only [State.startCluster]
  split <;> simp

@[simp] theorem startFtq_mem (m) : (s.startFtq m).mem = s.mem :=
  foldl_mem (fun _ _ => by simp) _ _

@[simp] theorem startHost_mem (m h) : (s.startHost m h).mem = s.mem := by unfold State.startHost; split <;> rfl
@[simp] theorem checkPort_mem (p) : (s.checkPort p).mem = s.mem := by simp only [State.checkPort]; split <;> simp
@[simp] theorem measureJob_mem (m) : (s.measureJob m).mem = s.mem := rfl

@[simp] theorem writeManifest_mem (m) : (s.writeManifest m).2.mem = s.mem := by
  unfold State.writeManifest
  split <;> rfl

@[simp] theorem dropJobTraffic_mem : (s.dropJobTraffic).mem = s.mem := rfl
@[simp] theorem endEnding_mem : (s.endEnding).mem = s.mem := by unfold State.endEnding; split <;> rfl

/-! ### Security -/

@[simp] theorem writeFwImage_mem (img) : (s.writeFwImage img).2.mem = s.mem := by
  unfold State.writeFwImage
  split <;> rfl

@[simp] theorem setFlashNum_mem (i sub v) : (s.setFlashNum i sub v).mem = s.mem := rfl
@[simp] theorem setFlashBytes_mem (i sub b) : (s.setFlashBytes i sub b).mem = s.mem := rfl

@[simp] theorem writeCommitSvn_mem (v) : (s.writeCommitSvn v).2.mem = s.mem := by
  unfold State.writeCommitSvn
  (repeat' split) <;> simp

@[simp] theorem writeMeasure_mem (b) : (s.writeMeasure b).2.mem = s.mem := by
  simp only [State.writeMeasure]
  split <;> simp

@[simp] theorem writeQuoteRequest_mem (nonce) : (s.writeQuoteRequest nonce).2.mem = s.mem := by
  unfold State.writeQuoteRequest
  split <;> rfl

@[simp] theorem newChallenge_mem (src) : (s.newChallenge src).2.mem = s.mem := rfl
@[simp] theorem useChallenge_mem (src) : (s.useChallenge src).mem = s.mem := rfl
@[simp] theorem openSession_mem (src b) : (s.openSession src b).mem = s.mem := rfl

@[simp] theorem writeSessionOpen_mem (src b) : (s.writeSessionOpen src b).2.mem = s.mem := by
  simp only [State.writeSessionOpen]
  (repeat' split) <;> simp

@[simp] theorem closeSession_mem (n) : (s.closeSession n).mem = s.mem := rfl

@[simp] theorem writeOwnerKeys_mem (b) : (s.writeOwnerKeys b).2.mem = s.mem := by
  unfold State.writeOwnerKeys
  split <;> simp

@[simp] theorem writeMacsecKeyex_mem (src b) : (s.writeMacsecKeyex src b).2.mem = s.mem := by
  simp only [State.writeMacsecKeyex]
  (repeat' split) <;> simp

@[simp] theorem eraseKeys_mem : (s.eraseKeys).mem = s.mem := rfl

/-! ### Objects -/

@[simp] theorem snapUnit_mem (u) : (s.snapUnit u).mem = s.mem := by unfold State.snapUnit; split <;> simp

@[simp] theorem counterSnapshot_mem : (s.counterSnapshot).mem = s.mem := by
  simp only [State.counterSnapshot]
  split <;> simp

@[simp] theorem beforeRead_mem (src i sub) : (s.beforeRead src i sub).mem = s.mem := by
  unfold State.beforeRead
  (repeat' split) <;> simp

@[simp] theorem writeFenceRequest_mem (v) : (s.writeFenceRequest v).2.mem = s.mem := by
  unfold State.writeFenceRequest
  split <;> simp

@[simp] theorem writeFenceClear_mem (v) : (s.writeFenceClear v).2.mem = s.mem := by
  unfold State.writeFenceClear
  (repeat' split) <;> simp

@[simp] theorem writeRetire_mem (v) : (s.writeRetire v).2.mem = s.mem := by
  unfold State.writeRetire
  (repeat' split) <;> simp

@[simp] theorem writeSessionClose_mem (w) : (s.writeSessionClose w).2.mem = s.mem := by
  unfold State.writeSessionClose
  (repeat' split) <;> simp

@[simp] theorem noteSubs_mem : (s.noteSubs).mem = s.mem := rfl

/-! ### Breop operations -/

@[simp] theorem noAfter_mem (x1 x2) : (noAfter x1 x2 s).mem = s.mem := rfl
@[simp] theorem doRead_mem (r) : (s.doRead r).2.2.mem = s.mem := by simp only [State.doRead]; (repeat' split) <;> simp

@[simp] theorem doBlockRead_mem (r) : (s.doBlockRead r).2.2.mem = s.mem := by
  simp only [State.doBlockRead]
  (repeat' split) <;> simp

@[simp] theorem dropStaging_mem (o) : (s.dropStaging o).mem = s.mem := rfl

@[simp] theorem doSubscribe_mem (r) : (s.doSubscribe r).2.2.mem = s.mem := by
  simp only [State.doSubscribe]
  (repeat' split) <;> simp

@[simp] theorem doCancel_mem (r) : (s.doCancel r).2.2.mem = s.mem := by
  simp only [State.doCancel]
  (repeat' split) <;> simp

@[simp] theorem notify_mem (i x o v) : (s.notify i x o v).mem = s.mem := by simp [State.notify]

/-! ### Registers -/

@[simp] theorem tickets8_mem (u v) : (s.tickets8 u v).mem = s.mem := by
  simp only [State.tickets8]
  (repeat' split) <;> simp

@[simp] theorem egressSeed_mem (u v) : (s.egressSeed u v).mem = s.mem := by
  simp only [State.egressSeed]
  (repeat' split) <;> simp

@[simp] theorem trellisSeed_mem (d v) : (s.trellisSeed d v).mem = s.mem := rfl

@[simp] theorem clusterWrite_mem (g u off v low) : (s.clusterWrite g u off v low).mem = s.mem := by
  simp only [State.clusterWrite]
  (repeat' split) <;> simp

@[simp] theorem dieWrite_mem (d u off v low) : (s.dieWrite d u off v low).mem = s.mem := by
  simp only [State.dieWrite]
  (repeat' split) <;> simp

@[simp] theorem linkWrite_mem (l u off v low) : (s.linkWrite l u off v low).mem = s.mem := by
  simp only [State.linkWrite]
  (repeat' split) <;> simp

@[simp] theorem regWordWrite_mem (u off v low) : (s.regWordWrite u off v low).mem = s.mem := by
  simp only [State.regWordWrite]
  (repeat' split) <;> simp

@[simp] theorem regWrite_mem (a n v) : (s.regWrite a n v).mem = s.mem := by unfold State.regWrite; split <;> simp

/-! ### Sequencers -/

@[simp] theorem seqFault_mem (g cause arg2) : (s.seqFault g cause arg2).mem = s.mem := by simp [State.seqFault]
@[simp] theorem seqReject_mem (g) : (s.seqReject g).mem = s.mem := by simp [State.seqReject]
@[simp] theorem seqFailAccess_mem (g f) : (s.seqFailAccess g f).mem = s.mem := by simp [State.seqFailAccess]
@[simp] theorem seqGoto_mem (g target) : (s.seqGoto g target).mem = s.mem := by unfold State.seqGoto; split <;> simp
@[simp] theorem seqNext_mem (g) : (s.seqNext g).mem = s.mem := by simp [State.seqNext]
@[simp] theorem seqSet_mem (g r v) : (s.seqSet g r v).mem = s.mem := by simp [State.seqSet]
@[simp] theorem seqWait_mem (g st) : (s.seqWait g st).mem = s.mem := rfl
@[simp] theorem seqAlu_mem (f i g) : (seqAlu f i g s).mem = s.mem := by simp [seqAlu]
@[simp] theorem seqImm_mem (f i g) : (seqImm f i g s).mem = s.mem := by simp [seqImm]

/-! ### The crystal cycle -/

@[simp] theorem cycleDue_mem : (s.cycleDue).mem = s.mem := by simp [State.cycleDue]
@[simp] theorem crystalCycle_mem : (crystalCycle s).mem = s.mem := by unfold crystalCycle; split <;> simp
end

end Sys2Proof.Machine
end

section
/-! PROOFS. MemoryWrites: the operations of the model that write memory keep its canonical form. -/

namespace Sys2Proof.Machine

/-! The proofs of this part are many: elaborated one after another they need far less memory than side by side. -/

set_option Elab.async false

theorem foldl_wf {α : Type} {f : State → α → State} (hf : ∀ s x, s.mem.wf = true → (f s x).mem.wf = true) (xs : List α)
    {s : State} (h : s.mem.wf = true) : (xs.foldl f s).mem.wf = true := by
  induction xs generalizing s with
  | nil => exact h
  | cons x xs ih => exact ih (hf _ _ h)

theorem iterate_wf {f : State → State} (hf : ∀ s, s.mem.wf = true → (f s).mem.wf = true) (n : Nat) {s : State}
    (h : s.mem.wf = true) : (iterate f n s).mem.wf = true := by
  induction n generalizing s with
  | zero => exact h
  | succ n ih => exact ih (hf _ h)

/-- A fold of writes of memory, whatever addresses and bytes the elements give. -/
theorem foldl_writeMem_wf {α : Type} (addr : α → Nat) (bytes : α → List Byte) (xs : List α) {s : State}
    (h : s.mem.wf = true) : (xs.foldl (fun s x => s.writeMem (addr x) (bytes x)) s).mem.wf = true :=
  foldl_wf (fun _ _ h => writeMem_wf _ _ _ h) xs h

section
variable {s : State}

/-! ### Named operations -/

@[simp] theorem wf_writeMem {a bs} (hs : s.mem.wf = true) : (s.writeMem a bs).mem.wf = true := writeMem_wf _ _ _ hs

theorem writeChecked_wf {who a bs t} (h : s.writeChecked who a bs = .ok t) (hs : s.mem.wf = true) :
    t.mem.wf = true := by
  obtain ⟨-, -, rfl⟩ := writeChecked_ok _ _ _ _ _ h
  exact writeMem_wf _ _ _ hs

/-! ### Harrow -/

@[simp] theorem writeParts_wf {ps bs} (hs : s.mem.wf = true) : (s.writeParts ps bs).mem.wf = true := by
  induction ps generalizing s bs with
  | nil => exact hs
  | cons p ps ih => exact ih (writeMem_wf _ _ _ hs)

@[simp] theorem pieceDone_wf {g j p rest} (hs : s.mem.wf = true) : (s.pieceDone g j p rest).mem.wf = true := by
  unfold State.pieceDone
  (repeat' split) <;> simp [hs]

/-! ### Rake and Cloche -/

theorem writeOut_wf {who a bs t} (h : s.writeOut who a bs = .ok t) (hs : s.mem.wf = true) : t.mem.wf = true :=
  writeChecked_wf h hs

theorem writeRow_wf {g c td who rec pos t} (h : s.writeRow g c td who rec pos = .ok t)
    (hs : s.mem.wf = true) : t.mem.wf = true := by
  unfold State.writeRow at h
  split at h
  · cases h
  · cases h
    simpa using writeOut_wf ‹_› hs

theorem writeRanges_wf {who rs bs t} (h : s.writeRanges who rs bs = .ok t) (hs : s.mem.wf = true) :
    t.mem.wf = true := by
  induction rs generalizing s bs with
  | nil => cases h; exact hs
  | cons r rs ih =>
    rw [State.writeRanges] at h
    split at h
    · cases h
    · exact ih h (writeChecked_wf ‹_› hs)

@[simp] theorem giveRow_wf {g c td j row rec counts ps} (hs : s.mem.wf = true) :
    (s.giveRow g c td j row rec counts ps).2.mem.wf = true := by
  induction ps generalizing s j counts with
  | nil => exact hs
  | cons p ps ih =>
    rw [State.giveRow]
    split
    · exact hs
    · split
      · split
        · exact ih (writeRanges_wf ‹_› hs)
        · exact hs
      · split
        · exact ih (writeRow_wf ‹_› hs)
        · exact hs

@[simp] theorem takeRow_wf {g c td j} (hs : s.mem.wf = true) : (s.takeRow g c td j).2.mem.wf = true := by
  simp only [State.takeRow]
  split
  · exact hs
  · split
    · split
      · split <;> simp [hs]
      · dsimp only
        split <;> simp [hs]
    · split
      · simp [hs]
      · split
        · rename_i hx
          have hl := congrArg (·.2.mem) hx
          simp only [rowLookup_mem] at hl
          exact giveRow_wf (hl ▸ hs)
        · rename_i hx
          have hl := congrArg (·.2.mem) hx
          simp only [rowLookup_mem] at hl
          exact hl ▸ hs

@[simp] theorem takeRows_wf {g c td n j} (hs : s.mem.wf = true) : (s.takeRows g c td n j).2.mem.wf = true := by
  induction n generalizing s j with
  | zero => exact hs
  | succ n ih =>
    rw [State.takeRows]
    split
    · exact hs
    · exact ih (takeRow_wf hs)

@[simp] theorem gatherRun_wf {g r} (hs : s.mem.wf = true) : (s.gatherRun g r).mem.wf = true := by
  simp only [State.gatherRun]
  (repeat' split) <;> simp [hs]

@[simp] theorem rakeOp_wf {cluster opcode} (hs : s.mem.wf = true) : (rakeOp cluster opcode s).mem.wf = true := by
  unfold rakeOp
  (repeat' split) <;> simp [hs]

@[simp] theorem itemArrived_wf {g j i rec} (hs : s.mem.wf = true) : (s.itemArrived g j i rec).mem.wf = true := by
  simp only [State.itemArrived]
  (repeat' split) <;> simp [hs]

@[simp] theorem issueItem_wf {g j i} (hs : s.mem.wf = true) : (s.issueItem g j i).mem.wf = true := by
  simp only [State.issueItem]
  (repeat' split) <;> try simp [hs]
  simp [askRow_mem ‹_›, hs]

@[simp] theorem stagedWrite_wf {g x r who rec} (hs : s.mem.wf = true) :
    (s.stagedWrite g x r who rec).mem.wf = true := by
  simp only [State.stagedWrite]
  (repeat' split) <;> try simp [hs]
  exact writeRow_wf ‹_› hs

@[simp] theorem refetchRow_wf {g x r} (hs : s.mem.wf = true) : (s.refetchRow g x r).mem.wf = true := by
  simp only [State.refetchRow]
  (repeat' split) <;> try simp [hs]
  simp [askRow_mem ‹_›, hs]

@[simp] theorem closeBag_wf {g c td j n b} (hs : s.mem.wf = true) : (s.closeBag g c td j n b).mem.wf = true := by
  have hb : (b.parts.foldl (fun s p => if p.1 / 16 = s.devNumber then s.addSlots (fin12 (p.1 % 16)) 1 else s) s).mem.wf = true :=
    foldl_wf (fun _ _ hs => by split <;> simp [hs]) _ hs
  simp only [State.closeBag]
  split
  · simp [hb]
  · simp [writeOut_wf ‹_› hb]

/-! ### Sprinkler -/

@[simp] theorem writeLoad_wf {addr gathers scatters} (hs : s.mem.wf = true) :
    (s.writeLoad addr gathers scatters).mem.wf = true := by
  unfold State.writeLoad
  split
  · exact writeChecked_wf ‹_› hs
  · simp [hs]

@[simp] theorem writeLoads_wf {t td} (hs : s.mem.wf = true) : (s.writeLoads t td).mem.wf = true := by
  simp only [State.writeLoads]
  exact foldl_wf (fun _ _ hs => writeLoad_wf hs) _ (by simp [hs])

/-! ### Update units -/

theorem updWrite_wf {d a bs t} (h : s.updWrite d a bs = .ok t) (hs : s.mem.wf = true) : t.mem.wf = true :=
  writeChecked_wf h hs

@[simp] theorem deliverGrad_wf {gi first step v} (hs : s.mem.wf = true) :
    (s.deliverGrad gi first step v).mem.wf = true := by
  simp only [State.deliverGrad]
  split
  · simp [hs]
  · refine foldl_wf (fun _ _ hs => by simp [hs]) _ ?_
    split
    · exact updWrite_wf ‹_› (by simp [hs])
    · exact foldl_wf (fun _ _ hs => by simp [hs]) _ (by simp [hs])

@[simp] theorem writeEverywhere_wf {d w} (hs : s.mem.wf = true) : (s.writeEverywhere d w).mem.wf = true := by
  unfold State.writeEverywhere
  refine foldl_wf (fun _ _ hs => by simp [hs]) _ ?_
  split
  · exact updWrite_wf ‹_› hs
  · simp [hs]

@[simp] theorem sendReplicas_wf {d} (hs : s.mem.wf = true) : (s.sendReplicas d).mem.wf = true := by
  refine foldl_wf (fun s x hs => ?_) _ hs
  split
  · exact hs
  · exact foldl_wf (fun _ _ hs => writeEverywhere_wf hs) _ hs

@[simp] theorem commitStack_wf {d k} (hs : s.mem.wf = true) : (s.commitStack d k).mem.wf = true := by
  simp only [State.commitStack, modStack_mem]
  refine foldl_wf (fun s x hs => ?_) _ hs
  (repeat' split) <;> simp [hs]
  exact writeChecked_wf ‹_› (by simp [hs])

@[simp] theorem commitTake_wf {d} (hs : s.mem.wf = true) : (s.commitTake d).mem.wf = true := by
  simp only [State.commitTake, settleCommits_mem]
  exact sendReplicas_wf (foldl_wf (fun _ _ hs => commitStack_wf hs) _ (by simp [hs]))

@[simp] theorem commitRerun_wf {d} (hs : s.mem.wf = true) : (s.commitRerun d).mem.wf = true := by
  have hc := foldl_wf (f := fun s (p : Nat × GroupDesc) => if p.2.valid then s.clearColpart d p.2 else s)
    (fun _ _ hs => by split <;> simp [hs]) s.job.groups hs
  simp only [State.commitRerun]
  split
  · exact commitTake_wf hc
  · exact hc

@[simp] theorem commitDecide_wf {d vote clip} (hs : s.mem.wf = true) : (s.commitDecide d vote clip).mem.wf
    = true := by
  simp only [State.commitDecide]
  (repeat' split) <;> simp [hs]

@[simp] theorem applyShadow_wf {d} (hs : s.mem.wf = true) : (s.applyShadow d).mem.wf = true :=
  foldl_wf (fun _ _ hs => by (repeat' split) <;> simp [hs]) _ hs

@[simp] theorem stepApply_wf {d c} (hs : s.mem.wf = true) : (s.stepApply d c).mem.wf = true := by
  simp only [State.stepApply]
  (repeat' split) <;> simp [hs]

@[simp] theorem stepWaited_wf (hs : s.mem.wf = true) : (s.stepWaited).mem.wf = true :=
  foldl_wf (fun _ _ hs => by (repeat' split) <;> simp [hs]) _ hs

@[simp] theorem stepAdvance_wf {d ended} (hs : s.mem.wf = true) : (s.stepAdvance d ended).mem.wf = true := by
  unfold State.stepAdvance
  (repeat' split) <;> simp [hs]

@[simp] theorem combine_wf {p} (hs : s.mem.wf = true) : (s.combine p).mem.wf = true := by
  simp only [State.combine]
  (repeat' split) <;> simp_all

/-! ### Completion and advance -/

@[simp] theorem endWindows_wf {n} (hs : s.mem.wf = true) : (s.endWindows n).mem.wf = true :=
  foldl_wf (fun _ _ hs => by (repeat' split) <;> simp [hs]) _ hs

@[simp] theorem enterSeason_wf {season} (hs : s.mem.wf = true) : (s.enterSeason season).mem.wf = true := by
  simp [State.enterSeason, hs]

@[simp] theorem settleSeason_wf (hs : s.mem.wf = true) : (s.settleSeason).mem.wf = true :=
  foldl_wf (fun _ _ hs => by simp [hs]) _ hs

/-! ### Host ports -/

theorem fillSlot_wf {h q bytes t} (ht : s.fillSlot h q bytes = .ok t) (hs : s.mem.wf = true) : t.mem.wf = true := by
  simp only [State.fillSlot] at ht
  split at ht
  · cases ht
  · exact writeChecked_wf ht (writeChecked_wf ‹_› hs)

@[simp] theorem sendIn_wf {h i q psn ends bytes} (hs : s.mem.wf = true) :
    (s.sendIn h i q psn ends bytes).mem.wf = true := by
  simp only [State.sendIn]
  (repeat' split) <;> simp [hs]
  all_goals exact fillSlot_wf ‹_› hs

@[simp] theorem writeIn_wf {h i q psn a left b} (hs : s.mem.wf = true) :
    (s.writeIn h i q psn a left b).mem.wf = true := by
  simp only [State.writeIn]
  split
  · simp [hs]
  · simp [writeChecked_wf ‹_› hs]

@[simp] theorem writeStart_wf {h i q psn rkey va n b} (hs : s.mem.wf = true) :
    (s.writeStart h i q psn rkey va n b).mem.wf = true := by
  unfold State.writeStart
  (repeat' split) <;> simp [hs]

/-! ### Ingest engines -/

@[simp] theorem ingestWrite_wf {i who a bs} (hs : s.mem.wf = true) : (s.ingestWrite i who a bs).mem.wf = true := by
  unfold State.ingestWrite
  split
  · exact writeChecked_wf ‹_› hs
  · simp [hs]

theorem foldl_ingestWrite_wf {i who} (ps : List (Nat × List Byte)) (hs : s.mem.wf = true) :
    (ps.foldl (fun s p => s.ingestWrite i who p.1 p.2) s).mem.wf = true := foldl_wf (fun _ _ hs => ingestWrite_wf hs) _ hs

@[simp] theorem writeStatus_wf {i} (hs : s.mem.wf = true) : (s.writeStatus i).mem.wf = true := by
  simp only [State.writeStatus]
  (repeat' split) <;> simp [hs]

@[simp] theorem shardFault_wf {i n offset cause} (hs : s.mem.wf = true) :
    (s.shardFault i n offset cause).mem.wf = true := by
  simp [State.shardFault, hs]

@[simp] theorem checkShard_wf {i c n stream} (hs : s.mem.wf = true) : (s.checkShard i c n stream).mem.wf =
    true := by
  simp only [State.checkShard]
  (repeat' split) <;> simp [hs]

@[simp] theorem padAlone_wf {i c ps total} (hs : s.mem.wf = true) : (s.padAlone i c ps total).mem.wf = true := by
  unfold State.padAlone
  (repeat' split) <;> simp [hs]

/-! ### Stacks and arbiters -/

@[simp] theorem settleUnit_wf {unit} (hs : s.mem.wf = true) : (s.settleUnit unit).mem.wf = true := by
  unfold State.settleUnit
  (repeat' split) <;> simp [hs]

@[simp] theorem afterScrub_wf {addr corrected rewritten} (hs : s.mem.wf = true) :
    (s.afterScrub addr corrected rewritten).mem.wf = true := by
  unfold State.afterScrub
  (repeat' split) <;> simp [hs]

/-! ### Transport -/

@[simp] theorem rakeAnswer_wf {g tag ans} (hs : s.mem.wf = true) : (s.rakeAnswer g tag ans).mem.wf = true := by
  unfold State.rakeAnswer
  (repeat' split) <;> simp [hs]

theorem getD_sendAbove_mem (root p) : ((s.sendAbove root p).getD s).mem = s.mem := by
  cases h : s.sendAbove root p with
  | none => rfl
  | some t => exact sendAbove_mem h

@[simp] theorem sourceFails_wf {p} (hs : s.mem.wf = true) : (s.sourceFails p).mem.wf = true := by
  simp only [State.sourceFails]
  split
  · split <;> simp [hs]
  · simp [hs]
  · split
    · simp [hs]
    · split
      · simp [sendAbove_mem ‹_›, hs]
      · split <;> simp [hs]
  · simp [hs]
  · rw [getD_sendAbove_mem]
    exact hs
  · simp [hs]
  · exact hs

@[simp] theorem settleAcks_wf (hs : s.mem.wf = true) : (s.settleAcks).mem.wf = true := by
  simp only [State.settleAcks, settleRecovery_mem]
  refine stepWaited_wf ?_
  simp only [settleCommits_mem, settleGrads_mem]
  exact foldl_wf (fun _ _ hs => by simp [hs]) _ hs

@[simp] theorem retransmit_wf {f} (hs : s.mem.wf = true) : (s.retransmit f).mem.wf = true := by
  refine foldl_wf (fun s p hs => ?_) _ hs
  split
  · simp [queueEntry_mem ‹_›, hs]
  · simp [hs]

/-! ### Fabric links -/

@[simp] theorem returnPacket_wf {die e} (hs : s.mem.wf = true) : (s.returnPacket die e).mem.wf = true := by
  simp only [State.returnPacket]
  (repeat' split) <;> simp [hs]

@[simp] theorem reroute_wf {port} (hs : s.mem.wf = true) : (s.reroute port).mem.wf = true := by
  refine foldl_wf (fun s e hs => ?_) _ hs
  dsimp only
  split
  · rw [queueEntry_mem ‹_›]; exact hs
  · exact returnPacket_wf hs

@[simp] theorem portDown_wf {port code} (hs : s.mem.wf = true) : (s.portDown port code).mem.wf = true := by
  simp only [State.portDown]
  (repeat' split) <;> simp [hs]

@[simp] theorem keyexFail_wf {port step} (hs : s.mem.wf = true) : (s.keyexFail port step).mem.wf = true := by
  simp [State.keyexFail, hs]

@[simp] theorem takeCert_wf {port bytes} (hs : s.mem.wf = true) : (s.takeCert port bytes).mem.wf = true := by
  simp only [State.takeCert]
  (repeat' split) <;> simp [hs]

@[simp] theorem takeSig_wf {port bytes} (hs : s.mem.wf = true) : (s.takeSig port bytes).mem.wf = true := by
  simp only [State.takeSig]
  (repeat' split) <;> simp [hs]

@[simp] theorem transit_wf {port cls p} (hs : s.mem.wf = true) : (s.transit port cls p).mem.wf = true := by
  simp only [State.transit]
  split
  · simp [queueEntry_mem ‹_›, hs]
  · simp [hs]

@[simp] theorem packetIn_wf {port cls p} (hs : s.mem.wf = true) : (s.packetIn port cls p).mem.wf = true := by
  unfold State.packetIn
  (repeat' split) <;> simp [hs]

@[simp] theorem flitIn_wf {port f} (hs : s.mem.wf = true) : (s.flitIn port f).mem.wf = true := by
  simp only [State.flitIn]
  (repeat' split) <;> simp [hs]

@[simp] theorem goodFlit_wf {port f fixed} (hs : s.mem.wf = true) : (s.goodFlit port f fixed).mem.wf = true := by
  simp only [State.goodFlit]
  (repeat' split) <;> simp [hs]

/-! ### Beds -/

@[simp] theorem freshStackOf_wf {k} (hs : s.mem.wf = true) : (s.freshStackOf k).mem.wf = true := hs

@[simp] theorem freshUnits_wf {b} (hs : s.mem.wf = true) : (s.freshUnits b).mem.wf = true := by
  unfold State.freshUnits
  (repeat' split) <;> simp [hs]

@[simp] theorem portOff_wf {p} (hs : s.mem.wf = true) : (s.portOff p).mem.wf = true := by simp [State.portOff, hs]

@[simp] theorem dropUnits_wf {b} (hs : s.mem.wf = true) : (s.dropUnits b).mem.wf = true := by
  unfold State.dropUnits
  (repeat' split) <;> simp [hs]

@[simp] theorem stopUnits_wf {b} (hs : s.mem.wf = true) : (s.stopUnits b).mem.wf = true := by
  unfold State.stopUnits
  (repeat' split) <;> simp [hs]

@[simp] theorem loseUnits_wf {b} (hs : s.mem.wf = true) : (s.loseUnits b).mem.wf = true := by
  unfold State.loseUnits
  split
  · exact foldl_wf (fun _ _ hs => by simpa using hs) _ (by simpa using Memory.lose_wf _ _ hs)
  · simpa using Memory.lose_wf _ _ hs
  · exact hs

@[simp] theorem resetCluster_wf {g} (hs : s.mem.wf = true) : (s.resetCluster g).mem.wf = true := by
  simp only [State.resetCluster, setMem_mem]
  refine Memory.zero_wf _ _ ?_
  simp only [modHarrow_mem, modCluster_mem]
  exact foldl_wf (fun _ _ hs => by simpa using hs) _ (by simp [hs])

@[simp] theorem writeClusterReset_wf {c} (hs : s.mem.wf = true) : (s.writeClusterReset c).2.mem.wf = true := by
  simp only [State.writeClusterReset]
  (repeat' split) <;> simp [hs]

/-! ### The always-on domain -/

@[simp] theorem deviceDown_wf : s.deviceDown.mem.wf = true := by rfl

@[simp] theorem shutdown_wf {c} (hs : s.mem.wf = true) : (s.shutdown c).mem.wf = true := by
  unfold State.shutdown
  (repeat' split) <;> simp [hs]

@[simp] theorem inputTrip_wf {c code mv f} (hs : s.mem.wf = true) : (s.inputTrip c code mv f).mem.wf = true := by
  simp [State.inputTrip, hs]

@[simp] theorem orderlyRestart_wf : (s.orderlyRestart).mem.wf = true := by simp [State.orderlyRestart]

@[simp] theorem unclock_wf {p} (hs : s.mem.wf = true) : (s.unclock p).mem.wf = true := by
  unfold State.unclock
  (repeat' split) <;> simp [hs]

/-! ### Vector engine -/

@[simp] theorem chainWrite_wf {n r c ps out} (hs : s.mem.wf = true) : (s.chainWrite n r c ps out).1.mem.wf
    = true := by
  simp only [State.chainWrite, modVec_mem]
  split
  · refine writeMem_wf _ _ _ (foldl_wf (fun _ _ hs => ?_) _ hs)
    split <;> split <;> simp [hs]
  · refine foldl_wf (fun _ _ hs => ?_) _ hs
    split <;> split <;> simp [hs]

@[simp] theorem chainTile_wf {n g q r c ps j t} (hs : s.mem.wf = true) :
    (s.chainTile n g q r c ps j t).mem.wf = true := by
  unfold State.chainTile
  (repeat' split) <;> simp [hs]

/-! ### Matrix engine -/

@[simp] theorem writeAll_wf {ws} (hs : s.mem.wf = true) : (s.writeAll ws).mem.wf = true :=
  foldl_wf (fun _ _ hs => by simp [hs]) _ hs

@[simp] theorem passStart_wf {n j p} (hs : s.mem.wf = true) : (s.passStart n j p).mem.wf = true := by
  unfold State.passStart
  (repeat' split) <;> simp [hs]

@[simp] theorem storeTile_wf {n k t} (hs : s.mem.wf = true) : (s.storeTile n k t).mem.wf = true := by
  simp only [State.storeTile]
  exact foldl_writeMem_wf _ _ _ hs

@[simp] theorem convertRun_wf {n r c ps} (hs : s.mem.wf = true) : (s.convertRun n r c ps).mem.wf = true := by
  simp only [State.convertRun, finishDesc_mem, modTbuf_mem]
  refine foldl_wf (fun _ _ hs => ?_) _ hs
  split <;> simp [hs]

/-! ### Transfer engine and thread unit -/

theorem copyRow_wf {n c r t} (h : s.copyRow n c r = .ok t) (hs : s.mem.wf = true) : t.mem.wf = true := by
  simp only [State.copyRow] at h
  (repeat' split at h) <;> cases h <;> simp [hs]

@[simp] theorem copyRows_wf {n c k r} (hs : s.mem.wf = true) : (State.copyRows n c k r s).1.mem.wf = true := by
  induction k generalizing s r with
  | zero => exact hs
  | succ k ih =>
    rw [State.copyRows]
    split
    · exact hs
    · exact ih (copyRow_wf ‹_› hs)

@[simp] theorem transferOp_wf {core opcode} (hs : s.mem.wf = true) : (transferOp core opcode s).mem.wf = true := by
  simp only [transferOp]
  split
  · exact hs
  · rename_i r _
    split
    · simp [hs]
    · have hc := copyRows_wf (n := core) (c := copyCtl r.q.desc) (k := (copyCtl r.q.desc).rows) (r := 0) hs
      split
      · rename_i hx
        rw [hx] at hc
        simp [hc]
      · rename_i hx
        rw [hx] at hc
        simp [hc]

@[simp] theorem nearMove_wf {c e} (hs : s.mem.wf = true) : (s.nearMove c e).mem.wf = true := by
  unfold State.nearMove
  (repeat' split) <;> simp [hs]

@[simp] theorem threadIssue_wf {n j t i} (hs : s.mem.wf = true) : (s.threadIssue n j t i).mem.wf = true := by
  simp only [State.threadIssue]
  (repeat' split) <;> simp [hs]

/-! ### Jobs -/

@[simp] theorem changeKey_wf {key} (hs : s.mem.wf = true) : (s.changeKey key).mem.wf = true := by
  have hk : ∀ (ks : List (Fin 12)) (m : Memory), m.wf = true →
      (ks.foldl (fun m k => m.setKey k (key.getD s.hbm[k].bedKey)) m).wf = true := by
    intro ks
    induction ks with
    | nil => exact fun _ hs => hs
    | cons k ks ih => exact fun m hs => ih _ (m.setKey_wf k _ hs)
  exact hk _ _ hs

@[simp] theorem startJob_wf {m secret} (hs : s.mem.wf = true) : (s.startJob m secret).mem.wf = true := by
  simp only [State.startJob]
  refine foldl_wf (fun _ _ hs => by simp [hs]) _ ?_
  rw [startFtq_mem]
  refine foldl_wf (fun _ _ hs => by simp [hs]) _ (foldl_wf (fun _ _ hs => by simp [hs]) _ ?_)
  exact foldl_wf (fun _ _ hs => by simp [hs]) _ (by simp [hs])

@[simp] theorem freeCluster_wf {g} (hs : s.mem.wf = true) : (s.freeCluster g).mem.wf = true := by
  unfold State.freeCluster
  refine foldl_wf (fun _ _ hs => by simpa using hs) _ ?_
  rw [modCluster_mem]
  split
  · exact resetCluster_wf hs
  · exact hs

@[simp] theorem stopJob_wf (hs : s.mem.wf = true) : (s.stopJob).mem.wf = true := by
  simp only [State.stopJob, raiseD_mem]
  refine foldl_wf (fun _ _ hs => by simp [hs]) _ ?_
  simp only [extend_mem, modJob_mem, dropJobTraffic_mem]
  refine changeKey_wf (foldl_wf (fun _ _ hs => by simp [hs]) _ (foldl_wf (fun _ _ hs => by simp [hs]) _ ?_))
  exact foldl_wf (fun _ _ hs => freeCluster_wf hs) _ (foldl_wf (fun _ _ hs => by simp [hs]) _ hs)

@[simp] theorem endJob_wf (hs : s.mem.wf = true) : (s.endJob).2.mem.wf = true := by
  simp only [State.endJob]
  (repeat' split) <;> simp [hs]

/-! ### Security -/

@[simp] theorem unlock_wf {b} (hs : s.mem.wf = true) : (s.unlock b).mem.wf = true := by
  simp only [State.unlock, raiseD_mem, modRot_mem, extend_mem]
  exact foldl_wf (fun _ _ hs => by simp [hs]) _ (by simp [hs])

@[simp] theorem writeDebugUnlock_wf {src b} (hs : s.mem.wf = true) : (s.writeDebugUnlock src b).2.mem.wf =
    true := by
  simp only [State.writeDebugUnlock]
  (repeat' split) <;> simp_all

/-! ### Objects -/

@[simp] theorem writeJobEnd_wf {v} (hs : s.mem.wf = true) : (s.writeJobEnd v).2.mem.wf = true := by
  unfold State.writeJobEnd
  (repeat' split) <;> simp [hs]

@[simp] theorem applyNum_wf {w i sub v} (hs : s.mem.wf = true) : (s.applyNum w i sub v).2.mem.wf = true := by
  unfold State.applyNum
  split
  case h_5 => rw [setObjNum_mem, noteIdle_mem]; exact hs
  all_goals (repeat' split) <;> simp [hs]

@[simp] theorem applyBytes_wf {w i sub b} (hs : s.mem.wf = true) : (s.applyBytes w i sub b).2.mem.wf = true := by
  unfold State.applyBytes
  (repeat' split) <;> simp [hs]

@[simp] theorem writeValue_wf {w o v} (hs : s.mem.wf = true) : (s.writeValue w o v).2.mem.wf = true := by
  unfold State.writeValue
  (repeat' split) <;> simp [hs]

@[simp] theorem writeObject_wf {w i sub v} (hs : s.mem.wf = true) : (s.writeObject w i sub v).2.mem.wf = true := by
  unfold State.writeObject
  (repeat' split) <;> simp [hs]

@[simp] theorem afterWrite_wf {st i sub v} (hs : s.mem.wf = true) : (s.afterWrite st i sub v).mem.wf = true := by
  unfold State.afterWrite
  (repeat' split) <;> simp [hs]

@[simp] theorem command_wf {i sub v} (hs : s.mem.wf = true) : (s.command i sub v).mem.wf = true := by
  unfold State.command
  (repeat' split) <;> simp [hs]

/-! ### Breop operations -/

@[simp] theorem doWrite_wf {r} (hs : s.mem.wf = true) : (s.doWrite r).2.2.mem.wf = true := by
  simp only [State.doWrite]
  (repeat' split) <;> simp [hs]

@[simp] theorem afterDoWrite_wf {r st} (hs : s.mem.wf = true) : (afterDoWrite r st s).mem.wf = true := by
  simp only [afterDoWrite]
  (repeat' split) <;> simp [hs]

@[simp] theorem takeBlock_wf {w o off total final d} (hs : s.mem.wf = true) :
    (s.takeBlock w o off total final d).2.mem.wf = true := by
  unfold State.takeBlock
  (repeat' split) <;> simp [hs]

@[simp] theorem doBlockWrite_wf {r} (hs : s.mem.wf = true) : (s.doBlockWrite r).2.2.mem.wf = true := by
  simp only [State.doBlockWrite]
  (repeat' split) <;> simp [hs]

@[simp] theorem afterBlockWrite_wf {r st} (hs : s.mem.wf = true) : (afterBlockWrite r st s).mem.wf = true := by
  simp only [afterBlockWrite]
  (repeat' split) <;> simp [hs]

/-! ### Row engine -/

@[simp] theorem rowAccumulate_wf {a c ps ins slot dst} (hs : dst.mem.wf = true) :
    (s.rowAccumulate a c ps ins slot dst).mem.wf = true := by
  unfold State.rowAccumulate
  split
  · exact writeMem_wf _ _ _ hs
  · exact hs

@[simp] theorem rowRun_wf {n r c ps} (hs : s.mem.wf = true) : (s.rowRun n r c ps).1.mem.wf = true := by
  simp only [State.rowRun, modRow_mem]
  refine rowAccumulate_wf (rowAccumulate_wf ?_)
  split
  · exact writeMem_wf _ _ _ (foldl_writeMem_wf _ _ _ hs)
  · exact foldl_writeMem_wf _ _ _ hs

@[simp] theorem rowOp_wf {core opcode} (hs : s.mem.wf = true) : (rowOp core opcode s).mem.wf = true := by
  simp only [rowOp]
  (repeat' split) <;> simp [hs]

/-! ### Sequencers -/

theorem seqStore_wf {g a v t} (h : s.seqStore g a v = .ok t) (hs : s.mem.wf = true) : t.mem.wf = true := by
  unfold State.seqStore at h
  split at h
  · split at h
    · cases h
    · cases h
      simp [hs]
  · exact writeChecked_wf h hs

/-! ### Threads and the end of a bed -/

theorem remoteWrite_wf {who a bs t} (h : s.remoteWrite who a bs = .ok t) (hs : s.mem.wf = true) : t.mem.wf
    = true := by
  unfold State.remoteWrite at h
  split at h
  · split at h
    · cases h
    · cases h
      simp [hs]
  · exact writeChecked_wf h hs

theorem entryMove_wf {n c e t} (h : s.entryMove n c e = .ok t) (hs : s.mem.wf = true) : t.mem.wf = true := by
  unfold State.entryMove at h
  split at h
  · exact remoteWrite_wf h hs
  · split at h
    · cases h
    · cases h
      exact writeMem_wf _ _ _ (by simp [hs])

@[simp] theorem entryDone_wf {n j i e} (hs : s.mem.wf = true) : (s.entryDone n j i e).mem.wf = true := by
  simp only [State.entryDone]
  split
  · simp [hs]
  · simp [entryMove_wf ‹_› hs]

@[simp] theorem orphanDone_wf {n i e} (hs : s.mem.wf = true) : (s.orphanDone n i e).mem.wf = true := by
  simp only [State.orphanDone]
  split
  · exact hs
  · rename_i ht
    exact remoteWrite_wf ht hs

@[simp] theorem completeOne_wf {b n} (hs : s.mem.wf = true) : (s.completeOne b n).mem.wf = true := by
  unfold State.completeOne
  (repeat' split) <;> simp [hs]

@[simp] theorem completeOrphan_wf {n} (hs : s.mem.wf = true) : (s.completeOrphan n).mem.wf = true := by
  unfold State.completeOrphan
  (repeat' split) <;> simp [hs]

@[simp] theorem completeInto_wf {b} (hs : s.mem.wf = true) : (s.completeInto b).mem.wf = true := by
  unfold State.completeInto
  refine foldl_wf (fun s n hs => ?_) _ hs
  dsimp only
  split
  · exact hs
  · exact iterate_wf (fun _ hs => by simp [hs]) _ (iterate_wf (fun _ hs => by simp [hs]) _ hs)

@[simp] theorem completeFrom_wf {b} (hs : s.mem.wf = true) : (s.completeFrom b).mem.wf = true := by
  unfold State.completeFrom
  split
  · exact foldl_wf (fun _ _ hs => iterate_wf (fun _ hs => by simp [hs]) _ hs) _ hs
  · exact hs

/-! ### What commands share -/

theorem serve_wf {mine f after} (hf : ∀ r s, s.mem.wf = true → (f r s).2.2.mem.wf = true)
    (ha : ∀ r st s, s.mem.wf = true → (after r st s).mem.wf = true) (hs : s.mem.wf = true) :
    (s.serve mine f after).mem.wf = true := by
  unfold State.serve
  split
  · exact hs
  · dsimp only
    split
    · simp [hs]
    · split
      · simp [hs]
      · rename_i r rest _ _
        have hr := hf r ((s.settleAgent.modAgent (fun a => { a with requests := rest })).accept r) (by simp [hs])
        simp only [settleAgent_mem, noteSubs_mem]
        exact ha _ _ _ (by simpa using hr)

theorem direct_wf {w} (hw : (w s).2.mem.wf = true) (hs : s.mem.wf = true) : (s.direct w).mem.wf = true := by
  unfold State.direct
  split
  · exact hw
  · exact hs

theorem seqAligned_wf {g a k} (hk : (k a).mem.wf = true) (hs : s.mem.wf = true) :
    (seqAligned s g a k).mem.wf = true := by
  unfold seqAligned
  split
  · exact hk
  · simp [hs]

/-- A command that goes on leaves memory in its canonical form. -/
def NextWf : Out → Prop
  | .next t => t.mem.wf = true
  | _ => True

@[simp] theorem nextWf_next (t : State) : NextWf (.next t) ↔ t.mem.wf = true := Iff.rfl

theorem seqRow_wf {opc body g} (hb : ∀ i, (body i g s).mem.wf = true) (hs : s.mem.wf = true) : NextWf
    (seqRow opc body g s) := by
  rcases seqRow_cases opc body g s with h | ⟨-, h⟩ | ⟨-, -, -, h⟩ <;> rw [h]
  · exact hs
  · simp [hs]
  · exact hb _
end

end Sys2Proof.Machine
end

section
/-! PROOFS. MemoryCanonical: every command keeps the canonical form of memory. -/

namespace Sys2Proof.Machine

/-! The proofs of this part are many: elaborated one after another they need far less memory than side by side. -/

set_option Elab.async false


section
variable {s : State}

/-! ### Queues and tokens -/

@[simp] theorem execDescriptorStart_wf {cluster queue} (hs : s.mem.wf = true) : NextWf
    (execDescriptorStart cluster queue s) := by
  unfold execDescriptorStart
  (repeat' split) <;> simp [hs]

@[simp] theorem execQueueNop_wf {cluster queue} (hs : s.mem.wf = true) : NextWf (execQueueNop cluster queue s) := by
  unfold execQueueNop
  (repeat' split) <;> simp [hs]

/-! ### Seasons, launch tables and barriers -/

@[simp] theorem execTokenPost_wf {i} (hs : s.mem.wf = true) : NextWf (execTokenPost i s) := by
  simp only [execTokenPost]
  (repeat' split) <;> simp [hs]

@[simp] theorem execLaunchFire_wf {cluster} (hs : s.mem.wf = true) : NextWf (execLaunchFire cluster s) := by
  simp only [execLaunchFire]
  (repeat' split) <;> simp [hs]
  simpa [hs] using postDesc_mem ‹_› ▸ hs

@[simp] theorem execBarrierArrive_wf {i} (hs : s.mem.wf = true) : NextWf (execBarrierArrive i s) := by
  simp only [execBarrierArrive]
  (repeat' split) <;> simp [hs]

@[simp] theorem execBarrierRelease_wf {i} (hs : s.mem.wf = true) : NextWf (execBarrierRelease i s) := by
  unfold execBarrierRelease
  split
  · exact hs
  · refine foldl_wf (fun _ _ hs => by split <;> simp [hs]) _ ?_
    split
    · exact foldl_wf (fun _ _ hs => by simp [hs]) _ hs
    · exact hs

@[simp] theorem execRecoveryTimeout_wf {kind} (hs : s.mem.wf = true) : NextWf (execRecoveryTimeout kind s) := by
  unfold execRecoveryTimeout
  (repeat' split) <;> simp [hs]

/-! ### Harrow -/

@[simp] theorem execSample_wf {cluster} (hs : s.mem.wf = true) : NextWf (execSample cluster s) := by
  simp only [execSample]
  (repeat' split) <;> simp [hs]

@[simp] theorem execTopoInvalidate_wf {cluster} (hs : s.mem.wf = true) : NextWf (execTopoInvalidate cluster s) := by
  unfold execTopoInvalidate
  (repeat' split) <;> simp [hs]

@[simp] theorem execTopoFill_wf {cluster} (hs : s.mem.wf = true) : NextWf (execTopoFill cluster s) := by
  unfold execTopoFill
  (repeat' split) <;> simp [hs]

@[simp] theorem execPieceWrite_wf {cluster} (hs : s.mem.wf = true) : NextWf (execPieceWrite cluster s) := by
  simp only [execPieceWrite]
  (repeat' split) <;> simp [hs]

@[simp] theorem execRingConsumed_wf {cluster value} (hs : s.mem.wf = true) : NextWf
    (execRingConsumed cluster value s) := by
  unfold execRingConsumed
  (repeat' split) <;> simp [hs]

@[simp] theorem execSpecGatherPost_wf {cluster} (hs : s.mem.wf = true) : NextWf (execSpecGatherPost cluster s) := by
  simp only [execSpecGatherPost]
  (repeat' split) <;> simp [hs]

@[simp] theorem execSpecConfirm_wf {cluster} (hs : s.mem.wf = true) : NextWf (execSpecConfirm cluster s) := by
  unfold execSpecConfirm
  (repeat' split) <;> simp [hs]

/-! ### Rake and Cloche -/

@[simp] theorem execClocheFill_wf {cluster} (hs : s.mem.wf = true) : NextWf (execClocheFill cluster s) := by
  unfold execClocheFill
  (repeat' split) <;> simp [hs]

@[simp] theorem execClocheDecay_wf {cluster} (hs : s.mem.wf = true) : NextWf (execClocheDecay cluster s) := by
  unfold execClocheDecay
  (repeat' split) <;> simp [hs]

@[simp] theorem execGather_wf {cluster} (hs : s.mem.wf = true) : NextWf (execGather cluster s) := by
  simp [execGather, hs]

@[simp] theorem execPrefetch_wf {cluster} (hs : s.mem.wf = true) : NextWf (execPrefetch cluster s) := by
  simp [execPrefetch, hs]

@[simp] theorem execVersionCheck_wf {cluster i} (hs : s.mem.wf = true) : NextWf (execVersionCheck cluster i s) := by
  simp only [execVersionCheck]
  (repeat' split) <;> simp [hs]
  simp [askRow_mem ‹_›, hs]

@[simp] theorem execStagedRowCopy_wf {cluster i} (hs : s.mem.wf = true) : NextWf (execStagedRowCopy cluster i s) := by
  simp only [execStagedRowCopy]
  (repeat' split) <;> simp [hs, foldl_mem]

@[simp] theorem execRecordRead_wf {cluster i} (hs : s.mem.wf = true) : NextWf (execRecordRead cluster i s) := by
  simp only [execRecordRead]
  (repeat' split) <;> simp [hs]

@[simp] theorem execPool_wf {cluster} (hs : s.mem.wf = true) : NextWf (execPool cluster s) := by
  simp only [execPool]
  (repeat' split) <;> simp [hs]

@[simp] theorem execPooledMember_wf {cluster} (hs : s.mem.wf = true) : NextWf (execPooledMember cluster s) := by
  unfold execPooledMember
  (repeat' split) <;> simp [hs]

/-! ### Sprinkler -/

@[simp] theorem execScatter_wf {cluster} (hs : s.mem.wf = true) : NextWf (execScatter cluster s) := by
  simp only [execScatter]
  (repeat' split) <;> simp [hs]

@[simp] theorem execFreeWindowClose_wf {cluster} (hs : s.mem.wf = true) : NextWf
    (execFreeWindowClose cluster s) := by
  simp only [execFreeWindowClose]
  (repeat' split) <;> simp [hs]

@[simp] theorem execFlush_wf {cluster} (hs : s.mem.wf = true) : NextWf (execFlush cluster s) := by
  unfold execFlush
  (repeat' split) <;> simp [hs]

@[simp] theorem execArmOwner_wf {cluster} (hs : s.mem.wf = true) : NextWf (execArmOwner cluster s) := by
  simp only [execArmOwner]
  (repeat' split) <;> simp [hs]

@[simp] theorem execTransplantCopy_wf {i} (hs : s.mem.wf = true) : NextWf (execTransplantCopy i s) := by
  simp only [execTransplantCopy]
  split
  · exact hs
  · split
    · exact hs
    · split
      · exact hs
      · split
        · simp [hs]
        · rename_i ht
          split at ht
          · cases ht
          · simp [sendPacket_mem ht, hs]

@[simp] theorem execPartialAppend_wf {i} (hs : s.mem.wf = true) : NextWf (execPartialAppend i s) := by
  unfold execPartialAppend
  (repeat' split) <;> simp [hs]

/-! ### Update units -/

@[simp] theorem execGradSend_wf {cluster} (hs : s.mem.wf = true) : NextWf (execGradSend cluster s) := by
  simp only [execGradSend]
  (repeat' split) <;> simp [hs]

@[simp] theorem execUpdate_wf {cluster} (hs : s.mem.wf = true) : NextWf (execUpdate cluster s) := by
  simp only [execUpdate]
  (repeat' split) <;> simp [hs]

@[simp] theorem execPartialSum_wf {die} (hs : s.mem.wf = true) : NextWf (execPartialSum die s) := by
  unfold execPartialSum
  (repeat' split) <;> simp [hs]

@[simp] theorem execCommit_wf {cluster} (hs : s.mem.wf = true) : NextWf (execCommit cluster s) := by
  simp only [execCommit]
  (repeat' split) <;> simp [hs]

@[simp] theorem execRowUpdate_wf {die} (hs : s.mem.wf = true) : NextWf (execRowUpdate die s) := by
  simp only [execRowUpdate]
  (repeat' split) <;> simp [hs]

@[simp] theorem execChunkCombine_wf {i} (hs : s.mem.wf = true) : NextWf (execChunkCombine i s) := by
  unfold execChunkCombine
  (repeat' split) <;> simp [hs]

@[simp] theorem execLastStepPhases_wf (hs : s.mem.wf = true) : NextWf (execLastStepPhases s) := by
  unfold execLastStepPhases
  (repeat' split) <;> simp [hs]

/-! ### Completion and advance -/

@[simp] theorem execDescriptorComplete_wf {cluster queue} (hs : s.mem.wf = true) : NextWf
    (execDescriptorComplete cluster queue s) := by
  unfold execDescriptorComplete
  (repeat' split) <;> simp [hs]

@[simp] theorem execSeasonAdvance_wf {cluster} (hs : s.mem.wf = true) : NextWf (execSeasonAdvance cluster s) := by
  simp only [execSeasonAdvance]
  (repeat' split) <;> simp [hs]

/-! ### Boundary FIFOs -/

@[simp] theorem execFifoWrite_wf {fifo put} (hs : s.mem.wf = true) : NextWf (execFifoWrite fifo put s) := by
  unfold execFifoWrite
  (repeat' split) <;> simp [hs]

@[simp] theorem execFifoRead_wf {fifo} (hs : s.mem.wf = true) : NextWf (execFifoRead fifo s) := by
  unfold execFifoRead
  (repeat' split) <;> simp [hs]

@[simp] theorem execPointerCrossing_wf {fifo side} (hs : s.mem.wf = true) : NextWf
    (execPointerCrossing fifo side s) := by
  unfold execPointerCrossing
  (repeat' split) <;> simp [hs]

@[simp] theorem execWmWrite_wf {fifo value} (hs : s.mem.wf = true) : NextWf (execWmWrite fifo value s) := by
  simp only [execWmWrite]
  (repeat' split) <;> simp [hs]

@[simp] theorem execPfcPauseRefresh_wf {host} (hs : s.mem.wf = true) : NextWf (execPfcPauseRefresh host s) := by
  simp only [execPfcPauseRefresh]
  (repeat' split) <;> simp [hs]

/-! ### Agent -/

@[simp] theorem execMgmtFrame_wf {frame} (hs : s.mem.wf = true) : NextWf (execMgmtFrame frame s) := by
  unfold execMgmtFrame
  (repeat' split) <;> simp [hs]

@[simp] theorem execKeptResponseExpiry_wf {i} (hs : s.mem.wf = true) : NextWf (execKeptResponseExpiry i s) := by
  unfold execKeptResponseExpiry
  (repeat' split) <;> simp [hs]

@[simp] theorem execPhyInt_wf {link} (hs : s.mem.wf = true) : NextWf (execPhyInt link s) := by
  unfold execPhyInt
  (repeat' split) <;> simp [hs]

/-! ### Fences -/

@[simp] theorem execCapacityPublish_wf (hs : s.mem.wf = true) : NextWf (execCapacityPublish s) := by
  unfold execCapacityPublish
  (repeat' split) <;> simp [hs]

@[simp] theorem execFence_wf {unit cause} (hs : s.mem.wf = true) : NextWf (execFence unit cause s) := by
  unfold execFence
  (repeat' split) <;> simp [hs]

@[simp] theorem execPersistentFenceWrite_wf (hs : s.mem.wf = true) : NextWf (execPersistentFenceWrite s) := by
  simp [execPersistentFenceWrite, hs]

@[simp] theorem execEdgeLinkRetry_wf {edge limitHit} (hs : s.mem.wf = true) : NextWf
    (execEdgeLinkRetry edge limitHit s) := by
  simp only [execEdgeLinkRetry]
  (repeat' split) <;> simp [hs]

/-! ### Host ports -/

@[simp] theorem execFrameReceive_wf {host frame} (hs : s.mem.wf = true) : NextWf
    (execFrameReceive host frame s) := by
  simp only [execFrameReceive]
  (repeat' split) <;> simp [hs]

@[simp] theorem execPfcFrame_wf {host sub prio time} (hs : s.mem.wf = true) : NextWf
    (execPfcFrame host sub prio time s) := by
  unfold execPfcFrame
  (repeat' split) <;> simp [hs]

@[simp] theorem execPfcPauseExpiry_wf {host sub prio} (hs : s.mem.wf = true) : NextWf
    (execPfcPauseExpiry host sub prio s) := by
  simp [execPfcPauseExpiry, hs]

@[simp] theorem execSend_wf {host} (hs : s.mem.wf = true) : NextWf (execSend host s) := by
  unfold execSend
  split
  · exact hs
  · have ht := nextWait_mem ‹_›
    (repeat' split) <;> simp [ht, hs]

@[simp] theorem execRdmaWrite_wf {host} (hs : s.mem.wf = true) : NextWf (execRdmaWrite host s) := by
  unfold execRdmaWrite
  split
  · exact hs
  · have ht := nextWait_mem ‹_›
    (repeat' split) <;> simp [ht, hs]

@[simp] theorem execRdmaRead_wf {host} (hs : s.mem.wf = true) : NextWf (execRdmaRead host s) := by
  unfold execRdmaRead
  split
  · exact hs
  · have ht := nextWait_mem ‹_›
    (repeat' split) <;> simp [ht, hs]

@[simp] theorem execRecvConsumed_wf {host q value} (hs : s.mem.wf = true) : NextWf
    (execRecvConsumed host q value s) := by
  unfold execRecvConsumed
  (repeat' split) <;> simp [hs]

@[simp] theorem execAssociationSwitch_wf {host sub} (hs : s.mem.wf = true) : NextWf
    (execAssociationSwitch host sub s) := by
  unfold execAssociationSwitch
  (repeat' split) <;> simp [hs]

@[simp] theorem execOldAssociationExpiry_wf {host sub} (hs : s.mem.wf = true) : NextWf
    (execOldAssociationExpiry host sub s) := by
  unfold execOldAssociationExpiry
  (repeat' split) <;> simp [hs]

@[simp] theorem execMacsecRekey_wf {host sub} (hs : s.mem.wf = true) : NextWf (execMacsecRekey host sub s) := by
  simp only [execMacsecRekey]
  (repeat' split) <;> simp [hs]

@[simp] theorem execSubPortLinkChange_wf {host sub up} (hs : s.mem.wf = true) : NextWf
    (execSubPortLinkChange host sub up s) := by
  unfold execSubPortLinkChange
  (repeat' split) <;> simp [hs]

/-! ### Ingest engines -/

@[simp] theorem execShardNotice_wf {ing} (hs : s.mem.wf = true) : NextWf (execShardNotice ing s) := by
  unfold execShardNotice
  (repeat' split) <;> simp [hs]

@[simp] theorem execShardDecode_wf {ing} (hs : s.mem.wf = true) : NextWf (execShardDecode ing s) := by
  simp only [execShardDecode]
  (repeat' split) <;> simp [hs]

@[simp] theorem execAdmitShard_wf {ing} (hs : s.mem.wf = true) : NextWf (execAdmitShard ing s) := by
  unfold execAdmitShard
  (repeat' split) <;> simp [hs]

@[simp] theorem execEmit_wf {ing} (hs : s.mem.wf = true) : NextWf (execEmit ing s) := by
  simp only [execEmit]
  split
  · split
    · exact hs
    · split
      · simp [hs]
      · split <;> simp [foldl_ingestWrite_wf, hs]
  · exact hs

@[simp] theorem execOutConsumed_wf {ing value} (hs : s.mem.wf = true) : NextWf (execOutConsumed ing value s) := by
  unfold execOutConsumed
  (repeat' split) <;> simp [hs]

/-! ### Stacks and arbiters -/

@[simp] theorem execTicketsWrite_wf {arb value} (hs : s.mem.wf = true) : NextWf (execTicketsWrite arb value s) := by
  unfold execTicketsWrite
  (repeat' split) <;> simp [hs]

@[simp] theorem execLfsrSeedWrite_wf {stack value} (hs : s.mem.wf = true) : NextWf
    (execLfsrSeedWrite stack value s) := by
  unfold execLfsrSeedWrite
  (repeat' split) <;> simp [hs]

@[simp] theorem execWatchdogBite_wf {arb ageUs asks} (hs : s.mem.wf = true) : NextWf
    (execWatchdogBite arb ageUs asks s) := by
  simp only [execWatchdogBite]
  (repeat' split) <;> simp [hs]

@[simp] theorem execScrub_wf {stack addr upset rewritten} (hs : s.mem.wf = true) : NextWf
    (execScrub stack addr upset rewritten s) := by
  have hm : ∀ f, (((s.scrubStart stack).upsetUnit addr upset).modStack stack f).mem.wf = true := by
    intro f
    rw [modStack_mem, upsetUnit_mem, scrubStart_mem]
    exact hs
  unfold execScrub
  split
  · dsimp only
    split
    · simp [hs]
    · split
      · exact afterScrub_wf (hm _)
      · exact afterScrub_wf (by rw [corrected_mem]; exact hm _)
      · exact afterScrub_wf (by rw [raiseD_mem, uncorrected_mem]; exact hm _)
  · exact hs

@[simp] theorem execStackReady_wf {stack failStep} (hs : s.mem.wf = true) : NextWf
    (execStackReady stack failStep s) := by
  unfold execStackReady
  split
  · split
    · exact Memory.zero_wf _ _ hs
    · simp [hs]
  · exact hs

@[simp] theorem execRetiredListFlashCopy_wf {stack} (hs : s.mem.wf = true) : NextWf
    (execRetiredListFlashCopy stack s) := by
  unfold execRetiredListFlashCopy
  (repeat' split) <;> simp [hs]

/-! ### Transport -/

@[simp] theorem execWrite_wf (hs : s.mem.wf = true) : NextWf (execWrite s) := by
  unfold execWrite
  split
  · exact hs
  · have ht := pick_mem ‹_›
    dsimp only
    split
    · simp [ht, hs]
    · simp [writeChecked_wf ‹_› (ht ▸ hs)]

@[simp] theorem execRowReq_wf (hs : s.mem.wf = true) : NextWf (execRowReq s) := by
  unfold execRowReq
  split
  · exact hs
  · simp [pick_mem ‹_›, hs]

@[simp] theorem execRowResp_wf (hs : s.mem.wf = true) : NextWf (execRowResp s) := by
  unfold execRowResp
  split
  · exact hs
  · have ht := pick_mem ‹_›
    dsimp only
    split
    · split <;> simp [ht, hs]
    · split <;> simp [ht, hs]

@[simp] theorem execScatterAdd_wf (hs : s.mem.wf = true) : NextWf (execScatterAdd s) := by
  unfold execScatterAdd
  split
  · exact hs
  · simp [pick_mem ‹_›, hs]

@[simp] theorem execReduce_wf (hs : s.mem.wf = true) : NextWf (execReduce s) := by
  unfold execReduce
  split
  · exact hs
  · have ht := pick_mem ‹_›
    dsimp only
    split <;> simp [ht, hs]

@[simp] theorem execE2eAck_wf (hs : s.mem.wf = true) : NextWf (execE2eAck s) := by
  unfold execE2eAck
  split
  · exact hs
  · simp [pick_mem ‹_›, hs]

@[simp] theorem execE2eNak_wf (hs : s.mem.wf = true) : NextWf (execE2eNak s) := by
  unfold execE2eNak
  split
  · exact hs
  · simp [pick_mem ‹_›, hs]

@[simp] theorem execUnreachable_wf (hs : s.mem.wf = true) : NextWf (execUnreachable s) := by
  unfold execUnreachable
  split
  · exact hs
  · have ht := pick_mem ‹_›
    split <;> simp [ht, hs]

@[simp] theorem execE2eAckTimer_wf {i} (hs : s.mem.wf = true) : NextWf (execE2eAckTimer i s) := by
  unfold execE2eAckTimer
  (repeat' split) <;> simp [hs]

@[simp] theorem execE2eTimeout_wf {i} (hs : s.mem.wf = true) : NextWf (execE2eTimeout i s) := by
  unfold execE2eTimeout
  (repeat' split) <;> simp [hs]

/-! ### Fabric links -/

@[simp] theorem execNoLight_wf {port onTransmitFibre} (hs : s.mem.wf = true) : NextWf
    (execNoLight port onTransmitFibre s) := by
  unfold execNoLight
  (repeat' split) <;> simp [hs]

@[simp] theorem execPmaTrainingDone_wf {port lanes inverted reversed} (hs : s.mem.wf = true) : NextWf
    (execPmaTrainingDone port lanes inverted reversed s) := by
  simp only [execPmaTrainingDone]
  (repeat' split) <;> simp [hs]

@[simp] theorem execFecLock_wf {port} (hs : s.mem.wf = true) : NextWf (execFecLock port s) := by
  simp only [execFecLock]
  (repeat' split) <;> simp [hs]

@[simp] theorem execHello_wf {rx dev peerPort role shape digest} (hs : s.mem.wf = true) : NextWf
    (execHello rx dev peerPort role shape digest s) := by
  simp only [execHello]
  (repeat' split) <;> simp [hs]

@[simp] theorem execKeyex_wf {rx msg} (hs : s.mem.wf = true) : NextWf (execKeyex rx msg s) := by
  simp only [execKeyex]
  (repeat' split) <;> simp [hs]

@[simp] theorem execRekey_wf {port} (hs : s.mem.wf = true) : NextWf (execRekey port s) := by
  unfold execRekey
  (repeat' split) <;> simp [hs]

@[simp] theorem execKeyupdate_wf {rx} (hs : s.mem.wf = true) : NextWf (execKeyupdate rx s) := by
  simp only [execKeyupdate]
  (repeat' split) <;> simp [hs]

@[simp] theorem execLaneLoss_wf {port lost} (hs : s.mem.wf = true) : NextWf (execLaneLoss port lost s) := by
  simp only [execLaneLoss]
  (repeat' split) <;> simp [hs]

@[simp] theorem execLinkRetryLimit_wf {port} (hs : s.mem.wf = true) : NextWf (execLinkRetryLimit port s) := by
  unfold execLinkRetryLimit
  (repeat' split) <;> simp [hs]

@[simp] theorem execNak_wf {rx seq} (hs : s.mem.wf = true) : NextWf (execNak rx seq s) := by
  simp only [execNak]
  (repeat' split) <;> simp [hs]

@[simp] theorem execFlitReceive_wf {port flit} (hs : s.mem.wf = true) : NextWf (execFlitReceive port flit s) := by
  unfold execFlitReceive
  (repeat' split) <;> simp [hs]

@[simp] theorem execLotteryDecision_wf {arb asks} (hs : s.mem.wf = true) : NextWf
    (execLotteryDecision arb asks s) := by
  unfold execLotteryDecision
  (repeat' split) <;> simp [hs]
  all_goals simp [arbDecide_mem ‹_›, hs]

/-! ### Oscillators -/

@[simp] theorem execTrimWindowEnd_wf {cluster count} (hs : s.mem.wf = true) : NextWf
    (execTrimWindowEnd cluster count s) := by
  unfold execTrimWindowEnd
  (repeat' split) <;> simp [hs]

@[simp] theorem execTrimMeasureEnd_wf {cluster count} (hs : s.mem.wf = true) : NextWf
    (execTrimMeasureEnd cluster count s) := by
  simp only [execTrimMeasureEnd]
  (repeat' split) <;> simp [hs]

@[simp] theorem execAutoRetrim_wf {cluster count} (hs : s.mem.wf = true) : NextWf
    (execAutoRetrim cluster count s) := by
  simp only [execAutoRetrim]
  (repeat' split) <;> simp [hs]

@[simp] theorem execTrimReq_wf {cluster} (hs : s.mem.wf = true) : NextWf (execTrimReq cluster s) := by
  unfold execTrimReq
  (repeat' split) <;> simp [hs]

@[simp] theorem execRateMonUpdate_wf {cluster f} (hs : s.mem.wf = true) : NextWf
    (execRateMonUpdate cluster f s) := by
  unfold execRateMonUpdate
  (repeat' split) <;> simp [hs]

/-! ### Beds -/

@[simp] theorem execBedTarget_wf {bed on} (hs : s.mem.wf = true) : NextWf (execBedTarget bed on s) := by
  unfold execBedTarget
  split
  · exact hs
  · exact direct_wf (by simp [hs]) hs

@[simp] theorem execBedStart_wf (hs : s.mem.wf = true) : NextWf (execBedStart s) := by
  unfold execBedStart
  (repeat' split) <;> simp [hs]

@[simp] theorem execBedOn_wf {bed} (hs : s.mem.wf = true) : NextWf (execBedOn bed s) := by
  unfold execBedOn
  (repeat' split) <;> simp [hs]

@[simp] theorem execPowerGoodFail_wf {bed} (hs : s.mem.wf = true) : NextWf (execPowerGoodFail bed s) := by
  unfold execPowerGoodFail
  (repeat' split) <;> simp [hs]

@[simp] theorem execRotRetry_wf (hs : s.mem.wf = true) : NextWf (execRotRetry s) := by
  unfold execRotRetry
  (repeat' split) <;> simp [hs]

@[simp] theorem execBedOff_wf {bed} (hs : s.mem.wf = true) : NextWf (execBedOff bed s) := by
  unfold execBedOff
  (repeat' split) <;> simp [hs]

@[simp] theorem execClusterReset_wf {cluster} (hs : s.mem.wf = true) : NextWf (execClusterReset cluster s) := by
  unfold execClusterReset
  split
  · exact hs
  · exact direct_wf (by simp [hs]) hs

@[simp] theorem execClusterResetEnd_wf {cluster} (hs : s.mem.wf = true) : NextWf
    (execClusterResetEnd cluster s) := by
  simp [execClusterResetEnd, hs]

/-! ### The always-on domain -/

@[simp] theorem execAonPowerUp_wf {standby vin} (hs : s.mem.wf = true) : NextWf (execAonPowerUp standby vin s) := by
  unfold execAonPowerUp
  (repeat' split) <;> simp [hs]

@[simp] theorem execInputReversed_wf (hs : s.mem.wf = true) : NextWf (execInputReversed s) := by
  unfold execInputReversed
  (repeat' split) <;> simp [hs]

@[simp] theorem execInputUnderVoltage_wf {mv} (hs : s.mem.wf = true) : NextWf (execInputUnderVoltage mv s) := by
  unfold execInputUnderVoltage
  (repeat' split) <;> simp [hs]

@[simp] theorem execInputOverVoltage_wf {mv} (hs : s.mem.wf = true) : NextWf (execInputOverVoltage mv s) := by
  unfold execInputOverVoltage
  (repeat' split) <;> simp [hs]

@[simp] theorem execStandbyLow_wf {mv} (hs : s.mem.wf = true) : NextWf (execStandbyLow mv s) := by
  unfold execStandbyLow
  (repeat' split) <;> simp [hs]

@[simp] theorem execThermalTrip_wf {i} (hs : s.mem.wf = true) : NextWf (execThermalTrip i s) := by
  unfold execThermalTrip
  (repeat' split) <;> simp [hs]

@[simp] theorem execComparatorRelease_wf {c} (hs : s.mem.wf = true) : NextWf (execComparatorRelease c s) := by
  simp only [execComparatorRelease]
  (repeat' split) <;> simp [hs]

@[simp] theorem execSupplyRestart_wf (hs : s.mem.wf = true) : NextWf (execSupplyRestart s) := by
  unfold execSupplyRestart
  (repeat' split) <;> simp [hs]

@[simp] theorem execThermalRestart_wf (hs : s.mem.wf = true) : NextWf (execThermalRestart s) := by
  unfold execThermalRestart
  (repeat' split) <;> simp [hs]

@[simp] theorem execManagementWake_wf (hs : s.mem.wf = true) : NextWf (execManagementWake s) := by
  unfold execManagementWake
  (repeat' split) <;> simp [hs]

@[simp] theorem execDeviceRestart_wf (hs : s.mem.wf = true) : NextWf (execDeviceRestart s) := by
  unfold execDeviceRestart
  (repeat' split) <;> simp [hs]

@[simp] theorem execCrystalFail_wf (hs : s.mem.wf = true) : NextWf (execCrystalFail s) := by
  simp [execCrystalFail, hs]

@[simp] theorem execCrystalReturn_wf (hs : s.mem.wf = true) : NextWf (execCrystalReturn s) := by
  unfold execCrystalReturn
  (repeat' split) <;> simp [hs]

@[simp] theorem execSupplyMeasure_wf {vinMv stbyMv} (hs : s.mem.wf = true) : NextWf
    (execSupplyMeasure vinMv stbyMv s) := by
  unfold execSupplyMeasure
  (repeat' split) <;> simp [hs]

@[simp] theorem execSidebandProbe_wf {out falls} (hs : s.mem.wf = true) : NextWf
    (execSidebandProbe out falls s) := by
  unfold execSidebandProbe
  (repeat' split) <;> simp [hs]

@[simp] theorem execSidebandFault_wf {out fault} (hs : s.mem.wf = true) : NextWf
    (execSidebandFault out fault s) := by
  unfold execSidebandFault
  (repeat' split) <;> simp [hs]

@[simp] theorem execSidebandFaultCleared_wf {out} (hs : s.mem.wf = true) : NextWf
    (execSidebandFaultCleared out s) := by
  simp [execSidebandFaultCleared, hs]

@[simp] theorem execRefclkMissing_wf {link} (hs : s.mem.wf = true) : NextWf (execRefclkMissing link s) := by
  unfold execRefclkMissing
  split
  · simp only [nextWf_next, capacityChange_mem, modHost_mem, subPortsDown_mem]
    exact foldl_wf (fun _ _ hs => unclock_wf hs) _ (by simp [hs])
  · exact hs

@[simp] theorem execRefclkReturn_wf {link} (hs : s.mem.wf = true) : NextWf (execRefclkReturn link s) := by
  unfold execRefclkReturn
  (repeat' split) <;> simp [hs]

@[simp] theorem execPowerMeasure_wf {pinW} (hs : s.mem.wf = true) : NextWf (execPowerMeasure pinW s) := by
  unfold execPowerMeasure
  (repeat' split) <;> simp [hs]

@[simp] theorem execVcoreThrottleStep_wf {die up} (hs : s.mem.wf = true) : NextWf
    (execVcoreThrottleStep die up s) := by
  unfold execVcoreThrottleStep
  (repeat' split) <;> simp [hs]

@[simp] theorem execBoot_wf (hs : s.mem.wf = true) : NextWf (execBoot s) := by
  unfold execBoot
  (repeat' split) <;> simp [hs]

@[simp] theorem execEntropyHealthFail_wf (hs : s.mem.wf = true) : NextWf (execEntropyHealthFail s) := by
  unfold execEntropyHealthFail
  (repeat' split) <;> simp [hs]

/-! ### Vector engine -/

@[simp] theorem execChain_wf {core} (hs : s.mem.wf = true) : NextWf (execChain core s) := by
  simp only [execChain]
  (repeat' split) <;> simp [hs]

@[simp] theorem execTileDrop_wf {core} (hs : s.mem.wf = true) : NextWf (execTileDrop core s) := by
  simp only [execTileDrop]
  (repeat' split) <;> simp [hs]

/-! ### Matrix engine -/

@[simp] theorem execMatmul_wf {core} (hs : s.mem.wf = true) : NextWf (execMatmul core s) := by
  unfold execMatmul
  (repeat' split) <;> simp [hs]

@[simp] theorem execMatmulFill_wf {core} (hs : s.mem.wf = true) : NextWf (execMatmulFill core s) := by
  unfold execMatmulFill
  (repeat' split) <;> simp [hs]

@[simp] theorem execConv_wf {core} (hs : s.mem.wf = true) : NextWf (execConv core s) := by
  simp only [execConv]
  (repeat' split) <;> simp [hs]

@[simp] theorem execPassStart_wf {core} (hs : s.mem.wf = true) : NextWf (execPassStart core s) := by
  simp only [execPassStart]
  (repeat' split) <;> simp [hs]

@[simp] theorem execTileEnter_wf {core} (hs : s.mem.wf = true) : NextWf (execTileEnter core s) := by
  simp only [execTileEnter]
  (repeat' split) <;> simp [hs]

@[simp] theorem execPassDrainEnd_wf {core} (hs : s.mem.wf = true) : NextWf (execPassDrainEnd core s) := by
  unfold execPassDrainEnd
  (repeat' split) <;> simp [hs]

@[simp] theorem execConvert_wf {core} (hs : s.mem.wf = true) : NextWf (execConvert core s) := by
  simp only [execConvert]
  (repeat' split) <;> simp [hs]

@[simp] theorem execBallastFiring_wf {core} (hs : s.mem.wf = true) : NextWf (execBallastFiring core s) := by
  simp only [execBallastFiring]
  (repeat' split) <;> simp [hs]

@[simp] theorem execBallastWindDown_wf {core} (hs : s.mem.wf = true) : NextWf (execBallastWindDown core s) := by
  simp only [execBallastWindDown]
  (repeat' split) <;> simp [hs]

@[simp] theorem execBallastRampStep_wf {core} (hs : s.mem.wf = true) : NextWf (execBallastRampStep core s) := by
  unfold execBallastRampStep
  (repeat' split) <;> simp [hs]

/-! ### Transfer engine and thread unit -/

@[simp] theorem execCopy_wf {core} (hs : s.mem.wf = true) : NextWf (execCopy core s) := by simp [execCopy, hs]
@[simp] theorem execFill_wf {core} (hs : s.mem.wf = true) : NextWf (execFill core s) := by simp [execFill, hs]
@[simp] theorem execIload_wf {core} (hs : s.mem.wf = true) : NextWf (execIload core s) := by simp [execIload, hs]
@[simp] theorem execIstore_wf {core} (hs : s.mem.wf = true) : NextWf (execIstore core s) := by simp [execIstore, hs]

@[simp] theorem execThreadIssue_wf {core} (hs : s.mem.wf = true) : NextWf (execThreadIssue core s) := by
  simp only [execThreadIssue]
  (repeat' split) <;> simp [hs]

/-! ### Base dies -/

@[simp] theorem execHbmRead_wf {access upset issuer} (hs : s.mem.wf = true) : NextWf
    (execHbmRead access upset issuer s) := by
  simp only [execHbmRead]
  (repeat' split) <;> simp [hs]

@[simp] theorem execHbmWrite_wf {access bytes upset issuer} (hs : s.mem.wf = true) : NextWf
    (execHbmWrite access bytes upset issuer s) := by
  simp only [execHbmWrite]
  (repeat' split) <;> simp [hs]

/-! ### Events -/

@[simp] theorem execEventRecord_wf (hs : s.mem.wf = true) : NextWf (execEventRecord s) := by
  simp only [execEventRecord]
  (repeat' split) <;> simp [hs]

@[simp] theorem execSeasonStall_wf {cluster} (hs : s.mem.wf = true) : NextWf (execSeasonStall cluster s) := by
  simp only [execSeasonStall]
  (repeat' split) <;> simp [hs]

/-! ### Jobs -/

@[simp] theorem execJobAdmissionEnd_wf (hs : s.mem.wf = true) : NextWf (execJobAdmissionEnd s) := by
  simp only [execJobAdmissionEnd]
  (repeat' split) <;> simp [hs]

@[simp] theorem execJobManifest_wf {value} (hs : s.mem.wf = true) : NextWf (execJobManifest value s) := by
  unfold execJobManifest
  split
  · exact hs
  · exact direct_wf (by simp [hs]) hs

@[simp] theorem execJobEnd_wf (hs : s.mem.wf = true) : NextWf (execJobEnd s) := by
  unfold execJobEnd
  split
  · exact hs
  · exact direct_wf (by simp [hs]) hs

/-! ### Security -/

@[simp] theorem execFwImage_wf {value} (hs : s.mem.wf = true) : NextWf (execFwImage value s) :=
  direct_wf (by simp [hs]) hs

@[simp] theorem execFwImageCheckEnd_wf {flashOk} (hs : s.mem.wf = true) : NextWf
    (execFwImageCheckEnd flashOk s) := by
  simp only [execFwImageCheckEnd]
  (repeat' split) <;> simp [hs]

@[simp] theorem execFwCommitSvn_wf {svn} (hs : s.mem.wf = true) : NextWf (execFwCommitSvn svn s) :=
  direct_wf (by simp [hs]) hs

@[simp] theorem execMeasureExtend_wf {value} (hs : s.mem.wf = true) : NextWf (execMeasureExtend value s) :=
  direct_wf (by simp [hs]) hs

@[simp] theorem execQuoteRequest_wf {nonce} (hs : s.mem.wf = true) : NextWf (execQuoteRequest nonce s) :=
  direct_wf (by simp [hs]) hs

@[simp] theorem execQuoteFormed_wf (hs : s.mem.wf = true) : NextWf (execQuoteFormed s) := by
  unfold execQuoteFormed
  (repeat' split) <;> simp [hs]

@[simp] theorem execChallenge_wf {src} (hs : s.mem.wf = true) : NextWf (execChallenge src s) := by
  unfold execChallenge
  (repeat' split) <;> simp [hs]

@[simp] theorem execSessionOpen_wf {src value total} (hs : s.mem.wf = true) : NextWf
    (execSessionOpen src value total s) :=
  direct_wf (by split <;> simp [hs]) hs

@[simp] theorem execSessionClose_wf {session} (hs : s.mem.wf = true) : NextWf (execSessionClose session s) :=
  direct_wf (by split <;> simp [hs]) hs

@[simp] theorem execSessionTimeout_wf {i} (hs : s.mem.wf = true) : NextWf (execSessionTimeout i s) := by
  unfold execSessionTimeout
  (repeat' split) <;> simp [hs]

@[simp] theorem execOwnerKeys_wf {keys} (hs : s.mem.wf = true) : NextWf (execOwnerKeys keys s) := by
  unfold execOwnerKeys
  split <;> exact direct_wf (by simp [hs]) hs

@[simp] theorem execMacsecKeyex_wf {src value} (hs : s.mem.wf = true) : NextWf (execMacsecKeyex src value s) := by
  unfold execMacsecKeyex
  split
  · exact hs
  · exact direct_wf (by simp [hs]) hs

@[simp] theorem execDebugUnlock_wf {src value auth} (hs : s.mem.wf = true) : NextWf
    (execDebugUnlock src value auth s) :=
  direct_wf (by split <;> simp [hs]) hs

/-! ### Objects -/

@[simp] theorem execVcoreSetpointWrite_wf {die mv} (hs : s.mem.wf = true) : NextWf
    (execVcoreSetpointWrite die mv s) := by
  simp [execVcoreSetpointWrite, hs]

@[simp] theorem execFenceRequest_wf {unit} (hs : s.mem.wf = true) : NextWf (execFenceRequest unit s) := by
  simp [execFenceRequest, hs]

@[simp] theorem execFenceClear_wf {unit} (hs : s.mem.wf = true) : NextWf (execFenceClear unit s) := by
  simp [execFenceClear, hs]

@[simp] theorem execRetireRequest_wf {addr} (hs : s.mem.wf = true) : NextWf (execRetireRequest addr s) := by
  simp [execRetireRequest, hs]

@[simp] theorem execObjectWrite_wf {index sub value} (hs : s.mem.wf = true) : NextWf
    (execObjectWrite index sub value s) := by
  simp [execObjectWrite, hs]

@[simp] theorem execRwsFlashWrite_wf {index sub} (hs : s.mem.wf = true) : NextWf
    (execRwsFlashWrite index sub s) := by
  simp only [execRwsFlashWrite]
  (repeat' split) <;> simp [hs]

@[simp] theorem execCounterSnapshot_wf (hs : s.mem.wf = true) : NextWf (execCounterSnapshot s) := by
  unfold execCounterSnapshot
  (repeat' split) <;> simp [hs]

@[simp] theorem execSnap_wf {unit} (hs : s.mem.wf = true) : NextWf (execSnap unit s) := by
  unfold execSnap
  (repeat' split) <;> simp [hs]

/-! ### Breop operations -/

@[simp] theorem execBreopRead_wf (hs : s.mem.wf = true) : NextWf (execBreopRead s) :=
  serve_wf (fun _ _ hs => by simp [hs]) (fun _ _ _ hs => by simp [hs]) hs

@[simp] theorem execBreopWrite_wf (hs : s.mem.wf = true) : NextWf (execBreopWrite s) :=
  serve_wf (fun _ _ hs => by simp [hs]) (fun _ _ _ hs => by simp [hs]) hs

@[simp] theorem execBlockRead_wf (hs : s.mem.wf = true) : NextWf (execBlockRead s) :=
  serve_wf (fun _ _ hs => by simp [hs]) (fun _ _ _ hs => by simp [hs]) hs

@[simp] theorem execBlockWrite_wf (hs : s.mem.wf = true) : NextWf (execBlockWrite s) :=
  serve_wf (fun _ _ hs => by simp [hs]) (fun _ _ _ hs => by simp [hs]) hs

@[simp] theorem execStagingDiscard_wf {i} (hs : s.mem.wf = true) : NextWf (execStagingDiscard i s) := by
  unfold execStagingDiscard
  (repeat' split) <;> simp [hs]

@[simp] theorem execSubscribe_wf (hs : s.mem.wf = true) : NextWf (execSubscribe s) :=
  serve_wf (fun _ _ hs => by simp [hs]) (fun _ _ _ hs => by simp [hs]) hs

@[simp] theorem execCancel_wf (hs : s.mem.wf = true) : NextWf (execCancel s) :=
  serve_wf (fun _ _ hs => by simp [hs]) (fun _ _ _ hs => by simp [hs]) hs

@[simp] theorem execSubscriptionLapse_wf {i} (hs : s.mem.wf = true) : NextWf (execSubscriptionLapse i s) := by
  unfold execSubscriptionLapse
  (repeat' split) <;> simp [hs]

@[simp] theorem execNotify_wf {i} (hs : s.mem.wf = true) : NextWf (execNotify i s) := by
  simp only [execNotify]
  (repeat' split) <;> simp [hs]

/-! ### Registers -/

@[simp] theorem execRegisterWrite_wf {addr value wide} (hs : s.mem.wf = true) : NextWf
    (execRegisterWrite addr value wide s) := by
  simp only [execRegisterWrite]
  (repeat' split) <;> simp [hs]

/-! ### Row engine -/

@[simp] theorem execNormFwd_wf {core} (hs : s.mem.wf = true) : NextWf (execNormFwd core s) := by
  simp [execNormFwd, hs]

@[simp] theorem execNormBwd_wf {core} (hs : s.mem.wf = true) : NextWf (execNormBwd core s) := by
  simp [execNormBwd, hs]

@[simp] theorem execSoftmaxFwd_wf {core} (hs : s.mem.wf = true) : NextWf (execSoftmaxFwd core s) := by
  simp [execSoftmaxFwd, hs]

@[simp] theorem execSoftmaxBwd_wf {core} (hs : s.mem.wf = true) : NextWf (execSoftmaxBwd core s) := by
  simp [execSoftmaxBwd, hs]

@[simp] theorem execLse_wf {core} (hs : s.mem.wf = true) : NextWf (execLse core s) := by simp [execLse, hs]

/-! ### Sequencers -/

@[simp] theorem execNop_wf {cluster} (hs : s.mem.wf = true) : NextWf (execNop cluster s) :=
  seqRow_wf (fun _ => by simp [hs]) hs

@[simp] theorem execLdi_wf {cluster} (hs : s.mem.wf = true) : NextWf (execLdi cluster s) :=
  seqRow_wf (fun _ => by simp [hs]) hs

@[simp] theorem execLdhi_wf {cluster} (hs : s.mem.wf = true) : NextWf (execLdhi cluster s) :=
  seqRow_wf (fun _ => by simp [hs]) hs

@[simp] theorem execAdd_wf {cluster} (hs : s.mem.wf = true) : NextWf (execAdd cluster s) :=
  seqRow_wf (fun _ => by simp [hs]) hs

@[simp] theorem execAddi_wf {cluster} (hs : s.mem.wf = true) : NextWf (execAddi cluster s) :=
  seqRow_wf (fun _ => by simp [hs]) hs

@[simp] theorem execSub_wf {cluster} (hs : s.mem.wf = true) : NextWf (execSub cluster s) :=
  seqRow_wf (fun _ => by simp [hs]) hs

@[simp] theorem execAnd_wf {cluster} (hs : s.mem.wf = true) : NextWf (execAnd cluster s) :=
  seqRow_wf (fun _ => by simp [hs]) hs

@[simp] theorem execOr_wf {cluster} (hs : s.mem.wf = true) : NextWf (execOr cluster s) :=
  seqRow_wf (fun _ => by simp [hs]) hs

@[simp] theorem execXor_wf {cluster} (hs : s.mem.wf = true) : NextWf (execXor cluster s) :=
  seqRow_wf (fun _ => by simp [hs]) hs

@[simp] theorem execShl_wf {cluster} (hs : s.mem.wf = true) : NextWf (execShl cluster s) :=
  seqRow_wf (fun _ => by simp [hs]) hs

@[simp] theorem execShr_wf {cluster} (hs : s.mem.wf = true) : NextWf (execShr cluster s) :=
  seqRow_wf (fun _ => by simp [hs]) hs

@[simp] theorem execMul_wf {cluster} (hs : s.mem.wf = true) : NextWf (execMul cluster s) :=
  seqRow_wf (fun _ => by simp [hs]) hs

@[simp] theorem execLd_wf {cluster} (hs : s.mem.wf = true) : NextWf (execLd cluster s) :=
  seqRow_wf (fun _ => seqAligned_wf (by (repeat' split) <;> simp [hs]) hs) hs

@[simp] theorem execLoadReturn_wf {cluster} (hs : s.mem.wf = true) : NextWf (execLoadReturn cluster s) := by
  unfold execLoadReturn
  (repeat' split) <;> simp [hs]

@[simp] theorem execSt_wf {cluster} (hs : s.mem.wf = true) : NextWf (execSt cluster s) := by
  refine seqRow_wf (fun i => seqAligned_wf ?_ hs) hs
  split
  · simp [hs]
  · simp [seqStore_wf ‹_› hs]

@[simp] theorem execBr_wf {cluster} (hs : s.mem.wf = true) : NextWf (execBr cluster s) :=
  seqRow_wf (fun _ => by (repeat' split) <;> simp [hs]) hs

@[simp] theorem execJal_wf {cluster} (hs : s.mem.wf = true) : NextWf (execJal cluster s) :=
  seqRow_wf (fun _ => by simp [hs]) hs

@[simp] theorem execJr_wf {cluster} (hs : s.mem.wf = true) : NextWf (execJr cluster s) :=
  seqRow_wf (fun _ => by (repeat' split) <;> simp [hs]) hs

@[simp] theorem execPost_wf {cluster} (hs : s.mem.wf = true) : NextWf (execPost cluster s) := by
  refine seqRow_wf (fun i => ?_) hs
  split
  · simp [hs]
  · refine seqAligned_wf ?_ hs
    split
    · split
      · simp [hs]
      · simp [postDesc_mem ‹_›, hs]
    · simp [hs]

@[simp] theorem execTpost_wf {cluster} (hs : s.mem.wf = true) : NextWf (execTpost cluster s) :=
  seqRow_wf (fun _ => by simp [hs]) hs

@[simp] theorem execSetexp_wf {cluster} (hs : s.mem.wf = true) : NextWf (execSetexp cluster s) :=
  seqRow_wf (fun _ => by simp [hs]) hs

@[simp] theorem execWaitt_wf {cluster} (hs : s.mem.wf = true) : NextWf (execWaitt cluster s) :=
  seqRow_wf (fun _ => by (repeat' split) <;> simp [hs]) hs

@[simp] theorem execWaits_wf {cluster} (hs : s.mem.wf = true) : NextWf (execWaits cluster s) :=
  seqRow_wf (fun _ => by (repeat' split) <;> simp [hs]) hs

@[simp] theorem execLent_wf {cluster} (hs : s.mem.wf = true) : NextWf (execLent cluster s) := by
  refine seqRow_wf (fun i => seqAligned_wf ?_ hs) hs
  split
  · simp [hs]
  · dsimp only
    (repeat' split) <;> simp [hs]

@[simp] theorem execSetlim_wf {cluster} (hs : s.mem.wf = true) : NextWf (execSetlim cluster s) :=
  seqRow_wf (fun _ => by dsimp only; split <;> simp [hs]) hs

@[simp] theorem execRsum_wf {cluster} (hs : s.mem.wf = true) : NextWf (execRsum cluster s) :=
  seqRow_wf (fun _ => by (repeat' split) <;> simp [hs]) hs

@[simp] theorem execRdsys_wf {cluster} (hs : s.mem.wf = true) : NextWf (execRdsys cluster s) :=
  seqRow_wf (fun _ => by simp [hs]) hs

@[simp] theorem execEvent_wf {cluster} (hs : s.mem.wf = true) : NextWf (execEvent cluster s) :=
  seqRow_wf (fun _ => by simp [hs]) hs

@[simp] theorem execHalt_wf {cluster} (hs : s.mem.wf = true) : NextWf (execHalt cluster s) :=
  seqRow_wf (fun _ => by simp [hs]) hs

@[simp] theorem execSequencerResume_wf {cluster} (hs : s.mem.wf = true) : NextWf
    (execSequencerResume cluster s) := by
  unfold execSequencerResume
  (repeat' split) <;> simp [hs]

/-! ### Threads and the end of a bed -/

@[simp] theorem execEntryComplete_wf {core i} (hs : s.mem.wf = true) : NextWf (execEntryComplete core i s) := by
  simp only [execEntryComplete]
  (repeat' split) <;> simp [hs]

@[simp] theorem execBedStop_wf (hs : s.mem.wf = true) : NextWf (execBedStop s) := by
  unfold execBedStop
  split
  · exact hs
  · split
    · exact hs
    · exact completeFrom_wf (stopUnits_wf (by simp [hs]))

/-! ### Every command -/

theorem exec_wf (c : Instr) (hs : s.mem.wf = true) : NextWf (exec c s) := by
  cases c <;> simp [exec, hs]
end

/-- Settles O59, by the case of the command that stands in front; a crystal cycle leaves memory as it is. -/
theorem everyStepKeepsMemoryCanonical : Obligations.EveryStepKeepsMemoryCanonical := by
  intro s t hs ht
  unfold step at ht
  split at ht
  · cases ht
    rw [crystalCycle_mem]
    exact hs
  · rename_i c rest _
    have h := exec_wf (s := { s with pending := rest }) c hs
    rwa [ht] at h

end Sys2Proof.Machine
end

section
/-! PROOFS. Reset: the state right after reset. -/

namespace Sys2Proof.Machine

theorem clusters_reset (g : Fin 32) : State.reset.clusters[g] = Cluster.reset := by
  simp [State.reset]

/-- Settles O58: every cluster is the reset one, and the beds are a finite table. -/
theorem resetLeavesNothingRunning : Obligations.ResetLeavesNothingRunning := by
  refine ⟨rfl, reset_memory_wf, fun g p hp => ?_, fun g => ?_, by decide, rfl, rfl, rfl, rfl, rfl, fun g => ?_⟩
  · rw [clusters_reset] at hp
    cases hp
  · rw [clusters_reset]
    decide
  · rw [clusters_reset]
    exact ⟨rfl, rfl, rfl, rfl, rfl⟩

end Sys2Proof.Machine
end

section
/-! PROOFS. MemoryRules: what a write of memory gives, what it leaves unchanged, and what a read of it returns. -/

namespace Sys2Proof.Machine

section
variable (s : State) (a : Nat) (bs : List Byte)

theorem read_writeOutside_outside (us : List Nat) (m : Memory) {x : Nat} (h : x < a ∨ a + bs.length ≤ x) :
    (m.writeOutside us a bs).read x = m.read x := by
  induction bs generalizing m a with
  | nil => rfl
  | cons b t ih =>
    rw [List.length_cons] at h
    rw [Memory.writeOutside, ih _ _ (by omega)]
    split
    · rfl
    · exact m.read_write_other _ _ _ (by omega)

theorem writeMem_mem : (s.writeMem a bs).mem =
    if s.partPoisoned a bs.length = [] then s.mem.writeBytes a bs else s.mem.writeOutside (s.partPoisoned a bs.length) a bs := by
  unfold State.writeMem
  dsimp only
  split <;> rfl

theorem sameMemoryBut_writeMem : SameMemoryBut a bs.length s (s.writeMem a bs) := by
  intro x hx
  rw [writeMem_mem]
  split
  · exact Memory.read_writeBytes_outside _ _ _ _ hx
  · exact read_writeOutside_outside _ _ _ _ hx

/-- A write of memory changes memory and the stacks' records of their units, nothing else. -/
theorem writeMem_frame : s.writeMem a bs = { s with mem := (s.writeMem a bs).mem, hbm := (s.writeMem a bs).hbm } := by
  unfold State.writeMem
  dsimp only
  split <;> rfl

theorem partPoisoned_of_mergeFail {n : Nat} (h : s.mergeFail a n = none) : s.partPoisoned a n = [] := by
  simpa [State.mergeFail] using h

theorem readBytes_writeBytes (m : Memory) : (m.writeBytes a bs).readBytes a bs.length = bs := by
  apply List.ext_getElem
  · simp [Memory.readBytes]
  · intro i h _
    simp only [Memory.readBytes, List.getElem_map, List.getElem_range]
    exact Memory.read_writeBytes_inside _ _ _ _ _

theorem readBytes_writeMem (h : s.mergeFail a bs.length = none) : (s.writeMem a bs).mem.readBytes a bs.length = bs := by
  rw [writeMem_mem, if_pos (partPoisoned_of_mergeFail s a h), readBytes_writeBytes]
end

@[simp] theorem length_leBytes (n v : Nat) : (leBytes n v).length = n := by
  induction n generalizing v with
  | zero => rfl
  | succ n ih => simp [leBytes, ih]

@[simp] theorem length_wordBytes (w : Word) : (wordBytes w).length = 8 := length_leBytes _ _

end Sys2Proof.Machine
end

section
/-! PROOFS. LoadsAndStores: the sequencer's LD and ST. -/

namespace Sys2Proof.Machine

section
variable {s : State} {g : Fin 32} {i : SeqInstr} {a : Nat}

theorem onlySeq_modSeq (f : Sequencer → Sequencer) : OnlySeq g s (s.modSeq g f) := by
  simp [OnlySeq, OnlyCluster, State.modSeq, State.modCluster]

theorem seq_modSeq (f : Sequencer → Sequencer) : (s.modSeq g f).clusters[g].seq = f s.clusters[g].seq := by
  simp [State.modSeq]

theorem seqNext_eq (h : s.clusters[g].seq.pc + 1 < 2048) :
    s.seqNext g = s.modSeq g (fun q => { q with pc := s.clusters[g].seq.pc + 1 }) := by
  have hp : (s.seqPc g + 1).toNat = s.clusters[g].seq.pc + 1 := by
    have h1 : (1 : Word).toNat = 1 := rfl
    simp only [State.seqPc, BitVec.toNat_add, BitVec.toNat_ofNat, h1]
    omega
  rw [State.seqNext, State.seqGoto, hp, if_pos h]

@[simp] theorem noteRead_clusters (n : Nat) : (s.noteRead a n).clusters = s.clusters := by
  unfold State.noteRead
  split <;> rfl

theorem noteRead_above (n : Nat) (h : hbmEnd ≤ a) : s.noteRead a n = s := if_neg (Nat.not_lt.mpr h)

theorem reg_setReg (q : Sequencer) (r x : Fin 32) (v : Word) :
    (q.setReg r v).reg x = if x = r ∧ r ≠ 0 then v else q.reg x := by
  by_cases hx : x = r
  · subst hx
    by_cases h0 : x = 0
    · simp [Sequencer.setReg, h0]
    · simp [reg_setReg_same _ _ _ h0, h0]
  · simp [reg_setReg_other _ _ _ _ hx, hx]

theorem OnlySeq.trans {t u : State} (h : OnlySeq g s t) (k : OnlySeq g t u) : OnlySeq g s u := by
  obtain ⟨hc, hq⟩ := h
  obtain ⟨kc, kq⟩ := k
  refine ⟨?_, by rw [kq, hq]⟩
  unfold OnlyCluster at *
  rw [kc, hc]
  simp

theorem exec_ld (hr : Runs s g 0x0C i) (ha : a = (s.seqA g i + seqSext i.imm).toNat) (h8 : a % 8 = 0) {v : Word}
    (hl : s.seqLoad g a = .ok v) :
    exec (.ld g) s = .next ((s.noteRead a 8).modSeq g (fun q => { q with load := some (i.sd, v) })) := by
  obtain ⟨hrun, rfl, ho, hb⟩ := hr
  rw [exec, execLd, seqRow_executes _ _ _ _ hrun ho hb]
  simp only [← ha, seqAligned, h8, if_true, hl]

theorem exec_st (hr : Runs s g 0x0D i) (ha : a = (s.seqA g i + seqSext i.imm).toNat) (h8 : a % 8 = 0) {t : State}
    (hs : s.seqStore g a (s.seqB g i) = .ok t) : exec (.st g) s = .next (t.seqNext g) := by
  obtain ⟨hrun, rfl, ho, hb⟩ := hr
  rw [exec, execSt, seqRow_executes _ _ _ _ hrun ho hb]
  simp only [← ha, seqAligned, h8, if_true, hs]

theorem ld_yields {v : Word} (hr : Runs s g 0x0C i) (ha : a = (s.seqA g i + seqSext i.imm).toNat) (h8 : a % 8 = 0)
    (hl : s.seqLoad g a = .ok v) : Yields (.ld g) s (fun t => OnlySeq g (s.noteRead a 8) t ∧
      t.clusters[g].seq = { s.clusters[g].seq with load := some (i.sd, v) }) :=
  ⟨_, exec_ld hr ha h8 hl, onlySeq_modSeq _, by rw [seq_modSeq]; simp⟩

theorem loadReturn_yields {r : Fin 32} {v : Word} (hl : s.clusters[g].seq.load = some (r, v)) (hg : s.clusterLive g = true)
    (hp : s.clusters[g].seq.pc + 1 < 2048) :
    Yields (.loadReturn g) s (fun t => OnlySeq g s t ∧ t.clusters[g].seq.load = none ∧
      t.clusters[g].seq.pc = s.clusters[g].seq.pc + 1 ∧
      (∀ x, t.clusters[g].seq.reg x = if x = r ∧ r ≠ 0 then v else s.clusters[g].seq.reg x)) := by
  have hx : exec (.loadReturn g) s = .next ((s.modSeq g (fun q => { q with load := none })).seqSet g r v) := by
    simp only [exec, execLoadReturn, hl, hg, if_true]
  rw [State.seqSet, seqNext_eq (by simpa only [seq_modSeq, setReg_pc] using hp)] at hx
  refine ⟨_, hx, ((onlySeq_modSeq _).trans (onlySeq_modSeq _)).trans (onlySeq_modSeq _), ?_⟩
  simp only [seq_modSeq, setReg_load, setReg_pc, true_and]
  exact fun x => (reg_setReg _ r x v).trans rfl

theorem st_memory_yields (hr : Runs s g 0x0D i) (hp : s.clusters[g].seq.pc + 1 < 2048)
    (ha : a = (s.seqA g i + seqSext i.imm).toNat) (h8 : a % 8 = 0) (hm : ¬ (unitBase ≤ a ∧ a < linkBase + 0x20000000))
    (hacc : s.accessFail (.ofCluster g (.req 1)) a 8 = none) (hmerge : s.mergeFail a 8 = none) :
    Yields (.st g) s (fun t => t.mem.readBytes a 8 = leBytes 8 (s.clusters[g].seq.reg i.sb).toNat ∧ SameMemoryBut a 8 s t ∧
      SeqAt g (s.clusters[g].seq.pc + 1) s t ∧
      t = { s with clusters := s.clusters.set g t.clusters[g], mem := t.mem, hbm := t.hbm }) := by
  have hw : s.seqStore g a (s.seqB g i) = .ok (s.writeMem a (wordBytes (s.seqB g i))) := by
    simp [State.seqStore, hm, State.writeChecked, hacc, hmerge]
  have hc : (s.writeMem a (wordBytes (s.seqB g i))).clusters = s.clusters := by rw [writeMem_frame]
  refine ⟨_, exec_st hr ha h8 hw, ?_⟩
  rw [seqNext_eq (by simpa [hc] using hp)]
  refine ⟨?_, ?_, ?_, ?_⟩
  · exact readBytes_writeMem s a (wordBytes (s.seqB g i)) (by simpa using hmerge)
  · exact sameMemoryBut_writeMem s a (wordBytes (s.seqB g i))
  · rw [SeqAt, seq_modSeq, hc]
  · conv_lhs => rw [writeMem_frame]
    simp [State.modSeq, State.modCluster, hc]

theorem st_register (hr : Runs s g 0x0D i) (ha : a = (s.seqA g i + seqSext i.imm).toNat) (h8 : a % 8 = 0) (hlo : unitBase ≤ a)
    (hhi : a < linkBase + 0x20000000) (hacc : s.accessFail (.ofCluster g (.req 1)) a 8 = none) :
    exec (.st g) s = .next ((s.regWrite a 8 (s.clusters[g].seq.reg i.sb).toNat).seqNext g) :=
  exec_st hr ha h8 (by simp [State.seqStore, hlo, hhi, hacc, State.seqB])

end

/-- Settles O15: a register address of LD or ST lies above the stacks, so nothing is counted in reading it. -/
theorem sequencerLoadsAndStores : Obligations.SequencerLoadsAndStores := by
  refine ⟨fun g i a bs s hr ha h8 hm hl => ld_yields hr ha h8 (by simp [State.seqLoad, hm, hl]),
    fun g i a s hr ha h8 hlo hhi hacc => ?_, fun g r v s => loadReturn_yields,
    fun g i a s => st_memory_yields, fun g i a s => st_register⟩
  have h := ld_yields hr ha h8 (v := BitVec.ofNat 64 (s.regRead a 8)) (by simp [State.seqLoad, hlo, hhi, hacc])
  rwa [noteRead_above 8 (Nat.le_trans (by decide) hlo)] at h

end Sys2Proof.Machine
end

section
/-! PROOFS. Threads: the thread unit's descriptors and their entries. -/

namespace Sys2Proof.Machine

/-- Only a core and the clusters may differ: what the end of a thread unit's descriptor can reach. -/
def OnlyCoreQueues (n : Fin 256) (s t : State) : Prop := t = { s with clusters := t.clusters, cores := s.cores.set n t.cores[n] }

section
variable {n : Fin 256} {s t u : State}

theorem OnlyCoreQueues.trans (h : OnlyCoreQueues n s t) (k : OnlyCoreQueues n t u) : OnlyCoreQueues n s u := by
  unfold OnlyCoreQueues at *
  rw [k, h]
  simp

theorem onlyCoreQueues_modThr (f : ThreadUnit → ThreadUnit) : OnlyCoreQueues n s (s.modThr n f) := by
  simp [OnlyCoreQueues, State.modThr, State.modCore]

theorem onlyCoreQueues_modQueue (g : Fin 32) (q : QueueId) (f : Queue → Queue) : OnlyCoreQueues n s (s.modQueue g q f) := by
  simp [OnlyCoreQueues, State.modQueue, State.modCluster]

theorem OnlyCoreQueues.mem (h : OnlyCoreQueues n s t) : t.mem = s.mem := by rw [h]
theorem OnlyCoreQueues.hbm (h : OnlyCoreQueues n s t) : t.hbm = s.hbm := by rw [h]
theorem OnlyCoreQueues.posts (h : OnlyCoreQueues n s t) : t.posts = s.posts := by rw [h]
theorem OnlyCoreQueues.health (h : OnlyCoreQueues n s t) : t.health = s.health := by rw [h]
end

section
variable (n : Fin 256) (s : State) (f : ThreadUnit → ThreadUnit)

theorem thr_modThr : (s.modThr n f).cores[n].thr = f s.cores[n].thr := by simp [State.modThr]

theorem modThr_modThr (f' : ThreadUnit → ThreadUnit) : (s.modThr n f).modThr n f' = s.modThr n (fun x => f' (f x)) := by
  simp [State.modThr, State.modCore]

theorem cores_modQueue (g : Fin 32) (q : QueueId) (f : Queue → Queue) : (s.modQueue g q f).cores = s.cores := rfl

theorem sameAccess_modThr : SameAccess s (s.modThr n f) where
  manifest := rfl
  fences := rfl
  beds := rfl
  hbm := rfl
  scratch := fun _ => rfl
  slots := by
    intro x
    by_cases hx : x = n
    · subst hx
      simp [State.modThr]
    · have : (n : Nat) ≠ x := fun e => hx (Fin.ext e.symm)
      simp [State.modThr, Vector.getElem_set_ne, this]
end

/-! ### The end of a descriptor -/

section
variable (n : Fin 256) (s : State) (j : ThreadJob)

theorem job_setThreadJob : (s.setThreadJob n j).cores[n].thr.job = some j := by
  rw [State.setThreadJob, thr_modThr]

theorem threadEnd_cases : s.threadEnd n j = s.setThreadJob n j ∨
    ∃ f, s.threadEnd n j =
      (s.modThr n (fun t => { t with job := none, heldCap := 0 })).modQueue (clusterOfCore n) (.thread (coreK n)) f := by
  unfold State.threadEnd
  dsimp only
  split
  · exact .inl rfl
  · split
    · exact .inr ⟨_, rfl⟩
    · split
      · exact .inl rfl
      · exact .inr ⟨_, rfl⟩

theorem onlyCoreQueues_threadEnd : OnlyCoreQueues n s (s.threadEnd n j) := by
  rcases threadEnd_cases n s j with h | ⟨f, h⟩ <;> rw [h]
  · rw [State.setThreadJob]
    exact onlyCoreQueues_modThr _
  · exact (onlyCoreQueues_modThr _).trans (onlyCoreQueues_modQueue _ _ _)

theorem entries_threadEnd : (s.threadEnd n j).cores[n].thr.entries = s.cores[n].thr.entries := by
  rcases threadEnd_cases n s j with h | ⟨f, h⟩ <;> rw [h]
  · rw [State.setThreadJob, thr_modThr]
  · rw [cores_modQueue, thr_modThr]

theorem job_threadEnd {j' : ThreadJob} (h : (s.threadEnd n j).cores[n].thr.job = some j') : j' = j := by
  rcases threadEnd_cases n s j with he | ⟨f, he⟩ <;> rw [he] at h
  · rw [job_setThreadJob] at h
    exact (Option.some.inj h).symm
  · rw [cores_modQueue, thr_modThr] at h
    cases h

/-- What the end of an entry leaves: the counter is taken from `f`, the job, if it goes on, is `j`. -/
theorem threadEnd_modThr (f : ThreadUnit → ThreadUnit) (hf : ∀ x, (f x).entries = x.entries + 1) :
    OnlyCoreQueues n s ((s.modThr n f).threadEnd n j) ∧
    ((s.modThr n f).threadEnd n j).cores[n].thr.entries = s.cores[n].thr.entries + 1 ∧
    ∀ j', ((s.modThr n f).threadEnd n j).cores[n].thr.job = some j' → j' = j :=
  ⟨(onlyCoreQueues_modThr f).trans (onlyCoreQueues_threadEnd n _ j), by rw [entries_threadEnd, thr_modThr, hf],
    fun _ => job_threadEnd n _ j⟩
end

/-- A move of memory, then the end of an entry. -/
theorem OnlyCoreQueues.of_memory {n : Fin 256} {s w t : State} (hw : w = { s with mem := w.mem, hbm := w.hbm })
    (h : OnlyCoreQueues n w t) :
    t = { s with clusters := t.clusters, cores := s.cores.set n t.cores[n], mem := t.mem, hbm := t.hbm } := by
  rw [h.mem, h.hbm]
  conv_lhs => rw [h, hw]

/-! ### The event of a descriptor's fault -/

section
variable (s : State) (g : Fin 32) (q : QueueId) (d : QDesc) (m : Nat) (f : Fail)

theorem countUe_frame : s.countUe f = { s with hbm := (s.countUe f).hbm } := by
  unfold State.countUe
  split <;> rfl

theorem raiseDesc_posts : (s.raiseDesc g q d m f).posts = s.posts := by
  rw [State.raiseDesc, onlyHealth_raise, countUe_frame]

theorem raiseDesc_on (h : s.bedOn bedRot = true) : ∃ e : Event, (s.raiseDesc g q d m f).health.raised = s.health.raised ++ [e] ∧
    e.code = BitVec.ofNat 16 f.code := by
  obtain ⟨e, he, hcode, -⟩ := raise_on (s.countUe f) (queueUnit g q) f.code (s.eventSeason q m) f.arg0 f.arg1
    (dctx (queueCode q) d) (by rwa [countUe_frame])
  exact ⟨e, he.trans (by rw [countUe_frame]), hcode⟩
end

/-! ### Starting -/

section
variable {n : Fin 256} {r : Running} {s : State}

/-- The job of a descriptor that the thread unit takes: thread t's first entry is t (R259). -/
def threadJobOf (r : Running) : ThreadJob :=
  ⟨{ r with phase := .working }, List.range (threadCtl r.q.desc).threads, [], [], false⟩

theorem threadStart_taken {opcode : Nat} (ha : s.activeOp (clusterOfCore n) (.thread (coreK n)) opcode = some r)
    (hp : r.phase = .started) (hc : s.threadCheck n r.q (threadCtl r.q.desc) = .ok ()) :
    threadStart n opcode s = (s.setRunning (clusterOfCore n) (.thread (coreK n)) r { r with phase := .working }).modThr n
      (fun t => { t with job := some (threadJobOf r), turn := 0, heldCap := 0 }) := by
  have hf : (some r).filter (fun r => decide (r.phase = .started)) = some r := by simp [hp]
  unfold threadStart
  simp only [ha, hf, hc]
  rfl

theorem threadStart_frame {opcode : Nat} (ha : s.activeOp (clusterOfCore n) (.thread (coreK n)) opcode = some r)
    (hp : r.phase = .started) (hc : s.threadCheck n r.q (threadCtl r.q.desc) = .ok ()) :
    (threadStart n opcode s).cores[n].thr.job = some (threadJobOf r) ∧
    threadStart n opcode s = { s with
      clusters := s.clusters.set (clusterOfCore n) (threadStart n opcode s).clusters[clusterOfCore n]
      cores := s.cores.set n (threadStart n opcode s).cores[n] } := by
  rw [threadStart_taken ha hp hc]
  exact ⟨by rw [thr_modThr], by simp [State.modThr, State.modCore, State.setRunning, State.modQueue, State.modCluster]⟩
end

/-! ### Issuing -/

/-- The fields of the job's descriptor. -/
abbrev ThreadJob.ctl (j : ThreadJob) : ThreadCtl := threadCtl j.run.q.desc

/-- Thread t's entry i of the job. -/
abbrev State.entryOf (s : State) (n : Fin 256) (j : ThreadJob) (t i : Nat) : Entry := s.threadEntry n j.ctl t i

/-- What the access rules answer for an entry's element. -/
abbrev State.entryFail (s : State) (n : Fin 256) (j : ThreadJob) (t i : Nat) : Option Fail :=
  s.accessFail (j.ctl.who n) (s.entryOf n j t i).remote j.ctl.elem

/-- The job once thread t's entry i is issued: the thread goes on by THREADS (R259). -/
def ThreadJob.issued (j : ThreadJob) (t i : Nat) : ThreadJob :=
  { j with next := listSet j.next t (i + j.ctl.threads), counted := j.counted.filter (fun x => decide (x ≠ t)) }

/-- The core once `k` more threads were found held by the capacity limit (R275). -/
def State.scanned (s : State) (n : Fin 256) (k : Nat) : State := s.modThr n (fun x => { x with capHolds := wrap64 x.capHolds k })

section
variable {n : Fin 256} {j : ThreadJob} {t i k : Nat} {s : State}

theorem nearMove_modThr (c : ThreadCtl) (e : Entry) (f : ThreadUnit → ThreadUnit) :
    (s.modThr n f).nearMove c e = (s.nearMove c e).modThr n f := by
  unfold State.nearMove State.writeMem
  split <;> dsimp only <;> split <;> rfl

/-- A move inside the core's own window changes memory and the stacks' records of their units. -/
theorem nearMove_frame (c : ThreadCtl) (e : Entry) :
    s.nearMove c e = { s with mem := (s.nearMove c e).mem, hbm := (s.nearMove c e).hbm } := by
  unfold State.nearMove
  split <;> exact writeMem_frame _ _ _

/-- The count of held threads changes no entry and no answer of the access rules. -/
theorem entryFail_scanned : (s.scanned n k).entryFail n j t i = s.entryFail n j t i :=
  (sameAccess_modThr n s _).accessFail _ _ _

theorem threadIssue_fails {f : Fail} (hf : s.entryFail n j t i = some f) : s.threadIssue n j t i = s.threadFault n j f := by
  have hf' : s.accessFail (j.ctl.who n) (s.remoteAddr j.ctl i) j.ctl.elem = some f := hf
  simp only [State.threadIssue, hf']

section
variable (hf : s.entryFail n j t i = none)
include hf

theorem threadIssue_near (he : (s.entryOf n j t i).slots = []) : s.threadIssue n j t i =
    (((s.nearMove j.ctl (s.entryOf n j t i)).entryCounted n).modThr n (fun x => { x with turn := t })).threadEnd n (j.issued t i) := by
  have hf' : s.accessFail (j.ctl.who n) (s.remoteAddr j.ctl i) j.ctl.elem = none := hf
  simp only [State.threadIssue, hf', he]
  rfl

theorem threadIssue_far (he : (s.entryOf n j t i).slots ≠ []) : ∃ f, s.threadIssue n j t i =
    (s.modThr n f).setThreadJob n { j.issued t i with inFlight := j.inFlight ++ [s.entryOf n j t i] } := by
  have hf' : s.accessFail (j.ctl.who n) (s.remoteAddr j.ctl i) j.ctl.elem = none := hf
  have he' : (s.entryOf n j t i).slots.isEmpty = false := by simpa using he
  simp only [State.threadIssue, hf', he']
  exact ⟨_, rfl⟩
end

theorem threadIssue_scanned_near (hf : s.entryFail n j t i = none) (he : (s.entryOf n j t i).slots = []) :
    (s.scanned n k).threadIssue n j t i = ((s.nearMove j.ctl (s.entryOf n j t i)).modThr n
      (fun x => { x with turn := t, entries := wrap64 x.entries 1, capHolds := wrap64 x.capHolds k })).threadEnd n (j.issued t i) := by
  have hmove : (s.scanned n k).nearMove j.ctl (s.entryOf n j t i) = (s.nearMove j.ctl (s.entryOf n j t i)).modThr n _ :=
    nearMove_modThr _ _ _
  have hentry : (s.scanned n k).entryOf n j t i = s.entryOf n j t i := rfl
  rw [threadIssue_near (entryFail_scanned.trans hf) he, hentry, hmove, State.entryCounted, modThr_modThr, modThr_modThr]
end

section
variable {n : Fin 256} {j : ThreadJob} {t i : Nat} {held : List Nat} {s : State} (hj : s.cores[n].thr.job = some j)
  (hscan : s.threadScan n j s.cores[n].thr.cap s.cores[n].thr.turn j.next.length = (held, some t)) (hi : j.nextOf t = some i)
include hj hscan hi

theorem exec_threadIssue :
    ∃ k xs, exec (.threadIssue n) s = .next ((s.scanned n k).threadIssue n { j with counted := xs } t i) := by
  have hi' : ∀ xs, ({ j with counted := xs } : ThreadJob).nextOf t = some i := fun _ => hi
  refine ⟨(held.filter (fun t => !j.counted.contains t)).length, j.counted ++ held.filter (fun t => !j.counted.contains t), ?_⟩
  simp only [exec, execThreadIssue, hj, hscan, hi']
  rfl

/-- An issued entry that claims slots joins those in flight; nothing but its core changes. -/
theorem threadIssue_far_yields (hf : s.entryFail n j t i = none) (he : (s.entryOf n j t i).slots ≠ []) :
    Yields (.threadIssue n) s (fun t' => OnlyCore n s t' ∧ ∃ j', t'.cores[n].thr.job = some j' ∧ j'.run = j.run ∧
      j'.next = listSet j.next t (i + j.ctl.threads) ∧ j'.inFlight = j.inFlight ++ [s.entryOf n j t i]) := by
  obtain ⟨k, xs, hx⟩ := exec_threadIssue hj hscan hi
  obtain ⟨f, hfar⟩ := threadIssue_far (j := { j with counted := xs }) ((entryFail_scanned (k := k)).trans hf) he
  rw [hfar] at hx
  refine ⟨_, hx, ?_, _, job_setThreadJob _ _ _, rfl, rfl, rfl⟩
  simp [OnlyCore, State.scanned, State.setThreadJob, State.modThr, State.modCore]

/-- An entry inside the core's own window moves its element and counts at once. -/
theorem threadIssue_near_yields (hf : s.entryFail n j t i = none) (he : (s.entryOf n j t i).slots = []) :
    Yields (.threadIssue n) s (fun t' => t'.cores[n].thr.entries = s.cores[n].thr.entries + 1 ∧
      t'.mem = (s.nearMove j.ctl (s.entryOf n j t i)).mem ∧
      (∀ j', t'.cores[n].thr.job = some j' → j'.inFlight = j.inFlight ∧ j'.next = listSet j.next t (i + j.ctl.threads)) ∧
      t' = { s with clusters := t'.clusters, cores := s.cores.set n t'.cores[n], mem := t'.mem, hbm := t'.hbm }) := by
  obtain ⟨k, xs, hx⟩ := exec_threadIssue hj hscan hi
  rw [threadIssue_scanned_near (j := { j with counted := xs }) hf he] at hx
  have hframe := nearMove_frame (s := s) j.ctl (s.entryOf n j t i)
  obtain ⟨hend, hentries, hjob⟩ := threadEnd_modThr n (s.nearMove j.ctl (s.entryOf n j t i)) ({ j with counted := xs }.issued t i)
    (fun x => { x with turn := t, entries := wrap64 x.entries 1, capHolds := wrap64 x.capHolds k }) (fun _ => rfl)
  refine ⟨_, hx, hentries.trans (by rw [hframe]), hend.mem, fun j' hj' => ?_, hend.of_memory hframe⟩
  rw [hjob j' hj']
  exact ⟨rfl, rfl⟩

/-- The first fault of a descriptor raises its event; memory and the token posts stay. -/
theorem threadIssue_fails_yields {f : Fail} (hf : s.entryFail n j t i = some f) (hok : j.failed = false) :
    Yields (.threadIssue n) s (fun t' => t'.mem = s.mem ∧ t'.posts = s.posts ∧
      (∀ j', t'.cores[n].thr.job = some j' → j'.failed = true ∧ j'.inFlight = j.inFlight) ∧
      (s.bedOn bedRot = true → ∃ e : Event, t'.health.raised = s.health.raised ++ [e] ∧ e.code = BitVec.ofNat 16 f.code)) := by
  obtain ⟨k, xs, hx⟩ := exec_threadIssue hj hscan hi
  rw [threadIssue_fails (j := { j with counted := xs }) (entryFail_scanned.trans hf)] at hx
  simp only [State.threadFault, hok, Bool.false_eq_true, if_false] at hx
  have hend := onlyCoreQueues_threadEnd n ((s.scanned n k).raiseDesc (clusterOfCore n) (.thread (coreK n)) j.run.q j.run.season f)
    { j with counted := xs, failed := true }
  refine ⟨_, hx, hend.mem.trans (raiseDesc_mem ..), hend.posts.trans (raiseDesc_posts ..), fun j' hj' => ?_, fun hrot => ?_⟩
  · rw [job_threadEnd n _ _ hj']
    exact ⟨rfl, rfl⟩
  · rw [hend.health]
    exact raiseDesc_on (s.scanned n k) _ _ _ _ f hrot
end

/-! ### Completing -/

section
variable (s : State) (a b m k : Nat)

theorem badUnits_countWeak (us : List Nat) (x : Stack) : (x.countWeak us).badUnits = x.badUnits := by
  unfold Stack.countWeak
  induction us generalizing x with
  | nil => rfl
  | cons u us ih => rw [List.foldl_cons, ih]; rfl

theorem partPoisoned_noteRead : (s.noteRead b k).partPoisoned a m = s.partPoisoned a m := by
  unfold State.noteRead
  split
  · simp [State.partPoisoned, Vector.toList_map, List.flatMap_map, badUnits_countWeak]
  · rfl

theorem writeMem_noteRead_mem (bs : List Byte) : ((s.noteRead b k).writeMem a bs).mem = (s.writeMem a bs).mem := by
  rw [writeMem_mem, writeMem_mem, partPoisoned_noteRead, noteRead_mem]

@[simp] theorem noteRead_cores : (s.noteRead a m).cores = s.cores := by
  unfold State.noteRead
  split <;> rfl

theorem writeMem_cores (bs : List Byte) : (s.writeMem a bs).cores = s.cores := by rw [writeMem_frame]
end

section
variable {n : Fin 256} {j : ThreadJob} {i : Nat} {e : Entry} {s w : State}

theorem exec_entryComplete (hj : s.cores[n].thr.job = some j) (hi : j.inFlight[i]? = some e) : exec (.entryComplete n i) s =
    .next (if entryInTurn (s.cores[n].thr.orphans ++ j.inFlight.take i) e then s.entryDone n j i e else s) := by
  have hout : s.cores[n].thr.entriesOut[i]? = some e := by
    rw [ThreadUnit.entriesOut, hj]
    exact hi
  simp only [exec, execEntryComplete, hj, hout]
  split <;> rfl

/-- An entry that is in turn and moves its element counts and leaves those in flight. -/
theorem entryComplete_yields (hj : s.cores[n].thr.job = some j) (hi : j.inFlight[i]? = some e)
    (ht : entryInTurn (s.cores[n].thr.orphans ++ j.inFlight.take i) e = true)
    (hm : s.entryMove n (threadCtl j.run.q.desc) e = .ok w) (hw : w.cores = s.cores) :
    Yields (.entryComplete n i) s (fun t => (t.cores[n].thr.entries = s.cores[n].thr.entries + 1 ∧
      ∀ j', t.cores[n].thr.job = some j' → j'.inFlight = listDel j.inFlight i) ∧ t.mem = w.mem) := by
  have hx := exec_entryComplete hj hi
  simp only [ht, if_true, State.entryDone, hm, State.entryCounted] at hx
  obtain ⟨hend, hentries, hjob⟩ := threadEnd_modThr n w { j with inFlight := listDel j.inFlight i }
    (fun x => { x with entries := wrap64 x.entries 1 }) (fun _ => rfl)
  refine ⟨_, hx, ⟨by rw [hentries, hw], fun j' hj' => ?_⟩, hend.mem⟩
  rw [hjob j' hj']

theorem who_load {c : ThreadCtl} (h : c.store = false) : c.who n = .ofCore n (.req 0) := by simp [ThreadCtl.who, h]

theorem who_store {c : ThreadCtl} (h : c.store = true) : c.who n = .ofCore n (.req 1) := by simp [ThreadCtl.who, h]

theorem entryMove_load {c : ThreadCtl} {bs : List Byte} (hc : c.store = false) (hr : e.remote < unitBase)
    (h : s.readChecked (.ofCore n (.req 0)) e.remote c.elem = .ok bs) :
    s.entryMove n c e = .ok ((s.noteRead e.remote c.elem).writeMem e.near bs) := by
  obtain ⟨hf, rfl⟩ := readChecked_ok _ _ _ _ _ h
  simp [State.entryMove, State.remoteRead, hc, who_load hc, hf, Nat.not_le.mpr hr]

theorem entryMove_load_register {c : ThreadCtl} (hc : c.store = false) (hr : unitBase ≤ e.remote)
    (h : s.readFail (.ofCore n (.req 0)) e.remote c.elem = none) :
    s.entryMove n c e = .ok (s.writeMem e.near (leBytes c.elem (s.regRead e.remote c.elem))) := by
  simp [State.entryMove, State.remoteRead, hc, who_load hc, h, hr, noteRead_above _ (Nat.le_trans (by decide) hr)]

theorem entryMove_store {c : ThreadCtl} (hc : c.store = true) (hr : e.remote < unitBase) :
    s.entryMove n c e = s.writeChecked (.ofCore n (.req 1)) e.remote e.data := by
  simp [State.entryMove, State.remoteWrite, hc, who_store hc, Nat.not_le.mpr hr]
end

/-- Settles O32, command by command: what a started command's threads begin with, what issuing an entry does in each of its
three cases, and what completing one does for loads and stores. -/
theorem threadsIssueAndComplete : Obligations.ThreadsIssueAndComplete := by
  refine ⟨fun n r s hp hc =>
      ⟨fun ha => ⟨_, rfl, threadStart_frame ha hp hc⟩, fun ha => ⟨_, rfl, threadStart_frame ha hp hc⟩⟩,
    fun n j t i held s hj hscan hi => ⟨threadIssue_far_yields hj hscan hi, threadIssue_near_yields hj hscan hi,
      fun f => threadIssue_fails_yields hj hscan hi⟩,
    fun n j i e s hj hi => ⟨fun ht => ?_, fun bs ht hc hr hread => ?_, fun ht hc hr hread => ?_, fun w ht hc hr hw => ?_⟩⟩
  · rw [exec_entryComplete hj hi, ht]
    rfl
  · obtain ⟨t, hx, hcount, hmem⟩ := entryComplete_yields hj hi ht (entryMove_load hc hr hread)
      (by rw [writeMem_cores, noteRead_cores])
    rw [writeMem_noteRead_mem] at hmem
    refine ⟨t, hx, hcount, hmem, fun x h => ?_⟩
    rw [hmem]
    exact sameMemoryBut_writeMem _ _ _ x h
  · exact entryComplete_yields hj hi ht (entryMove_load_register hc hr hread) (writeMem_cores _ _ _)
  · obtain ⟨-, -, rfl⟩ := writeChecked_ok _ _ _ _ _ hw
    obtain ⟨t, hx, hcount, hmem⟩ := entryComplete_yields hj hi ht ((entryMove_store hc hr).trans hw) (writeMem_cores _ _ _)
    refine ⟨t, hx, hcount, hmem, fun x h => ?_⟩
    rw [hmem]
    exact sameMemoryBut_writeMem _ _ _ x h

end Sys2Proof.Machine
end

section
/-! PROOFS. Oscillators: the trim of a cluster's oscillator, its measurements and its rate monitor (R50 to R56, R629). -/

namespace Sys2Proof.Machine

theorem getLsbD_trimBit (code : BitVec 12) {b : Nat} (hb : b < 12) (v : Bool) (j : Nat) :
    (trimBit code b v).getLsbD j = if j = b then v else code.getLsbD j := by
  have hone : (1#12 <<< b).getLsbD j = decide (b = j) := by
    rw [← BitVec.twoPow_eq, BitVec.getLsbD_twoPow, decide_eq_true hb, Bool.true_and]
  rcases eq_or_ne b j with rfl | h
  · cases v <;> simp [trimBit, hone]
  · have hc : (decide (j < 12) && code.getLsbD j) = code.getLsbD j := by
      simpa using BitVec.lt_of_getLsbD
    cases v <;> simp [trimBit, hone, h, h.symm, Bool.and_comm (code.getLsbD j), hc]

section
variable {s : State} {g : Fin 32} {count : Nat} {again : Bool} {b : Fin 12}

theorem onlyCluster_modOsc (f : Osc → Osc) : OnlyCluster g s (s.modOsc g f) := onlyCluster_modCluster _

theorem clusters_modOsc (f : Osc → Osc) :
    (s.modOsc g f).clusters[g] = { s.clusters[g] with osc := f s.clusters[g].osc } := by
  simp [State.modOsc]

/-! ### The windows of step 2 (R51) -/

theorem exec_trimWindowEnd (hg : s.clusterOn g = true) (hp : s.clusters[g].osc.phase = .window b) :
    exec (.trimWindowEnd g count) s = .next (s.modOsc g (trimWindowOsc count b)) := by
  simp only [exec, execTrimWindowEnd, hg, if_true, hp]

/-- The bit under test is kept by the count, and the next one is set; a last bit leads to the measurement. -/
theorem trimWindowOsc_spec (o : Osc) :
    (trimWindowOsc count b o).trimCode.getLsbD b.val = decide (count ≤ 163840) ∧
    (b.val = 0 → (trimWindowOsc count b o).phase = .measure true) ∧
    (∀ n : Fin 12, b.val = n.val + 1 →
      (trimWindowOsc count b o).phase = .window n ∧ (trimWindowOsc count b o).trimCode.getLsbD n.val = true) ∧
    (∀ j : Fin 12, j ≠ b → j.val + 1 ≠ b.val → (trimWindowOsc count b o).trimCode.getLsbD j.val = o.trimCode.getLsbD j.val) := by
  obtain ⟨b, hb⟩ := b
  cases b with
  | zero =>
    simp only [trimWindowOsc, getLsbD_trimBit _ hb, windowNominal, if_true]
    refine ⟨rfl, fun _ => trivial, fun n hn => by omega, fun j hj _ => if_neg fun h => hj (Fin.ext h)⟩
  | succ m =>
    have hm : m < 12 := by omega
    simp only [trimWindowOsc, getLsbD_trimBit _ hm, getLsbD_trimBit _ hb, windowNominal, if_true]
    refine ⟨if_neg (by omega), fun h => by omega, fun n hn => ?_, fun j hj hjm => ?_⟩
    · obtain rfl : m = n.val := by omega
      exact ⟨rfl, if_pos rfl⟩
    · rw [if_neg (by omega), if_neg fun h => hj (Fin.ext h)]

/-! ### The measurement of step 3 (R51, R55, R56) -/

/-- The free choice of a rounding (log entry 9). -/
def State.roundsUp (s : State) : Bool := (Config.freeWord s.free).getLsbD 0

theorem trimMeasureEnd_repeats (hg : s.clusterOn g = true) (hp : s.clusters[g].osc.phase = .measure again)
    (hr : trimRepeats count again s.clusters[g].osc = true) :
    exec (.trimMeasureEnd g count) s = .next { s.modOsc g (fun o =>
      { o with error := trimError count s.roundsUp, trimCode := o.trimCode + 1, phase := .measure false }) with free := s.free + 1 } := by
  simp only [exec, execTrimMeasureEnd, hg, if_true, hp, State.freshWord, hr]
  rfl

/-- A trim that ends anchors the oscillator; one that failed raises its event. -/
theorem trimMeasureEnd_ends (hg : s.clusterOn g = true) (hp : s.clusters[g].osc.phase = .measure again)
    (hr : trimRepeats count again s.clusters[g].osc = false) :
    ∃ h, exec (.trimMeasureEnd g count) s =
      .next { s.modOsc g (trimEndOsc count s.roundsUp s.aon.rtc) with health := h, free := s.free + 1 } := by
  simp only [exec, execTrimMeasureEnd, hg, if_true, hp, State.freshWord, hr, Bool.false_eq_true, if_false]
  split
  · exact ⟨_, rfl⟩
  · exact ⟨_, congrArg Host.Outcome.next (onlyHealth_raise ..)⟩

theorem trimMeasureEnd_yields (hg : s.clusterOn g = true) (hp : s.clusters[g].osc.phase = .measure again) :
    Yields (.trimMeasureEnd g count) s (fun t =>
      t = { s with clusters := s.clusters.set g t.clusters[g], health := t.health, free := s.free + 1 } ∧
      (∃ up : Bool, t.clusters[g].osc.error = trimError count up) ∧
      (if trimRepeats count again s.clusters[g].osc then
        t.clusters[g].osc.trimCode = s.clusters[g].osc.trimCode + 1 ∧ t.clusters[g].osc.phase = .measure false
       else t.clusters[g].osc.phase = .idle ∧ t.clusters[g].osc.trimmed = true ∧
        t.clusters[g].osc.anchorTick = s.clusters[g].osc.tick ∧ t.clusters[g].osc.anchorRtc = s.aon.rtc ∧
        t.clusters[g].osc.trimState = if trimWithin30 count then TrimState.locked else .failed)) := by
  cases hr : trimRepeats count again s.clusters[g].osc with
  | true =>
    refine ⟨_, trimMeasureEnd_repeats hg hp hr, ?_, ⟨s.roundsUp, ?_⟩, ?_⟩
    · simp [State.modOsc, State.modCluster]
    all_goals simp only [clusters_modOsc, and_self, if_true]
  | false =>
    obtain ⟨h, hx⟩ := trimMeasureEnd_ends hg hp hr
    refine ⟨_, hx, ?_, ⟨s.roundsUp, ?_⟩, ?_⟩
    · simp [State.modOsc, State.modCluster]
    all_goals simp only [clusters_modOsc, trimEndOsc, Bool.false_eq_true, if_false, and_self]

/-! ### Requests, auto-retrim and the rate monitor (R54 to R56) -/

theorem autoRetrim_yields (hg : s.clusterOn g = true) (ho : s.objNum 0x4021 1 ≠ 0) (ht : s.clusters[g].osc.trimmed = true)
    (hp : s.clusters[g].osc.phase = .idle) :
    Yields (.autoRetrim g count) s (fun t =>
      t = { s with clusters := s.clusters.set g t.clusters[g], free := s.free + 1 } ∧
      (∃ up : Bool, t.clusters[g].osc.error = trimError count up) ∧
      t.clusters[g].osc.anchorTick = s.clusters[g].osc.anchorTick ∧ t.clusters[g].osc.anchorRtc = s.clusters[g].osc.anchorRtc ∧
      t.clusters[g].osc.trimCode = retrimCode count s.clusters[g].osc.trimCode) := by
  have hx : exec (.autoRetrim g count) s = .next { s.modOsc g (fun o =>
      { o with error := trimError count s.roundsUp, trimCode := retrimCode count o.trimCode }) with free := s.free + 1 } := by
    simp only [exec, execAutoRetrim, hg, ho, ht, hp, ne_eq, not_false_eq_true, and_self, if_true]
    rfl
  refine ⟨_, hx, ?_, ⟨s.roundsUp, ?_⟩, ?_⟩
  · simp [State.modOsc, State.modCluster]
  all_goals simp only [clusters_modOsc, and_self]

theorem trimReq_yields (hg : s.clusterOn g = true) (hf : s.clusterFenced g = false) (ht : s.clusters[g].osc.trimState ≠ .trimming) :
    Yields (.trimReq g) s (fun t => OnlyCluster g s t ∧ t.clusters[g] = { s.clusters[g] with
      osc := { s.clusters[g].osc with trimState := .trimming, phase := .measure true } }) := by
  have hx : exec (.trimReq g) s = .next (s.modOsc g (fun o => { o with trimState := .trimming, phase := .measure true })) := by
    simp only [exec, execTrimReq, hg, hf, trimRequest, ht, Bool.not_false, and_self, if_true, if_false]
  exact ⟨_, hx, onlyCluster_modOsc _, clusters_modOsc _⟩

theorem exec_trimReq_trimming (h : s.clusters[g].osc.trimState = .trimming) : exec (.trimReq g) s = .next s := by
  simp only [exec, execTrimReq, trimRequest, h, if_true, ite_self]

theorem rateMonUpdate_yields {f : BitVec 16} (hg : s.clusterOn g = true) :
    Yields (.rateMonUpdate g f) s (fun t => OnlyCluster g s t ∧
      t.clusters[g] = { s.clusters[g] with osc := { s.clusters[g].osc with rateMon := f } }) := by
  have hx : exec (.rateMonUpdate g f) s = .next (s.modOsc g (fun o => { o with rateMon := f })) := by
    simp only [exec, execRateMonUpdate, hg, if_true]
  exact ⟨_, hx, onlyCluster_modOsc _, clusters_modOsc _⟩
end

/-- Settles O1, clause by clause from the lemma of each command. -/
theorem trimSearchesAndMeasures : Obligations.TrimSearchesAndMeasures := by
  refine ⟨fun g count s b hg hp => ⟨_, exec_trimWindowEnd hg hp, onlyCluster_modOsc _, ?_, ?_⟩,
    fun _ _ _ _ => trimMeasureEnd_yields, fun _ _ _ => autoRetrim_yields, fun _ _ => trimReq_yields,
    fun _ _ _ => rateMonUpdate_yields⟩
  · rw [clusters_modOsc]
  · rw [clusters_modOsc]
    exact trimWindowOsc_spec _

/-- Settles O2: the request is looked at only outside TRIMMING, and the end of a measurement is O1's. -/
theorem retrimRequestWhileTrimmingHasNoEffect : Obligations.RetrimRequestWhileTrimmingHasNoEffect := by
  refine ⟨fun _ _ => exec_trimReq_trimming, fun g count s again hg hp hr => ?_⟩
  obtain ⟨t, hx, -, -, hend⟩ := trimMeasureEnd_yields (count := count) hg hp
  rw [hr, if_neg Bool.false_ne_true] at hend
  obtain ⟨-, -, -, -, hstate⟩ := hend
  exact ⟨t, hx, hstate⟩

end Sys2Proof.Machine
end

section
/-! PROOFS. Ballast: what an idle matrix array does (R77 to R83). -/

namespace Sys2Proof.Machine

section
variable {s : State} {n : Fin 256}

/-- The parameters of an idle interval change neither the array's state nor its count. -/
theorem idleParams_ballast (x : Matrix) : (s.idleParams x).ballast = x.ballast ∧ (s.idleParams x).ballastFirings = x.ballastFirings := by
  unfold State.idleParams
  split <;> exact ⟨rfl, rfl⟩

theorem onlyCore_modMatrix (f : Matrix → Matrix) : OnlyCore n s (s.modMatrix n f) := by
  simp [OnlyCore, State.modMatrix, State.modCore]

theorem cores_modMatrix (f : Matrix → Matrix) : (s.modMatrix n f).cores[n] = { s.cores[n] with mtx := f s.cores[n].mtx } := by
  simp [State.modMatrix]

theorem ballastFiring_yields (hl : s.clusterLive (clusterOfCore n) = true)
    (ht : s.beds[bedCluster (clusterOfCore n).val].target = true) (hw : s.cores[n].mtx.ballast ≠ .woundDown)
    (hr : s.arrayReady n = false) (hf : s.matrixFires n = false) (hgap : (s.idleParams s.cores[n].mtx).gapNs ≠ 0) :
    Yields (.ballastFiring n) s (fun t => OnlyCore n s t ∧ t.cores[n] = { s.cores[n] with
      mtx := { s.idleParams s.cores[n].mtx with ballast := .ballast, ballastFirings := s.cores[n].mtx.ballastFirings + 1 } }) := by
  obtain ⟨hb, hc⟩ := idleParams_ballast (s := s) s.cores[n].mtx
  have hx : exec (.ballastFiring n) s = .next (s.modMatrix n (fun _ => { s.idleParams s.cores[n].mtx with
      ballast := .ballast, ballastFirings := s.cores[n].mtx.ballastFirings + 1 })) := by
    simp only [exec, execBallastFiring, hl, ht, hb, hw, hr, hf, hgap, hc, ne_eq, not_false_eq_true, Bool.not_false, and_self, if_true,
      if_false]
    rfl
  exact ⟨_, hx, onlyCore_modMatrix _, cores_modMatrix _⟩

/-- No ballast under an off request, out of work time, before the first pass, or with a pass to fire (R77, R81). -/
theorem exec_ballastFiring_stays (h : s.beds[bedCluster (clusterOfCore n).val].target = false ∨
    s.clusterLive (clusterOfCore n) = false ∨ s.cores[n].mtx.ballast = .woundDown ∨ s.arrayReady n = true ∨
    s.matrixFires n = true) : exec (.ballastFiring n) s = .next s := by
  have hb := (idleParams_ballast (s := s) s.cores[n].mtx).1
  rcases h with h | h | h | h | h <;>
    simp only [exec, execBallastFiring, hb, h, ne_eq, not_true_eq_false, Bool.not_true, Bool.false_eq_true, false_and, and_false, if_false]

theorem ballastWindDown_yields (hl : s.clusterLive (clusterOfCore n) = true) (hw : s.cores[n].mtx.ballast ≠ .woundDown)
    (hr : s.arrayReady n = false) (hf : s.matrixFires n = false) (hgap : (s.idleParams s.cores[n].mtx).gapNs ≠ 0) :
    Yields (.ballastWindDown n) s (fun t => OnlyCore n s t ∧ t.cores[n] = { s.cores[n] with
      mtx := { s.idleParams s.cores[n].mtx with ballast := .woundDown } }) := by
  have hb := (idleParams_ballast (s := s) s.cores[n].mtx).1
  have hx : exec (.ballastWindDown n) s =
      .next (s.modMatrix n (fun _ => { s.idleParams s.cores[n].mtx with ballast := .woundDown })) := by
    simp only [exec, execBallastWindDown, hl, hb, hw, hr, hf, hgap, ne_eq, not_false_eq_true, Bool.not_false, and_self, if_true, if_false]
  exact ⟨_, hx, onlyCore_modMatrix _, cores_modMatrix _⟩

theorem ballastRampStep_yields {q : Fin 4} (h : s.cores[n].mtx.ballast = .ramp q) :
    Yields (.ballastRampStep n) s (fun t => OnlyCore n s t ∧ t.cores[n] = { s.cores[n] with
      mtx := { s.cores[n].mtx with ballast := if q = 3 then BallastState.busy else .ramp (q + 1) } }) := by
  have hx : exec (.ballastRampStep n) s = .next (s.modMatrix n (fun x =>
      { x with ballast := if q = 3 then BallastState.busy else .ramp (q + 1) })) := by
    simp only [exec, execBallastRampStep, h]
  exact ⟨_, hx, onlyCore_modMatrix _, cores_modMatrix _⟩
end

/-- Settles O7, clause by clause from the lemma of each command. -/
theorem ballastFillsWindsDownAndRamps : Obligations.BallastFillsWindsDownAndRamps :=
  ⟨fun _ _ => ballastFiring_yields, fun _ _ => exec_ballastFiring_stays, fun _ _ => ballastWindDown_yields,
    fun _ _ _ => ballastRampStep_yields⟩

end Sys2Proof.Machine
end

section
/-! PROOFS. Objects: writes of numeric objects, and what of them reaches the flash (R47, R504 to R506). -/

namespace Sys2Proof.Machine

section
variable {s t : State} {i sub n st : Nat} {o : ObjSpec} {w : Fin 16} {v : ObjValue}

theorem objNum_setObjNum_same : (s.setObjNum i sub n).objNum i sub = n := by
  simp [State.objNum, State.setObjNum]

theorem objNum_setObjNum_other {j m : Nat} (h : objKey j m ≠ objKey i sub) : (s.setObjNum i sub n).objNum j m = s.objNum j m := by
  simp [State.objNum, State.setObjNum, tabFind_tabSet_other _ _ _ _ h]

/-! ### A write as a command of its own -/

/-- What a write leaves to do changes the agent alone, unless it asks for a restart. -/
theorem afterWrite_agent (h : st = statusOk → asksRestart i sub v = false) :
    ∃ a : Agent, s.afterWrite st i sub v = { s with agent := a } ∧ a.lastStatus = s.agent.lastStatus := by
  unfold State.afterWrite
  split
  · exact ⟨_, rfl, rfl⟩
  · rename_i hst
    rw [if_neg (by simp [h (not_not.mp hst)])]
    split
    · exact ⟨_, rfl, rfl⟩
    · exact ⟨_, rfl, rfl⟩

theorem command_answers (ha : s.agentUp = true) (hw : s.writeObject ownerWriter i sub v = (st, t))
    (hr : st = statusOk → asksRestart i sub v = false) :
    ∃ a : Agent, s.command i sub v = { t with agent := a } ∧ a.lastStatus = st := by
  obtain ⟨a, hafter, hstatus⟩ := afterWrite_agent (s := t.modAgent (fun a => { a with lastStatus := st })) hr
  refine ⟨({ t with agent := a } : State).noteSubs.agent, ?_, hstatus⟩
  simp only [State.command, ha, if_true, hw, hafter]
  rfl

/-- A write that is refused changes nothing but the agent. -/
theorem command_refused (ha : s.agentUp = true) (hw : s.writeObject ownerWriter i sub v = (st, s)) (hst : st ≠ statusOk) :
    (s.command i sub v).agent.lastStatus = st ∧ s.command i sub v = { s with agent := (s.command i sub v).agent } := by
  obtain ⟨a, hx, hstatus⟩ := command_answers ha hw fun h => absurd h hst
  rw [hx]
  exact ⟨hstatus, rfl⟩

/-! ### The checks of a write (R504 to R506) -/

theorem writeDenied_owner (h : o.access = .rw ∨ o.access = .rws) : s.writeDenied ownerWriter o = none := by
  rcases h with h | h <;> simp [State.writeDenied, h, ownerWriter]

theorem writeObject_fixed (hf : s.findObj i sub = .ok o) (h : o.access = .const ∨ o.access = .ro) :
    s.writeObject ownerWriter i sub v = (statusAccess, s) := by
  have hd : s.writeDenied ownerWriter o = some statusAccess := by
    rcases h with h | h <;> simp [State.writeDenied, h]
  simp only [State.writeObject, hf, State.writeValue, hd]

section
variable (hf : s.findObj i sub = .ok o) (ha : o.access = .rw ∨ o.access = .rws) (hw : w.val = o.type)
  (ht : isNumType o.type = true)
include hf ha hw ht

theorem writeObject_num (hlt : n < 256 ^ objTypeBytes o.type) (hn : s.numOk o n = true) :
    s.writeObject ownerWriter i sub (.num w n) = s.applyNum ownerWriter o.index o.sub n := by
  simp [State.writeObject, hf, State.writeValue, writeDenied_owner ha, hw, ht, Nat.not_le.mpr hlt, hn]

theorem writeObject_num_range (hn : s.numOk o n = false) : s.writeObject ownerWriter i sub (.num w n) = (statusRange, s) := by
  simp [State.writeObject, hf, State.writeValue, writeDenied_owner ha, hw, ht, hn]
end

/-- The indices whose numeric objects have an effect of their own. -/
abbrev effectIndices : List Nat := [0x2020, 0x2022, 0x2030, 0x3003, 0x4020, 0x5021, 0x7001, 0x7004, 0xA001]

theorem applyNum_plain (h : i ∉ effectIndices) : s.applyNum ownerWriter i sub n = (statusOk, s.setObjNum i sub n) := by
  unfold State.applyNum
  split
  case h_10 => rfl
  all_goals exact absurd (by decide) h

/-- A numeric value in range of an object without an effect is held by the object alone. -/
theorem command_num_yields (hs : s.agentUp = true) (hf : s.findObj i sub = .ok o) (hi : o.index = i) (hk : o.sub = sub)
    (ha : o.access = .rw ∨ o.access = .rws) (hw : w.val = o.type) (ht : isNumType o.type = true)
    (hlt : n < 256 ^ objTypeBytes o.type) (hn : s.numOk o n = true) (he : i ∉ effectIndices) :
    (s.command i sub (.num w n)).objNum i sub = n ∧
    (∀ j m, objKey j m ≠ objKey i sub → (s.command i sub (.num w n)).objNum j m = s.objNum j m) ∧
    (s.command i sub (.num w n)).agent.lastStatus = statusOk ∧
    s.command i sub (.num w n) = { s with objs := (s.command i sub (.num w n)).objs, agent := (s.command i sub (.num w n)).agent } := by
  have hwrite := writeObject_num hf ha hw ht hlt hn
  rw [hi, hk, applyNum_plain he] at hwrite
  have hrestart : asksRestart i sub (.num w n) = false := by
    have : i ≠ 0x2022 := fun h => he (by simp [h])
    simp [asksRestart, this]
  obtain ⟨a, hx, hstatus⟩ := command_answers hs hwrite fun _ => hrestart
  rw [hx]
  exact ⟨objNum_setObjNum_same, fun j m h => objNum_setObjNum_other h, hstatus, rfl⟩

/-! ### The ballast parameters (R83) -/

/-- Looking at the arrays that are idle changes the cores alone. -/
theorem noteIdle_cores : ∃ cs, s.noteIdle = { s with cores := cs } := by
  unfold State.noteIdle
  generalize List.finRange 256 = ns
  induction ns generalizing s with
  | nil => exact ⟨_, rfl⟩
  | cons n ns ih =>
    rw [List.foldl_cons]
    split
    · exact ih
    · obtain ⟨cs, h⟩ := ih (s := s.modMatrix n s.idleParams)
      exact ⟨cs, h⟩

theorem command_ballast_yields (hs : s.agentUp = true) (hf : s.findObj 0x4020 sub = .ok o) (hi : o.index = 0x4020) (hk : o.sub = sub)
    (ha : o.access = .rw ∨ o.access = .rws) (hw : w.val = o.type) (ht : isNumType o.type = true)
    (hlt : n < 256 ^ objTypeBytes o.type) (hn : s.numOk o n = true) :
    (s.command 0x4020 sub (.num w n)).objNum 0x4020 sub = n ∧ (s.command 0x4020 sub (.num w n)).agent.lastStatus = statusOk ∧
    s.command 0x4020 sub (.num w n) = { s with objs := (s.command 0x4020 sub (.num w n)).objs
                                               agent := (s.command 0x4020 sub (.num w n)).agent
                                               cores := (s.command 0x4020 sub (.num w n)).cores } := by
  have hwrite := writeObject_num hf ha hw ht hlt hn
  obtain ⟨cs, hcs⟩ := noteIdle_cores (s := s)
  have happly : s.applyNum ownerWriter 0x4020 sub n = (statusOk, s.noteIdle.setObjNum 0x4020 sub n) := rfl
  rw [hi, hk, happly, hcs] at hwrite
  obtain ⟨a, hx, hstatus⟩ := command_answers hs hwrite fun _ => by simp [asksRestart]
  rw [hx]
  exact ⟨objNum_setObjNum_same, hstatus, rfl⟩
end

/-! ### VCORE_SETPOINT (R47) -/

section
variable {s : State} (d : Fin 4) {mv : Nat}

/-- VCORE_SETPOINT of a die in the object table (R47). -/
def vcoreSpec : ObjSpec := mkObj 0x2010 (d.val + 1) 2 .rws 700 (.step 600 800 5)

theorem objFind_vcore : objFind 0x2010 (d.val + 1) = some (vcoreSpec d) := by
  revert d
  decide +kernel

theorem findObj_vcore (h : s.servesIndex 0x2010 = true) : s.findObj 0x2010 (d.val + 1) = .ok (vcoreSpec d) := by
  have hh : objHighest 0x2010 ≠ 0 := by decide +kernel
  simp [State.findObj, hh, h, objSpecAt, objFind_vcore]

theorem numOk_vcore : s.numOk (vcoreSpec d) mv = decide (600 ≤ mv ∧ mv ≤ 800 ∧ mv % 5 = 0) := by
  simp [State.numOk, vcoreSpec, mkObj, objInRange]

theorem vcoreSetpointWrite_yields (ha : s.agentUp = true) (hs : s.servesIndex 0x2010 = true) (hlo : 600 ≤ mv) (hhi : mv ≤ 800)
    (h5 : mv % 5 = 0) :
    Yields (.vcoreSetpointWrite d mv) s (fun t => t.objNum 0x2010 (d.val + 1) = mv ∧ t.agent.lastStatus = statusOk ∧
      t = { s with objs := t.objs, agent := t.agent }) := by
  have hlt : mv < 256 ^ objTypeBytes (vcoreSpec d).type := Nat.lt_of_le_of_lt hhi (by simp [vcoreSpec, mkObj, objTypeBytes])
  obtain ⟨hnum, -, hstatus, hframe⟩ := command_num_yields (w := 2) ha (findObj_vcore d hs) rfl rfl (.inr rfl) rfl rfl hlt
    (by rw [numOk_vcore]; exact decide_eq_true ⟨hlo, hhi, h5⟩) (by decide)
  exact ⟨_, rfl, hnum, hstatus, hframe⟩

theorem vcoreSetpointWrite_refused (ha : s.agentUp = true) (hs : s.servesIndex 0x2010 = true)
    (h : mv < 600 ∨ 800 < mv ∨ mv % 5 ≠ 0) :
    Yields (.vcoreSetpointWrite d mv) s (fun t => t.agent.lastStatus = statusRange ∧ t = { s with agent := t.agent }) :=
  ⟨_, rfl, command_refused ha (writeObject_num_range (w := 2) (findObj_vcore d hs) (.inr rfl) rfl rfl
    (by rw [numOk_vcore]; exact decide_eq_false (by omega))) (by decide)⟩
end

theorem rwsFlashWrite_yields {s : State} {i : BitVec 16} {k : Byte} {o : ObjSpec} {v : Nat} (hrot : s.bedOn bedRot = true)
    (ho : objFind i.toNat k.toNat = some o) (ha : o.access = .rws) (hk : objKeepsNothing i.toNat k.toNat = false)
    (ht : isNumType o.type = true) (hv : tabFind s.objs.nums (objKey i.toNat k.toNat) = some v) :
    Yields (.rwsFlashWrite i k) s (fun t => tabFind t.objs.flashNums (objKey i.toNat k.toNat) = some v ∧
      t.objs.nums = s.objs.nums ∧ t = { s with objs := t.objs }) := by
  have hx : exec (.rwsFlashWrite i k) s =
      .next (s.modObjs (fun x => { x with flashNums := tabSet x.flashNums (objKey i.toNat k.toNat) v })) := by
    simp [exec, execRwsFlashWrite, ho, ha, hk, hrot, ht, hv]
  exact ⟨_, hx, tabFind_tabSet_same .., rfl, rfl⟩

/-- Settles O51, clause by clause: a plain write, the ballast parameters, VCORE_SETPOINT, a fixed object, the flash. -/
theorem objectWritesTakeTheirValue : Obligations.ObjectWritesTakeTheirValue := by
  refine ⟨fun i k o ty n s hs hf hi hk ha hty ht hlt hn he w hw => ?_, fun k o w n s hs hf hi hk ha hw ht hlt hn => ?_,
    fun d _ _ => vcoreSetpointWrite_yields d, fun d _ _ => vcoreSetpointWrite_refused d, fun i k o v s hs hf ha => ?_,
    fun _ _ _ _ _ => rwsFlashWrite_yields⟩
  · exact ⟨_, rfl, command_num_yields hs hf hi hk ha (hw.trans hty) ht hlt hn he⟩
  · exact ⟨_, rfl, command_ballast_yields hs hf hi hk ha hw ht hlt hn⟩
  · exact ⟨_, rfl, command_refused hs (writeObject_fixed hf ha) (by decide)⟩

end Sys2Proof.Machine
end

section
/-! PROOFS. Traffic: what sending frames and following the pauses leave as they were (R58, R68, R74 to R76, R468). -/

namespace Sys2Proof.Machine

/-- What may differ of a host port that has sent frames: two counts, what it holds paused, and its sub-ports' packet numbers. -/
structure HostPort.Sends (p q : HostPort) : Prop where
  port : q = { p with framesTx := q.framesTx, pfcTx := q.pfcTx, pausing := q.pausing, ingestPausing := q.ingestPausing, subs := q.subs }
  subs : ∀ i : Fin 4, q.subs[i] = { p.subs[i] with txPn := q.subs[i].txPn }

namespace HostPort.Sends
variable {p q r : HostPort}

theorem refl : p.Sends p := ⟨rfl, fun _ => rfl⟩

theorem trans (h : p.Sends q) (k : q.Sends r) : p.Sends r :=
  ⟨by rw [k.port, h.port], fun i => by rw [k.subs i, h.subs i]⟩

theorem qps (h : p.Sends q) : q.qps = p.qps := by rw [h.port]
theorem accepted (h : p.Sends q) : q.accepted = p.accepted := by rw [h.port]
theorem framesRx (h : p.Sends q) : q.framesRx = p.framesRx := by rw [h.port]
theorem pfcRx (h : p.Sends q) : q.pfcRx = p.pfcRx := by rw [h.port]
theorem accessNaks (h : p.Sends q) : q.accessNaks = p.accessNaks := by rw [h.port]
theorem ingestPrio (h : p.Sends q) : q.ingestPrio = p.ingestPrio := by rw [h.port]
theorem paused (h : p.Sends q) (i : Fin 4) : q.subs[i].paused = p.subs[i].paused := by rw [h.subs i]
end HostPort.Sends

/-- Frames have gone out, or were held back: nothing but the host ports, by `HostPort.Sends`, and what they send changes. -/
structure Outgoing (s t : State) : Prop where
  frame : t = { s with hosts := t.hosts, sent := t.sent, heldHost := t.heldHost }
  sends : ∀ h : Fin 2, s.hosts[h].Sends t.hosts[h]

namespace Outgoing
variable {s t u : State}

theorem refl : Outgoing s s := ⟨rfl, fun _ => .refl⟩

theorem trans (h : Outgoing s t) (k : Outgoing t u) : Outgoing s u :=
  ⟨by rw [k.frame, h.frame], fun i => (h.sends i).trans (k.sends i)⟩

theorem foldl {α : Type} {f : State → α → State} (hf : ∀ s x, Outgoing s (f s x)) (xs : List α) (s : State) :
    Outgoing s (xs.foldl f s) := by
  induction xs generalizing s with
  | nil => exact refl
  | cons x xs ih => exact (hf s x).trans (ih _)

theorem ite {p : Prop} [Decidable p] (h : Outgoing s t) (k : Outgoing s u) : Outgoing s (if p then t else u) := by
  split <;> assumption

theorem modHost {h : Fin 2} {f : HostPort → HostPort} (hf : s.hosts[h].Sends (f s.hosts[h])) : Outgoing s (s.modHost h f) := by
  refine ⟨rfl, fun i => ?_⟩
  by_cases hi : i = h
  · subst hi
    simpa using hf
  · have : (h : Nat) ≠ i := fun e => hi (Fin.ext e.symm)
    simp [Vector.getElem_set_ne, this, HostPort.Sends.refl]
end Outgoing

section
variable (s : State) (h : Fin 2)

theorem outgoing_send (m : Sent) : Outgoing s (s.send m) := ⟨rfl, fun _ => .refl⟩

theorem outgoing_sendPfc (prio time : Nat) : Outgoing s (s.sendPfc h prio time) :=
  .foldl (fun s _ => (outgoing_send s _).trans (.modHost ⟨rfl, fun _ => rfl⟩)) _ _

theorem outgoing_sendPfcs (prios : List Nat) (time : Nat) : Outgoing s (s.sendPfcs h prios time) :=
  .foldl (fun s p => outgoing_sendPfc s h p time) _ _

theorem outgoing_syncPause : Outgoing s (s.syncPause h) := by
  simp only [State.syncPause]
  exact (Outgoing.ite .refl ((Outgoing.ite (outgoing_sendPfc ..) .refl).trans (.modHost ⟨rfl, fun _ => rfl⟩))).trans
    (Outgoing.ite .refl ((Outgoing.ite (outgoing_sendPfcs ..) .refl).trans (.modHost ⟨rfl, fun _ => rfl⟩)))

theorem outgoing_framesOut (sub n : Nat) : Outgoing s (s.framesOut h sub n) := by
  unfold State.framesOut State.modSub
  refine .trans (.modHost ⟨rfl, fun _ => rfl⟩) (.modHost ⟨rfl, fun i => ?_⟩)
  by_cases hi : i = fin4 sub
  · subst hi
    simp
  · have : (fin4 sub : Nat) ≠ i := fun e => hi (Fin.ext e.symm)
    simp [Vector.getElem_set_ne, this]

theorem outgoing_sendFrame (e : HeldFrame) : Outgoing s (s.sendFrame e) := by
  simp only [State.sendFrame]
  split
  · exact .refl
  · split
    · exact ⟨rfl, fun _ => .refl⟩
    · exact (outgoing_send s _).trans (outgoing_framesOut _ _ _ _)

theorem outgoing_flushHost : Outgoing s s.flushHost :=
  .trans (t := { s with heldHost := [] }) ⟨rfl, fun _ => .refl⟩ (.foldl outgoing_sendFrame _ _)

/-- With nothing held back there is nothing to let go. -/
theorem flushHost_nil (hh : s.heldHost = []) : s.flushHost = s := by
  unfold State.flushHost
  rw [hh, List.foldl_nil, ← hh]

theorem sendMgmt_frame (m : Sent) : s.sendMgmt m = { s with sent := (s.sendMgmt m).sent, heldMgmt := (s.sendMgmt m).heldMgmt } := by
  unfold State.sendMgmt
  split <;> rfl

theorem flushMgmt_frame : s.flushMgmt = { s with sent := s.flushMgmt.sent, heldMgmt := s.flushMgmt.heldMgmt } := by
  have key : ∀ (ms : List Sent) (t : State), ms.foldl State.sendMgmt t =
      { t with sent := (ms.foldl State.sendMgmt t).sent, heldMgmt := (ms.foldl State.sendMgmt t).heldMgmt } := by
    intro ms
    induction ms with
    | nil => exact fun _ => rfl
    | cons m ms ih =>
      intro t
      rw [List.foldl_cons, ih, sendMgmt_frame]
  unfold State.flushMgmt
  rw [key]
end

end Sys2Proof.Machine
end

section
/-! PROOFS. Fifos: the commands of the boundary FIFOs (R58 to R70). -/

namespace Sys2Proof.Machine

/-! ### Putting a FIFO back -/

section
variable (s : State) (f : FifoId) (x : Fifo)

/-- What a FIFO put back changes but for the FIFOs: pauses and held messages follow its FLOW output. -/
theorem putFifo_cases : Outgoing (s.setFifo f x) (s.putFifo f x) ∨ s.putFifo f x = (s.setFifo f x).flushMgmt := by
  unfold State.putFifo
  split
  · exact .inl (outgoing_flushHost _)
  · exact .inr rfl
  · split
    · exact .inl (outgoing_syncPause _ _)
    · exact .inl .refl

theorem putFifo_fifos : (s.putFifo f x).fifos = tabSet s.fifos (fifoKey f) x := by
  rcases putFifo_cases s f x with h | h
  · rw [h.frame]; rfl
  · rw [h, flushMgmt_frame]; rfl

theorem putFifo_frame : s.putFifo f x = { s with
    fifos := (s.putFifo f x).fifos, hosts := (s.putFifo f x).hosts, sent := (s.putFifo f x).sent
    heldHost := (s.putFifo f x).heldHost, heldMgmt := (s.putFifo f x).heldMgmt } := by
  rcases putFifo_cases s f x with h | h
  · conv_lhs => rw [h.frame]
    rw [h.frame]; rfl
  · rw [h, flushMgmt_frame]; rfl

theorem fifo_setFifo : (s.setFifo f x).fifo f = x := tabGet_tabSet_same ..

theorem fifo_putFifo : (s.putFifo f x).fifo f = x := by
  rw [State.fifo, putFifo_fifos, tabGet_tabSet_same]
end

/-! ### The writer's side (R59 to R63, R66, R68) -/

section
variable {s : State} {f : FifoId} {m n bits : Nat} {abort : Bool} {put : FifoPut} {x : Fifo}

theorem exec_fifoWrite (hw : s.fifoWorks f = true) (hp : fifoPut f.kind put (s.fifo f) = some x) :
    exec (.fifoWrite f put) s = .next (s.putFifo f x) := by
  simp only [exec, execFifoWrite, hw, if_true, hp]

theorem exec_fifoWrite_held (hp : fifoPut f.kind put (s.fifo f) = none) : exec (.fifoWrite f put) s = .next s := by
  simp only [exec, execFifoWrite, hp, ite_self]

theorem fifoPut_data (hf : x.full = false) (hk : fifoMaxPacket f.kind = none ∨
    ∃ m n, fifoMaxPacket f.kind = some m ∧ openPacket x.items = some n ∧ n + 1 ≤ m) :
    fifoPut f.kind (.data bits) x = some (fifoPush (fifoDepth f.kind) ⟨.data, bits % 2 ^ fifoWidth f.kind, none, false⟩ x) := by
  rcases hk with hk | ⟨m, n, hk, ho, hn⟩
  · simp [fifoPut, hf, hk]
  · simp [fifoPut, hf, hk, ho, hn]

theorem fifoPut_head (hf : x.full = false) (hk : fifoMaxPacket f.kind = some m) (ho : openPacket x.items = none) :
    fifoPut f.kind .head x = some (fifoPush (fifoDepth f.kind) ⟨.head, 0, none, false⟩ x) := by
  simp [fifoPut, hf, hk, ho]

theorem fifoPut_last (hf : x.full = false) (hk : fifoMaxPacket f.kind = some m) (ho : openPacket x.items = some n) (hn : n ≤ m) :
    fifoPut f.kind (.last bits abort) x =
      some { fifoPush (fifoDepth f.kind) ⟨.last, bits % 2 ^ fifoWidth f.kind, none, false⟩ x with
        items := closeHead n abort (x.items ++ [⟨.last, bits % 2 ^ fifoWidth f.kind, none, false⟩]) } := by
  simp [fifoPut, hf, hk, ho, hn, fifoPush, fifoWriterFlags]

/-- A full FIFO, and one that an item does not fit, take nothing. -/
theorem fifoPut_none {k : FifoKind} (h : x.full = true ∨
      ((fifoMaxPacket k).isSome = true ∧ put = .head ∧ (openPacket x.items).isSome = true) ∨
      (∃ bits m, fifoMaxPacket k = some m ∧ put = .data bits ∧ ∀ n, openPacket x.items = some n → m < n + 1) ∨
      (∃ bits a m, fifoMaxPacket k = some m ∧ put = .last bits a ∧ ∀ n, openPacket x.items = some n → m < n) ∨
      (fifoMaxPacket k = none ∧ ∀ bits, put ≠ .data bits)) : fifoPut k put x = none := by
  unfold fifoPut
  by_cases hf : x.full = true
  · rw [if_pos hf]
  rw [if_neg hf]
  rcases h with h | ⟨hk, rfl, ho⟩ | ⟨bits, m, hk, rfl, ho⟩ | ⟨bits, a, m, hk, rfl, ho⟩ | ⟨hk, hp⟩
  · exact absurd h hf
  · obtain ⟨m, hk⟩ := Option.isSome_iff_exists.mp hk
    obtain ⟨n, ho⟩ := Option.isSome_iff_exists.mp ho
    simp only [hk, ho]
  · cases hx : openPacket x.items with
    | none => simp only [hk]
    | some n => simp only [hk, Nat.not_le.mpr (ho n hx), if_false]
  · cases hx : openPacket x.items with
    | none => simp only [hk]
    | some n => simp only [hk, Nat.not_le.mpr (ho n hx), if_false]
  · cases put with
    | data bits => exact absurd rfl (hp bits)
    | head => simp only [hk]
    | last bits a => simp only [hk]

/-- A write that stores gives the FIFO `x`; only the FIFOs and what follows a FLOW output change. -/
theorem fifoWrite_yields (hw : s.fifoWorks f = true) (hp : fifoPut f.kind put (s.fifo f) = some x) :
    Yields (.fifoWrite f put) s (fun t => t.fifo f = x ∧
      t = { s with fifos := t.fifos, hosts := t.hosts, sent := t.sent, heldHost := t.heldHost, heldMgmt := t.heldMgmt }) :=
  ⟨_, exec_fifoWrite hw hp, fifo_putFifo .., putFifo_frame ..⟩
end

/-! ### The reader's side, crossings and watermarks (R62, R65, R67, R68, R70) -/

section
variable {s : State} {f : FifoId}

theorem exec_fifoRead_empty (hw : s.fifoWorks f = true) (he : (s.fifo f).empty = true) :
    exec (.fifoRead f) s = .next (s.setFifo f { s.fifo f with lastRead := idleItem }) := by
  simp only [exec, execFifoRead, hw, he, if_true]

theorem exec_fifoRead_take (hw : s.fifoWorks f = true) (he : (s.fifo f).empty = false) :
    exec (.fifoRead f) s = .next (s.setFifo f (fifoTake (s.fifo f))) := by
  simp only [exec, execFifoRead, hw, he, if_true, Bool.false_eq_true, if_false]

/-- The head is taken, and given to the reader unless its packet is discarded (R61, R65). -/
theorem fifoTake_head {x : Fifo} {i : FifoItem} {rest : List FifoItem} (h : x.items = i :: rest) :
    (fifoTake x).items = rest ∧ (fifoTake x).rptr = x.rptr + 1 ∧
    (x.discard = false → i.abort = false → (fifoTake x).lastRead = i) := by
  simp only [fifoTake, h]
  refine ⟨trivial, trivial, fun hd ha => ?_⟩
  rw [hd, ha, Bool.and_false, Bool.or_false, if_neg Bool.false_ne_true]

theorem exec_pointerCrossing {side : FifoSide} (hw : s.fifoWorks f = true) :
    exec (.pointerCrossing f side) s = .next (s.putFifo f (fifoCross f.kind side (s.fifo f))) := by
  simp only [exec, execPointerCrossing, hw, if_true]

/-- EMPTY clears for what is visible (R62, R67). -/
theorem empty_fifoCross (k : FifoKind) (x : Fifo) :
    (fifoCross k .reader x).empty = decide (visibleItems x.items = 0) := by
  simp [fifoCross]

section
variable {v : U32} (hok : f.ok = true) (hb : s.bedOn (regBed (fifoUnit f).1) = true)
  (hf : (regFenceUnit (fifoUnit f).1).any s.fenced = false)
include hok hb hf

theorem exec_wmWrite : exec (.wmWrite f v) s = .next (s.writeWm f v.toNat) := by
  simp [exec, execWmWrite, hok, hb, hf]

/-- The FIFO with WM written: FLOW follows the new marks at once (R70). -/
theorem exec_wmWrite_valid (hlow : v.toNat / 65536 < v.toNat % 65536) (hhigh : v.toNat % 65536 ≤ fifoDepth f.kind) :
    exec (.wmWrite f v) s = .next (s.putFifo f
      (fifoWriterFlags (fifoDepth f.kind) { s.fifo f with high := v.toNat % 65536, low := v.toNat / 65536 })) := by
  have hmod : v.toNat / 65536 % 65536 = v.toNat / 65536 := Nat.mod_eq_of_lt (by omega)
  simp only [exec_wmWrite hok hb hf, State.writeWm, hmod, wmOk, hlow, hhigh, and_self, decide_true, if_true]

theorem wmWrite_refused_yields (h : v.toNat % 65536 ≤ v.toNat / 65536 ∨ fifoDepth f.kind < v.toNat % 65536) :
    Yields (.wmWrite f v) s (fun t => OnlyHealth s t ∧
      (s.bedOn bedRot = true → ∃ e : Event, t.health.raised = s.health.raised ++ [e] ∧ e.code = 0x0102)) := by
  have hmod : v.toNat / 65536 % 65536 = v.toNat / 65536 := Nat.mod_eq_of_lt (by omega)
  have hbad : wmOk f.kind (v.toNat % 65536) (v.toNat / 65536) = false := decide_eq_false (by omega)
  have hx := exec_wmWrite (v := v) hok hb hf
  simp only [State.writeWm, hmod, hbad, Bool.false_eq_true, if_false] at hx
  refine ⟨_, hx, onlyHealth_raise .., fun hrot => ?_⟩
  obtain ⟨e, he, hcode, -⟩ := raise_on s (regUid (fifoUnit f).1) 0x0102 s.seasonMin (fifoRegAddr f) v.toNat 0 hrot
  exact ⟨e, he, hcode⟩
end
end

/-- Settles O3: each command puts back one FIFO, whose fields are read off, and what follows a FLOW output. -/
theorem fifoStoresTakesAndCrosses : Obligations.FifoStoresTakesAndCrosses := by
  refine ⟨fun f bits s hw hf hk => ?_, fun f m s hw hf hk ho => ?_, fun f m n bits s hw hf hk ho hn => ?_,
    fun f m n bits a s hw hf hk ho hn => ?_, fun f put s h => exec_fifoWrite_held (fifoPut_none h),
    fun f i rest s hw he hi => ?_, fun f s hw => ?_, fun f s hw => ?_, fun f v s hok hb hf hlow hhigh => ?_⟩
  · obtain ⟨t, hx, hfifo, hframe⟩ := fifoWrite_yields hw (fifoPut_data (bits := bits) hf (.inl hk))
    exact ⟨t, hx, congrArg Fifo.items hfifo, congrArg Fifo.wptr hfifo, (congrArg Fifo.rptr hfifo).trans rfl,
      congrArg Fifo.full hfifo, hframe⟩
  · obtain ⟨t, hx, hfifo, hframe⟩ := fifoWrite_yields hw (fifoPut_head hf hk ho)
    exact ⟨t, hx, congrArg Fifo.items hfifo, congrArg Fifo.wptr hfifo, (congrArg Fifo.rptr hfifo).trans rfl, hframe⟩
  · obtain ⟨t, hx, hfifo, hframe⟩ := fifoWrite_yields hw (fifoPut_data (bits := bits) hf (.inr ⟨m, n, hk, ho, hn⟩))
    exact ⟨t, hx, congrArg Fifo.items hfifo, congrArg Fifo.wptr hfifo, (congrArg Fifo.rptr hfifo).trans rfl, hframe⟩
  · obtain ⟨t, hx, hfifo, hframe⟩ := fifoWrite_yields hw (fifoPut_last (bits := bits) (abort := a) hf hk ho hn)
    exact ⟨t, hx, congrArg Fifo.items hfifo, congrArg Fifo.wptr hfifo, (congrArg Fifo.rptr hfifo).trans rfl, hframe⟩
  · obtain ⟨hitems, hrptr, hread⟩ := fifoTake_head hi
    refine ⟨_, exec_fifoRead_take hw he, ?_, ?_, ?_, rfl⟩ <;> rwa [fifo_setFifo]
  · exact ⟨_, exec_pointerCrossing hw, congrArg Fifo.wptrSeen (fifo_putFifo ..),
      (congrArg Fifo.empty (fifo_putFifo ..)).trans (empty_fifoCross _ _),
      (congrArg Fifo.items (fifo_putFifo ..)).trans rfl, putFifo_frame ..⟩
  · exact ⟨_, exec_pointerCrossing hw, congrArg Fifo.rptrSeen (fifo_putFifo ..), congrArg Fifo.full (fifo_putFifo ..),
      (congrArg Fifo.items (fifo_putFifo ..)).trans rfl, putFifo_frame ..⟩
  · exact ⟨_, exec_wmWrite_valid hok hb hf hlow hhigh, congrArg Fifo.high (fifo_putFifo ..), congrArg Fifo.low (fifo_putFifo ..),
      congrArg Fifo.flow (fifo_putFifo ..), (congrArg Fifo.items (fifo_putFifo ..)).trans rfl, putFifo_frame ..⟩

/-- Settles O4: a read while EMPTY is set puts the FIFO back with the idle item read. -/
theorem emptyFifoReadReturnsIdleItem : Obligations.EmptyFifoReadReturnsIdleItem :=
  fun _ _ hw he => ⟨_, exec_fifoRead_empty hw he, congrArg Fifo.lastRead (fifo_setFifo ..),
    (congrArg Fifo.rptr (fifo_setFifo ..)).trans rfl, (congrArg Fifo.items (fifo_setFifo ..)).trans rfl, rfl⟩

/-- Settles O5: a refused write only raises its event; after a valid one FLOW follows the new marks. -/
theorem watermarksOutOfOrderAreRefused : Obligations.WatermarksOutOfOrderAreRefused := by
  refine fun f v s hok hb hf => ⟨wmWrite_refused_yields hok hb hf, fun hlow hhigh => ?_⟩
  have hhigh' := congrArg Fifo.high (fifo_putFifo s f
    (fifoWriterFlags (fifoDepth f.kind) { s.fifo f with high := v.toNat % 65536, low := v.toNat / 65536 }))
  refine ⟨_, exec_wmWrite_valid hok hb hf hlow hhigh, hhigh', congrArg Fifo.low (fifo_putFifo ..), fun hocc => ?_⟩
  rw [hhigh'] at hocc
  exact (congrArg Fifo.flow (fifo_putFifo ..)).trans (if_pos hocc)

end Sys2Proof.Machine
end

section
/-! PROOFS. Pauses: PFC frames sent and received, and links that change (R74 to R76, R468, R575). -/

namespace Sys2Proof.Machine

/-! ### PFC frames sent (R74, R468) -/

/-- The port has sent the PFC frames `ms`: they are on their way, and counted. -/
def PfcSent (h : Fin 2) (ms : List Sent) (s t : State) : Prop :=
  ∃ c, t = { s with hosts := s.hosts.set h { s.hosts[h] with pfcTx := c }, sent := s.sent ++ ms }

namespace PfcSent
variable {h : Fin 2} {ms ns : List Sent} {s t u : State}

theorem refl : PfcSent h [] s s := by
  have hport : { s.hosts[h] with pfcTx := s.hosts[h].pfcTx } = s.hosts[h] := rfl
  refine ⟨s.hosts[h].pfcTx, ?_⟩
  rw [hport]
  simp

theorem trans (k : PfcSent h ms s t) (l : PfcSent h ns t u) : PfcSent h (ms ++ ns) s u := by
  obtain ⟨c, rfl⟩ := k
  obtain ⟨d, rfl⟩ := l
  exact ⟨d, by simp⟩

theorem ite (p : Prop) [Decidable p] (k : PfcSent h ms s t) : PfcSent h (if p then ms else []) s (if p then t else s) := by
  split
  · exact k
  · exact refl

/-- What decides which frames are sent is as it was. -/
theorem same (k : PfcSent h ms s t) : t.subsUp h = s.subsUp h ∧ t.poolPaused h = s.poolPaused h ∧
    t.poolPriorities h = s.poolPriorities h := by
  obtain ⟨c, rfl⟩ := k
  refine ⟨?_, rfl, ?_⟩
  · simp [State.subsUp]
  · simp [State.poolPriorities, State.objNum]

theorem sendPfc (prio time : Nat) :
    PfcSent h ((s.subsUp h).map (fun i => Sent.pfc h.val i.val prio time)) s (s.sendPfc h prio time) := by
  unfold State.sendPfc
  generalize s.subsUp h = is
  induction is generalizing s with
  | nil => exact refl
  | cons i is ih =>
    rw [List.foldl_cons, List.map_cons]
    exact trans (ms := [_]) ⟨_, rfl⟩ ih

theorem sendPfcs (prios : List Nat) (time : Nat) :
    PfcSent h (prios.flatMap (fun p => (s.subsUp h).map (fun i => Sent.pfc h.val i.val p time))) s (s.sendPfcs h prios time) := by
  induction prios generalizing s with
  | nil => exact refl
  | cons p prios ih =>
    have hp := sendPfc (s := s) (h := h) p time
    have hrest := ih (s := s.sendPfc h p time)
    rw [hp.same.1] at hrest
    exact hp.trans hrest
end PfcSent

theorem pfcPauseRefresh_yields (h : Fin 2) (s : State) : Yields (.pfcPauseRefresh h) s (fun t =>
      t.sent = s.sent ++
        (if s.ingestPaused h then (s.subsUp h).map (fun i => Sent.pfc h.val i.val s.hosts[h].ingestPrio 0xFFFF) else []) ++
        (if s.poolPaused h then (s.poolPriorities h).flatMap (fun p =>
          (s.subsUp h).map (fun i => Sent.pfc h.val i.val p 0xFFFF)) else []) ∧
      t = { s with hosts := s.hosts.set h { s.hosts[h] with pfcTx := t.hosts[h].pfcTx }, sent := t.sent }) := by
  have hing := PfcSent.ite (s.ingestPaused h = true) (.sendPfc (s := s) (h := h) s.hosts[h].ingestPrio 0xFFFF)
  generalize hu : (if s.ingestPaused h = true then s.sendPfc h s.hosts[h].ingestPrio 0xFFFF else s) = u at hing
  have hpool := PfcSent.ite (u.poolPaused h = true) (.sendPfcs (s := u) (h := h) (u.poolPriorities h) 0xFFFF)
  have hx : exec (.pfcPauseRefresh h) s = .next (if u.poolPaused h then u.sendPfcs h (u.poolPriorities h) 0xFFFF else u) := by
    rw [← hu]; rfl
  obtain ⟨hsubs, hpaused, hprios⟩ := hing.same
  rw [hpaused, hprios] at hx
  rw [hpaused, hprios, hsubs] at hpool
  obtain ⟨c, ht⟩ := hing.trans hpool
  rw [ht] at hx
  exact ⟨_, hx, by simp, by simp⟩

/-! ### Pauses received, and links (R468, R575) -/

section
variable {s t u : State} {h : Fin 2}

theorem onlyHost_modHost (f : HostPort → HostPort) : OnlyHost h s (s.modHost h f) := by
  simp [OnlyHost, State.modHost]

theorem onlyHost_modSub {i : Fin 4} (f : SubPort → SubPort) : OnlyHost h s (s.modSub h i f) := onlyHost_modHost _

theorem hosts_modHost (f : HostPort → HostPort) : (s.modHost h f).hosts[h] = f s.hosts[h] := by simp

theorem OnlyHost.trans (k : OnlyHost h s t) (l : OnlyHost h t u) : OnlyHost h s u := by
  unfold OnlyHost at *
  rw [l, k]
  simp

/-- What may go after a change of one port goes; with nothing held back that port alone changes. -/
theorem OnlyHost.flushHost (k : OnlyHost h s t) :
    t.flushHost = { s with hosts := t.flushHost.hosts, sent := t.flushHost.sent, heldHost := t.flushHost.heldHost } ∧
    (s.heldHost = [] → OnlyHost h s t.flushHost) := by
  refine ⟨?_, fun hheld => ?_⟩
  · have hframe := (outgoing_flushHost t).frame
    generalize t.flushHost = u at hframe
    rw [hframe, k]
  · rwa [flushHost_nil t (by rw [k]; exact hheld)]

theorem subs_modSub (i : Fin 4) (f : SubPort → SubPort) : (s.modSub h i f).hosts[h].subs[i] = f s.hosts[h].subs[i] := by
  simp [State.modSub]

variable {sub : Fin 4} {prio : Fin 8}

theorem pfcFrame_yields {time : BitVec 16} (hl : s.hostLive h = true) (he : s.subExists h sub = true)
    (hlink : s.hosts[h].subs[sub].link = true) :
    Yields (.pfcFrame h sub prio time) s (fun t => t.hosts[h].pfcRx = s.hosts[h].pfcRx + 1 ∧
      tabFind t.hosts[h].subs[sub].paused prio.val = (if time = 0 then none else some time.toNat) ∧
      t = { s with hosts := t.hosts, sent := t.sent, heldHost := t.heldHost } ∧ (s.heldHost = [] → OnlyHost h s t)) := by
  have hx : exec (.pfcFrame h sub prio time) s = .next ((s.modHost h (fun p => { p with pfcRx := wrap64 p.pfcRx 1 })).modSub h sub
      (fun x => { x with paused := if time = 0 then tabDel x.paused prio.val else tabSet x.paused prio.val time.toNat })).flushHost := by
    simp only [exec, execPfcFrame, hl, he, hlink, and_self, if_true]
  have hsends := (outgoing_flushHost ((s.modHost h (fun p => { p with pfcRx := wrap64 p.pfcRx 1 })).modSub h sub
      (fun x => { x with paused := if time = 0 then tabDel x.paused prio.val else tabSet x.paused prio.val time.toNat }))).sends h
  refine ⟨_, hx, hsends.pfcRx.trans ?_, ?_, ((onlyHost_modHost _).trans (onlyHost_modSub _)).flushHost⟩
  · simp [State.modSub, wrap64]
  · rw [hsends.paused, subs_modSub]
    dsimp only
    split
    · rw [tabFind_tabDel, if_pos rfl]
    · exact tabFind_tabSet_same ..

theorem pfcPauseExpiry_yields : Yields (.pfcPauseExpiry h sub prio) s (fun t =>
      tabFind t.hosts[h].subs[sub].paused prio.val = none ∧
      t = { s with hosts := t.hosts, sent := t.sent, heldHost := t.heldHost } ∧ (s.heldHost = [] → OnlyHost h s t)) := by
  refine ⟨_, rfl, ?_, (onlyHost_modSub _).flushHost⟩
  rw [((outgoing_flushHost _).sends h).paused, subs_modSub, tabFind_tabDel, if_pos rfl]

/-- A port and the event records. -/
def OnlyHostEvents (h : Fin 2) (s t : State) : Prop := t = { s with hosts := s.hosts.set h t.hosts[h], health := t.health }

theorem OnlyHostEvents.trans (k : OnlyHostEvents h s t) (l : OnlyHostEvents h t u) : OnlyHostEvents h s u := by
  unfold OnlyHostEvents at *
  rw [l, k]
  simp

theorem OnlyHost.hostEvents (k : OnlyHost h s t) : OnlyHostEvents h s t := by
  unfold OnlyHost OnlyHostEvents at *
  rw [k]
  simp

theorem OnlyHealth.hostEvents (k : OnlyHealth s t) : OnlyHostEvents h s t := by
  unfold OnlyHealth OnlyHostEvents at *
  rw [k]
  simp

theorem onlyHealth_capacityChange (s : State) (u cause : BitVec 16) : OnlyHealth s (s.capacityChange u cause) := rfl

theorem onlyHostEvents_hostLanes (link : SubLink) : OnlyHostEvents h s (s.hostLanes h link) := by
  have hrefl : OnlyHostEvents h s s := by simp [OnlyHostEvents]
  unfold State.hostLanes
  split
  · exact hrefl
  · split
    · exact hrefl
    · exact (onlyHost_modHost _).hostEvents.trans (OnlyHealth.hostEvents (onlyHealth_raise ..))

theorem subPortLinkChange_yields {up : SubLink} (hb : s.bedOn (bedHost h.val) = true) (he : s.subExists h sub = true)
    (hlink : s.hosts[h].subs[sub].link ≠ up.isUp) (hclk : (up.isUp && s.hosts[h].unclocked) = false) :
    Yields (.subPortLinkChange h sub up) s (fun t => t.hosts[h].subs[sub].link = up.isUp ∧ t.health.capCause.isSome = true ∧
      t = { s with hosts := s.hosts.set h t.hosts[h], health := t.health }) := by
  have hx : exec (.subPortLinkChange h sub up) s =
      .next ((((s.hostLanes h up).modSub h sub (fun x => { x with link := up.isUp })).modHost h
        (fun p => { p with laneMapped := p.laneMapped && p.subs.toList.any (·.link) })).capacityChange (uidLink h.val 0x10) 0) := by
    rw [exec, execSubPortLinkChange, if_pos ⟨hb, he, hlink, by rw [hclk]; rfl⟩]
  refine ⟨_, hx, ?_, rfl, ?_⟩
  · simp [State.capacityChange, State.modSub]
  · exact (onlyHostEvents_hostLanes up).trans
      (((onlyHost_modSub _).trans (onlyHost_modHost _)).hostEvents.trans (onlyHealth_capacityChange _ _ _).hostEvents)
end

/-- Settles O6, clause by clause from the lemma of each command. -/
theorem pausesAreSentAndKept : Obligations.PausesAreSentAndKept :=
  ⟨pfcPauseRefresh_yields, fun _ _ _ _ _ => pfcFrame_yields, fun _ _ _ _ => pfcPauseExpiry_yields,
    fun _ _ _ _ => subPortLinkChange_yields⟩

end Sys2Proof.Machine
end

section
/-! PROOFS. HostRequests: frames that come in, and the requests that they bring (R465 to R477). -/

namespace Sys2Proof.Machine

/-! ### What an answer depends on -/

/-- Two states that agree on everything that decides how a message of a host port goes out. -/
structure SameSender (s t : State) : Prop where
  sent : t.sent = s.sent
  heldHost : t.heldHost = s.heldHost
  objs : t.objs = s.objs
  fifos : t.fifos = s.fifos
  subs : ∀ h : Fin 2, t.hosts[h].subs = s.hosts[h].subs

/-- Memory and the stacks' records of their units may differ. -/
def OnlyMemory (s t : State) : Prop := t = { s with mem := t.mem, hbm := t.hbm }

section
variable {s t u x y : State} {h : Fin 2} {q : QueuePair} {m : Sent} {n : Nat}

theorem SameSender.trans (k : SameSender s t) (l : SameSender t u) : SameSender s u :=
  ⟨l.sent.trans k.sent, l.heldHost.trans k.heldHost, l.objs.trans k.objs, l.fifos.trans k.fifos,
    fun h => (l.subs h).trans (k.subs h)⟩

theorem SameSender.subSends (k : SameSender s t) (i : Fin 4) : t.subSends h i = s.subSends h i := by
  have hobj : t.objNum 0x6030 5 = s.objNum 0x6030 5 := by rw [State.objNum, State.objNum, k.objs]
  rw [State.subSends, State.subSends, k.subs, hobj]

theorem SameSender.frameWaits (k : SameSender s t) (i : Fin 4) (prio : Nat) : t.frameWaits h i prio = s.frameWaits h i prio := by
  simp only [State.frameWaits, State.fifo, k.subs, k.fifos]

theorem HostAnswers.of_same (k : SameSender x y) (ha : HostAnswers h q m n y t) : HostAnswers h q m n x t := by
  simpa only [HostAnswers, k.subSends, k.frameWaits, k.sent, k.heldHost, k.subs] using ha

theorem OnlyMemory.sender (k : OnlyMemory s t) : SameSender s t := by
  rw [k]
  exact ⟨rfl, rfl, rfl, rfl, fun _ => rfl⟩

theorem OnlyMemory.trans (k : OnlyMemory s t) (l : OnlyMemory t u) : OnlyMemory s u := by
  unfold OnlyMemory at *
  rw [l, k]

theorem onlyMemory_writeChecked {who : Who} {a : Nat} {bs : List Byte} (hw : s.writeChecked who a bs = .ok t) : OnlyMemory s t := by
  obtain ⟨-, -, rfl⟩ := writeChecked_ok _ _ _ _ _ hw
  exact writeMem_frame ..

theorem sameMemoryBut_writeChecked {who : Who} {a : Nat} {bs : List Byte} (hw : s.writeChecked who a bs = .ok t) :
    SameMemoryBut a bs.length s t := by
  obtain ⟨-, -, rfl⟩ := writeChecked_ok _ _ _ _ _ hw
  exact sameMemoryBut_writeMem s a bs

theorem onlyMemory_noteRead (a : Nat) : OnlyMemory s (s.noteRead a n) := by
  unfold State.noteRead
  split <;> rfl

theorem sameSender_setQp (i : Nat) : SameSender s (s.setQp h i q) := by
  refine ⟨rfl, rfl, rfl, rfl, fun j => ?_⟩
  by_cases hj : j = h
  · subst hj
    simp [State.setQp]
  · have : (h : Nat) ≠ j := fun e => hj (Fin.ext e.symm)
    simp [State.setQp, Vector.getElem_set_ne, this]

/-! ### Answers (R470, R471) -/

theorem outgoing_reply : Outgoing s (s.reply h q m n) := outgoing_sendFrame s _

theorem reply_answers : HostAnswers h q m n s (s.reply h q m n) := by
  simp only [HostAnswers, State.reply, State.sendFrame]
  cases s.subSends h (fin4 q.cfg.sub) with
  | false => exact ⟨rfl, rfl⟩
  | true =>
    simp only [Bool.not_true, Bool.false_eq_true, Bool.true_eq_false, if_false]
    split <;> exact ⟨rfl, rfl⟩

/-- A request served by a move of memory: its queue pair is `q'` now, and its peer is answered. -/
theorem request_served {i psn : Nat} {q' : QueuePair} (k : OnlyMemory x y) :
    ((y.setQp h i q').ackQp h q psn).mem = y.mem ∧
    HostAnswers h q (.roceAck h.val q.cfg.peerQpn psn) 1 x ((y.setQp h i q').ackQp h q psn) ∧
    tabFind ((y.setQp h i q').ackQp h q psn).hosts[h].qps i = some q' ∧
    ((y.setQp h i q').ackQp h q psn).ingests = x.ingests := by
  refine ⟨by simp, .of_same (k.sender.trans (sameSender_setQp i)) reply_answers, ?_, ?_⟩
  · rw [State.ackQp, (outgoing_reply.sends h).qps]
    simp [State.setQp]
  · rw [State.ackQp, outgoing_reply.frame, State.setQp, modHost_ingests, k]
end

/-! ### The operations of a port, as far as they reach -/

/-- The host ports, their pools and what they send may differ. -/
def HostSide (s t : State) : Prop := t = { s with hosts := t.hosts, pools := t.pools, sent := t.sent, heldHost := t.heldHost }

section
variable {s t u : State} {h : Fin 2}

theorem HostSide.trans (k : HostSide s t) (l : HostSide t u) : HostSide s u := by
  unfold HostSide at *
  rw [l, k]

theorem hostSide_modHost (f : HostPort → HostPort) : HostSide s (s.modHost h f) := rfl
theorem hostSide_modPool (f : Pool → Pool) : HostSide s (s.modPool h f) := rfl

theorem Outgoing.hostSide (k : Outgoing s t) : HostSide s t := by
  unfold HostSide
  rw [k.frame]

theorem HostSide.beds (k : HostSide s t) : t.beds = s.beds := by rw [k]
theorem HostSide.ingests (k : HostSide s t) : t.ingests = s.ingests := by rw [k]

theorem hostSide_dropRequests (gone : RoceWait → Bool) : HostSide s (s.dropRequests h gone) :=
  ((hostSide_modHost _).trans (hostSide_modPool _)).trans (outgoing_syncPause _ _).hostSide

theorem accessNaks_dropRequests (gone : RoceWait → Bool) : (s.dropRequests h gone).hosts[h].accessNaks = s.hosts[h].accessNaks :=
  ((outgoing_syncPause _ _).sends h).accessNaks.trans (by simp)

variable {i psn syndrome : Nat} {q : QueuePair}

theorem hostSide_nakError : HostSide s (s.nakError h i q psn syndrome) :=
  ((hostSide_modHost _).trans (hostSide_dropRequests _)).trans outgoing_reply.hostSide

theorem accessNaks_nakError : (s.nakError h i q psn syndrome).hosts[h].accessNaks = s.hosts[h].accessNaks :=
  (outgoing_reply.sends h).accessNaks.trans ((accessNaks_dropRequests _).trans (by simp [State.setQp]))

/-- A remote access error is counted and raises its event (R474). -/
theorem refuseAccess_counts {k va : Nat} : (s.refuseAccess h i q psn k va).hosts[h].accessNaks = s.hosts[h].accessNaks + 1 ∧
    (s.bedOn bedRot = true → ∃ e ∈ (s.refuseAccess h i q psn k va).health.raised,
      e.code = 0x0205 ∧ e.unit = uidLink h.val 0x10) := by
  refine ⟨?_, fun hrot => ?_⟩
  · rw [State.refuseAccess, raiseD_hosts, hosts_modHost]
    exact congrArg (· + 1) accessNaks_nakError
  · have hbeds : (s.nakError h i q psn nakAccess).beds = s.beds := hostSide_nakError.beds
    obtain ⟨e, he, hcode, hunit⟩ := raise_on ((s.nakError h i q psn nakAccess).modHost h
      (fun p => { p with accessNaks := wrap64 p.accessNaks 1 })) (uidLink h.val 0x10) 0x0205 _ va k
      (q.cfg.qpn % 2 ^ 24 + q.cfg.sub % 8 * 2 ^ 24 + h.val * 2 ^ 27) (by rwa [State.bedOn, modHost_beds, hbeds])
    exact ⟨e, by rw [State.refuseAccess, State.raiseD, he]; simp, hcode, hunit⟩

/-- Taking the next request out of the pool reaches the host side alone, and counts nothing. -/
theorem nextWait_reaches {ok : RoceReq → Bool} {w : RoceWait} (hn : s.nextWait h ok = some (w, i, q, t)) :
    HostSide s t ∧ t.hosts[h].accessNaks = s.hosts[h].accessNaks := by
  unfold State.nextWait at hn
  split at hn
  · cases hn
  · obtain ⟨x, -, ⟨⟩⟩ := Option.map_eq_some_iff.mp hn
    exact ⟨((hostSide_modHost _).trans (hostSide_modPool _)).trans (outgoing_syncPause _ _).hostSide,
      ((outgoing_syncPause _ _).sends h).accessNaks.trans (by simp)⟩
end

/-! ### FRAME_RECEIVE (R465 to R471) -/

section
variable {s : State} {h : Fin 2} {f : Frame} {i prio qpn psn : Nat} {req : RoceReq} {q : QueuePair}

/-- A frame that is not too long, for a sub-port with a link of a live port, is looked at. -/
theorem frame_not_ignored (hl : s.hostLive h = true) (he : s.subExists h f.sub = true) (hlink : s.hosts[h].subs[f.sub].link = true)
    (hlen : f.bytes ≤ frameLimit f.macsec) : ¬ ((!s.hostLive h) = true ∨ (!s.subExists h f.sub) = true ∨
      (!s.hosts[h].subs[f.sub].link) = true ∨ frameLimit f.macsec < f.bytes) := by
  rw [hl, he, hlink]
  simpa using hlen

theorem frameReceive_badFcs (hl : s.hostLive h = true) (he : s.subExists h f.sub = true)
    (hlink : s.hosts[h].subs[f.sub].link = true) (hlen : f.bytes ≤ frameLimit f.macsec) (hfcs : f.fcsOk = false) :
    exec (.frameReceive h f) s = .next (s.modHost h (fun p => { p with fcsErrors := wrap64 p.fcsErrors 1 })) := by
  simp only [exec, execFrameReceive, frame_not_ignored hl he hlink hlen, if_false, hfcs, Bool.not_false, if_true]

theorem frameReceive_roce {x : SubPort} {src : Nat} {icrcOk : Bool} (hl : s.hostLive h = true) (he : s.subExists h f.sub = true)
    (hlink : s.hosts[h].subs[f.sub].link = true) (hlen : f.bytes ≤ frameLimit f.macsec) (hfcs : f.fcsOk = true)
    (hm : s.macsecCheck h f = some x) (hc : s.cannotStore h (framePrio f) f = false) (hb : f.body = .roce src icrcOk qpn psn req) :
    exec (.frameReceive h f) s = .next (((s.enterFrame h (framePrio f) f).modSub h f.sub (fun _ => x)).roceIn h f (framePrio f) src
      icrcOk qpn psn req) := by
  simp only [exec, execFrameReceive, frame_not_ignored hl he hlink hlen, if_false, hfcs, Bool.not_true, Bool.false_eq_true, hm, hc, hb]

theorem sends_putFifo (id : FifoId) (x : Fifo) : s.hosts[h].Sends (s.putFifo id x).hosts[h] := by
  rcases putFifo_cases s id x with k | k
  · exact k.sends h
  · rw [k, flushMgmt_frame]
    exact .refl

theorem sends_enterFrame : s.hosts[h].Sends (s.enterFrame h prio f).hosts[h] := by
  unfold State.enterFrame
  cases s.frameStored h prio f with
  | none =>
    dsimp only
    split <;> exact .refl
  | some x =>
    dsimp only
    split
    · split <;> exact sends_putFifo _ _
    · split <;> exact .refl

/-- A marked packet's CNP goes out, and its time is kept; the requests that wait stay. -/
theorem congested_port {ce : Bool} : (s.congested h i q ce).1.hosts[h].accepted = s.hosts[h].accepted ∧
    (s.congested h i q ce).1.hosts[h].framesRx = s.hosts[h].framesRx ∧ ∃ r, (s.congested h i q ce).2 = { q with cnpRtc := r } := by
  unfold State.congested
  split
  · refine ⟨(outgoing_reply.sends h).accepted.trans ?_, (outgoing_reply.sends h).framesRx.trans ?_, _, rfl⟩
    · simp [State.setQp]
    · simp [State.setQp]
  · exact ⟨rfl, rfl, _, rfl⟩

theorem takeRequest_waits {cells : Nat} (hq : q.cfg.ingest = false) (ho : req ≠ .other) (hs : roceShapeOk q.cfg.mtu req = true)
    (hr : req.isRead = true → (s.hosts[h].accepted.filter (fun w => decide (w.qpn = q.cfg.qpn) && w.req.isRead)).length < 16) :
    (s.takeRequest h i q psn req cells).hosts[h].framesRx = s.hosts[h].framesRx ∧
    (s.takeRequest h i q psn req cells).hosts[h].accepted = s.hosts[h].accepted ++ [⟨q.cfg.qpn, psn, req, cells⟩] ∧
    tabFind (s.takeRequest h i q psn req cells).hosts[h].qps i =
      some { q with expectPsn := (psn + psnCount q.cfg.mtu req) % 2 ^ 24 } := by
  have hgood : ¬ (req = .other ∨ (!roceShapeOk q.cfg.mtu req) = true ∨ (req.isRead = true ∧
      16 ≤ (s.hosts[h].accepted.filter (fun w => decide (w.qpn = q.cfg.qpn) && w.req.isRead)).length)) := by
    rintro (h1 | h1 | ⟨h1, h2⟩)
    · exact ho h1
    · rw [hs] at h1; cases h1
    · exact absurd (hr h1) (Nat.not_lt.mpr h2)
  have hx : s.takeRequest h i q psn req cells = ((((s.setQp h i { q with expectPsn := (psn + psnCount q.cfg.mtu req) % 2 ^ 24 }).modHost h
      (fun p => { p with accepted := p.accepted ++ [⟨q.cfg.qpn, psn, req, cells⟩] })).modPool h
      (fun p => poolTake p 8 cells)).syncPause h) := by
    simp only [State.takeRequest, hgood, if_false, hq, Bool.false_eq_true]
  rw [hx]
  have hsends := (outgoing_syncPause (((s.setQp h i { q with expectPsn := (psn + psnCount q.cfg.mtu req) % 2 ^ 24 }).modHost h
      (fun p => { p with accepted := p.accepted ++ [⟨q.cfg.qpn, psn, req, cells⟩] })).modPool h
      (fun p => poolTake p 8 cells)) h).sends h
  refine ⟨hsends.framesRx.trans ?_, hsends.accepted.trans ?_, ?_⟩
  · simp [State.setQp]
  · simp [State.setQp]
  · rw [hsends.qps]
    simp [State.setQp]

/-- A request in order, from the peer of an ordinary queue pair. -/
theorem roceIn_inOrder (hq : s.qpOf h qpn = some (i, q)) (hing : q.cfg.ingest = false) (hp : prio ≠ s.hosts[h].ingestPrio)
    (hsub : q.cfg.sub = f.sub.val) (herr : q.error = false) (hpsn : psn = q.expectPsn) (hcnp : req ≠ .cnp) :
    s.roceIn h f prio q.cfg.peerIp true qpn psn req = ((s.countFrame h).congested h i { q with prio := prio } f.ce).1.takeRequest h i
      ((s.countFrame h).congested h i { q with prio := prio } f.ce).2 psn req (cdiv f.bytes 256) := by
  obtain ⟨-, -, c, hr⟩ := congested_port (s := s.countFrame h) (h := h) (i := i) (q := { q with prio := prio }) (ce := f.ce)
  have hd : (psn + 2 ^ 24 - q.expectPsn) % 2 ^ 24 = 0 := by
    rw [hpsn, Nat.add_sub_cancel_left, Nat.mod_self]
  have hprio : ¬ q.cfg.ingest ≠ decide (prio = s.hosts[h].ingestPrio) := by
    rw [hing, decide_eq_false hp]
    exact not_not_intro rfl
  have hpeer : ¬ (q.cfg.sub ≠ f.sub.val ∨ q.cfg.peerIp ≠ q.cfg.peerIp ∨ q.error = true ∨
      (q.cfg.ingest = true ∧ ((!s.ingestLive h) = true ∨ s.ingests[h].cfg.isNone = true))) := by simp [hsub, herr, hing]
  rw [State.roceIn, if_neg (by decide), hq]
  dsimp only
  rw [if_neg hprio, if_neg hpeer, if_neg hcnp]
  generalize (s.countFrame h).congested h i { q with prio := prio } f.ce = r at hr ⊢
  obtain ⟨t, q'⟩ := r
  obtain rfl : q' = _ := hr
  exact if_pos hd

theorem roceIn_waits (hq : s.qpOf h qpn = some (i, q)) (hing : q.cfg.ingest = false) (hp : prio ≠ s.hosts[h].ingestPrio)
    (hsub : q.cfg.sub = f.sub.val) (herr : q.error = false) (hpsn : psn = q.expectPsn) (hcnp : req ≠ .cnp) (ho : req ≠ .other)
    (hs : roceShapeOk q.cfg.mtu req = true)
    (hr : req.isRead = true → (s.hosts[h].accepted.filter (fun w => decide (w.qpn = q.cfg.qpn) && w.req.isRead)).length < 16) :
    (s.roceIn h f prio q.cfg.peerIp true qpn psn req).hosts[h].framesRx = s.hosts[h].framesRx + 1 ∧
    (s.roceIn h f prio q.cfg.peerIp true qpn psn req).hosts[h].accepted =
      s.hosts[h].accepted ++ [⟨q.cfg.qpn, psn, req, cdiv f.bytes 256⟩] ∧
    ∃ q', tabFind (s.roceIn h f prio q.cfg.peerIp true qpn psn req).hosts[h].qps i = some q' ∧
      q'.expectPsn = (psn + psnCount q.cfg.mtu req) % 2 ^ 24 := by
  obtain ⟨hacc, hrx, r, hr2⟩ := congested_port (s := s.countFrame h) (h := h) (i := i) (q := { q with prio := prio }) (ce := f.ce)
  have hacc' : (s.countFrame h).hosts[h].accepted = s.hosts[h].accepted := by simp [State.countFrame]
  have hrx' : (s.countFrame h).hosts[h].framesRx = s.hosts[h].framesRx + 1 := by simp [State.countFrame, wrap64]
  rw [roceIn_inOrder hq hing hp hsub herr hpsn hcnp, hr2]
  rw [hacc'] at hacc
  rw [hrx'] at hrx
  obtain ⟨hframes, hwaits, hqp⟩ := takeRequest_waits (s := ((s.countFrame h).congested h i { q with prio := prio } f.ce).1) (h := h)
    (i := i) (psn := psn) (cells := cdiv f.bytes 256) (q := { { q with prio := prio } with cnpRtc := r }) hing ho hs (by rwa [hacc])
  exact ⟨hframes.trans hrx, hwaits.trans (by rw [hacc]), _, hqp, rfl⟩

theorem frameReceive_waits {x : SubPort} (hl : s.hostLive h = true) (he : s.subExists h f.sub = true)
    (hlink : s.hosts[h].subs[f.sub].link = true) (hlen : f.bytes ≤ frameLimit f.macsec) (hfcs : f.fcsOk = true)
    (hm : s.macsecCheck h f = some x) (hc : s.cannotStore h (framePrio f) f = false)
    (hb : f.body = .roce q.cfg.peerIp true qpn psn req) (hq : s.qpOf h qpn = some (i, q)) (hing : q.cfg.ingest = false)
    (hp : framePrio f ≠ s.hosts[h].ingestPrio) (hsub : q.cfg.sub = f.sub.val) (herr : q.error = false) (hpsn : psn = q.expectPsn)
    (hcnp : req ≠ .cnp) (ho : req ≠ .other) (hs : roceShapeOk q.cfg.mtu req = true)
    (hr : req.isRead = true → (s.hosts[h].accepted.filter (fun w => decide (w.qpn = q.cfg.qpn) && w.req.isRead)).length < 16) :
    Yields (.frameReceive h f) s (fun t => t.hosts[h].framesRx = s.hosts[h].framesRx + 1 ∧ t.mem = s.mem ∧
      t.hosts[h].accepted = s.hosts[h].accepted ++ [⟨q.cfg.qpn, psn, req, cdiv f.bytes 256⟩] ∧
      ∃ q', tabFind t.hosts[h].qps i = some q' ∧ q'.expectPsn = (psn + psnCount q.cfg.mtu req) % 2 ^ 24) := by
  have hx := frameReceive_roce hl he hlink hlen hfcs hm hc hb
  have hmem : ((s.enterFrame h (framePrio f) f).modSub h f.sub (fun _ => x)).mem = s.mem := by simp
  have hport : ∃ subs, ((s.enterFrame h (framePrio f) f).modSub h f.sub (fun _ => x)).hosts[h] =
      { (s.enterFrame h (framePrio f) f).hosts[h] with subs := subs } := ⟨_, by simp [State.modSub]; rfl⟩
  have hsends := sends_enterFrame (s := s) (h := h) (prio := framePrio f) (f := f)
  generalize (s.enterFrame h (framePrio f) f).modSub h f.sub (fun _ => x) = u at hx hmem hport
  obtain ⟨subs, hport⟩ := hport
  have hqps : u.hosts[h].qps = s.hosts[h].qps := by rw [hport]; exact hsends.qps
  have hacc : u.hosts[h].accepted = s.hosts[h].accepted := by rw [hport]; exact hsends.accepted
  have hrx : u.hosts[h].framesRx = s.hosts[h].framesRx := by rw [hport]; exact hsends.framesRx
  have hprio : u.hosts[h].ingestPrio = s.hosts[h].ingestPrio := by rw [hport]; exact hsends.ingestPrio
  obtain ⟨hframes, hwaits, hqp⟩ := roceIn_waits (s := u) (by rwa [State.qpOf, hqps]) hing (by rwa [hprio]) hsub herr hpsn hcnp ho hs
    (by rwa [hacc])
  exact ⟨_, hx, hframes.trans (by rw [hrx]), (roceIn_mem ..).trans hmem, hwaits.trans (by rw [hacc]), hqp⟩
end

/-! ### SEND (R476 to R478) -/

section
variable {s x y : State} {h : Fin 2} {w : RoceWait} {i : Nat} {begins ends : Bool} {q : QueuePair} {b : List Byte}

theorem onlyMemory_fillSlot (hf : x.fillSlot h q b = .ok y) : OnlyMemory x y := by
  simp only [State.fillSlot] at hf
  split at hf
  · cases hf
  · exact (onlyMemory_writeChecked ‹_›).trans (onlyMemory_writeChecked hf)

section
variable (hn : s.nextWait h RoceReq.isSend = some (w, i, q, x)) (hp : sendParts w.req = some (begins, ends, b))
  (hb : begins ≠ q.sendOpen)
include hn hp hb

theorem exec_send (hroom : begins = true → q.cfg.ingest = false → (q.filled - q.consumed).toNat < x.recvSlots h q) :
    exec (.send h) s = .next (x.sendIn h i q w.psn ends (q.sendBuf ++ b)) := by
  have hslot : ¬ (begins = true ∧ (!q.cfg.ingest) = true ∧ x.recvSlots h q ≤ (q.filled - q.consumed).toNat) := by
    rintro ⟨h1, h2, h3⟩
    exact absurd (hroom h1 (by simpa using h2)) (Nat.not_lt.mpr h3)
  simp only [exec, execSend, hn, hp, hb, if_false, hslot]

theorem send_ingest_yields (hing : q.cfg.ingest = true) : Yields (.send h) s (fun t => t.mem = s.mem ∧
      HostAnswers h q (.roceAck h.val q.cfg.peerQpn w.psn) 1 x t ∧
      t.ingests[h].noticeBytes = s.ingests[h].noticeBytes ++ (if ends then [(q.cfg.region, q.sendBuf ++ b)] else [])) := by
  have hx := exec_send hn hp hb (fun _ hf => by rw [hing] at hf; cases hf)
  have hmem := nextWait_mem hn
  have hingests : x.ingests = s.ingests := (nextWait_reaches hn).1.ingests
  cases ends with
  | false =>
    simp only [State.sendIn, hing, if_true, Bool.false_eq_true, if_false] at hx
    obtain ⟨hm, hans, -, hi⟩ := request_served (x := x) (y := x) (h := h) (q := q) (i := i) (psn := w.psn)
      (q' := { q with sendBuf := q.sendBuf ++ b, sendOpen := true }) rfl
    exact ⟨_, hx, hm.trans hmem, hans, by rw [hi, hingests]; simp⟩
  | true =>
    simp only [State.sendIn, hing, if_true] at hx
    obtain ⟨hm, hans, -, hi⟩ := request_served (x := x) (y := x) (h := h) (q := q) (i := i) (psn := w.psn)
      (q' := { q with sendBuf := [], sendOpen := false }) rfl
    exact ⟨_, hx, hm.trans hmem, hans, by rw [modIngest_ingests, hi, hingests]; simp⟩

section
variable (hing : q.cfg.ingest = false) (hroom : begins = true → (q.filled - q.consumed).toNat < x.recvSlots h q)
  (hfit : (q.sendBuf ++ b).length + 8 ≤ q.cfg.slotBytes)
include hing hroom hfit

/-- The last packet of a SEND fills a slot. -/
theorem send_whole_yields (he : ends = true) (hf : x.fillSlot h q (q.sendBuf ++ b) = .ok y) :
    Yields (.send h) s (fun t => t.mem = y.mem ∧ HostAnswers h q (.roceAck h.val q.cfg.peerQpn w.psn) 1 x t ∧
      ∃ q', tabFind t.hosts[h].qps i = some q' ∧ q'.filled = q.filled + 1 ∧ q'.sendOpen = false) := by
  have hx := exec_send hn hp hb (fun h1 _ => hroom h1)
  simp only [State.sendIn, hing, he, Bool.false_eq_true, if_false, if_true, Nat.not_lt.mpr hfit, hf] at hx
  obtain ⟨hm, hans, hqp, -⟩ := request_served (onlyMemory_fillSlot hf)
  exact ⟨_, hx, hm, hans, _, hqp, rfl, rfl⟩

/-- Another packet of a SEND waits for the last one. -/
theorem send_part_yields (he : ends = false) :
    Yields (.send h) s (fun t => t.mem = s.mem ∧ HostAnswers h q (.roceAck h.val q.cfg.peerQpn w.psn) 1 x t ∧
      ∃ q', tabFind t.hosts[h].qps i = some q' ∧ q'.sendBuf = q.sendBuf ++ b ∧ q'.sendOpen = true ∧ q'.filled = q.filled) := by
  have hx := exec_send hn hp hb (fun h1 _ => hroom h1)
  simp only [State.sendIn, hing, he, Bool.false_eq_true, if_false, Nat.not_lt.mpr hfit] at hx
  obtain ⟨hm, hans, hqp, -⟩ := request_served (x := x) (y := x) (h := h) (q := q) (i := i) (psn := w.psn)
    (q' := { q with sendBuf := q.sendBuf ++ b, sendOpen := true }) rfl
  exact ⟨_, hx, hm.trans (nextWait_mem hn), hans, _, hqp, rfl, rfl, rfl⟩
end
end
end

/-! ### RDMA WRITE and RDMA READ (R471, R474, R477) -/

section
variable {s x y : State} {h : Fin 2} {w : RoceWait} {i k va n a left : Nat} {q : QueuePair} {b bs : List Byte}

/-- How many of a packet's bytes are written: a word that it only begins is kept, unless its message ends with it. -/
def writtenNow (a left : Nat) (bs : List Byte) : Nat := bs.length - (if left = 0 then 0 else min bs.length ((a + bs.length) % 8))

theorem length_take_writtenNow : (bs.take (writtenNow a left bs)).length = writtenNow a left bs := by
  exact List.length_take_of_le (Nat.sub_le _ _)

theorem writeIn_writes {psn : Nat}
    (hw : x.writeChecked (.onDie (4 + h.val) (.req 6)) a ((q.writeTail ++ b).take (writtenNow a left (q.writeTail ++ b))) = .ok y) :
    (x.writeIn h i q psn a left b).mem = y.mem ∧
    SameMemoryBut a (writtenNow a left (q.writeTail ++ b)) x (x.writeIn h i q psn a left b) ∧
    HostAnswers h q (.roceAck h.val q.cfg.peerQpn psn) 1 x (x.writeIn h i q psn a left b) := by
  have hw' := hw
  unfold writtenNow at hw'
  simp only [State.writeIn, hw']
  obtain ⟨hm, hans, -, -⟩ := request_served (onlyMemory_writeChecked hw)
  have hsame := sameMemoryBut_writeChecked hw
  rw [length_take_writtenNow] at hsame
  refine ⟨hm, fun z hz => ?_, hans⟩
  rw [← hsame z hz, hm]

theorem exec_rdmaWrite_first (hn : s.nextWait h RoceReq.isWrite = some (w, i, q, x))
    (hr : w.req = .writeOnly k va n b ∨ w.req = .writeFirst k va n b) :
    exec (.rdmaWrite h) s = .next (x.writeStart h i q w.psn k va n b) := by
  rcases hr with hr | hr <;> simp only [exec, execRdmaWrite, hn, hr]

theorem exec_rdmaWrite_next (hn : s.nextWait h RoceReq.isWrite = some (w, i, q, x))
    (hr : (w.req = .writeMiddle b ∧ b.length < left) ∨ (w.req = .writeLast b ∧ b.length = left)) (hat : q.writeAt = some (a, left)) :
    exec (.rdmaWrite h) s = .next (x.writeIn h i q w.psn a (left - b.length) b) := by
  rcases hr with ⟨hr, hlen⟩ | ⟨hr, hlen⟩
  · simp only [exec, execRdmaWrite, hn, hr, hat, hlen, if_true]
  · simp only [exec, execRdmaWrite, hn, hr, hat, hlen, if_true, Nat.sub_self]

/-- No byte of the message is left exactly where the packet brings all that there were. -/
theorem left_eq_zero_iff (hle : b.length ≤ n) : n - b.length = 0 ↔ n = b.length := by omega

theorem rdmaWrite_first_yields (hn : s.nextWait h RoceReq.isWrite = some (w, i, q, x))
    (hr : w.req = .writeOnly k va n b ∨ w.req = .writeFirst k va n b) (hat : q.writeAt = none) (htail : q.writeTail = [])
    (hmax : n ≤ 2 ^ 31) (hle : b.length ≤ n) (hpl : x.remotePlace h q true k va n = some a)
    (hw : x.writeChecked (.onDie (4 + h.val) (.req 6)) a
      (b.take (b.length - (if n = b.length then 0 else min b.length ((a + b.length) % 8)))) = .ok y) :
    Yields (.rdmaWrite h) s (fun t => t.mem = y.mem ∧
      SameMemoryBut a (b.length - (if n = b.length then 0 else min b.length ((a + b.length) % 8))) s t ∧
      HostAnswers h q (.roceAck h.val q.cfg.peerQpn w.psn) 1 x t) := by
  have hm : b.length - (if n = b.length then 0 else min b.length ((a + b.length) % 8)) =
      writtenNow a (n - b.length) (q.writeTail ++ b) := by
    simp only [writtenNow, htail, List.nil_append, left_eq_zero_iff hle]
  have hx := exec_rdmaWrite_first hn hr
  rw [State.writeStart, if_neg (by simp [hat]; omega), hpl] at hx
  rw [hm] at hw ⊢
  obtain ⟨hmem, hsame, hans⟩ := writeIn_writes (i := i) (psn := w.psn) (q := q) (by rwa [htail, List.nil_append] at hw ⊢)
  exact ⟨_, hx, hmem, fun z hz => by rw [hsame z hz, nextWait_mem hn], hans⟩

theorem rdmaWrite_next_yields (hn : s.nextWait h RoceReq.isWrite = some (w, i, q, x))
    (hr : (w.req = .writeMiddle b ∧ b.length < left) ∨ (w.req = .writeLast b ∧ b.length = left)) (hat : q.writeAt = some (a, left))
    (hbs : bs = q.writeTail ++ b)
    (hw : x.writeChecked (.onDie (4 + h.val) (.req 6)) a
      (bs.take (bs.length - (if left = b.length then 0 else min bs.length ((a + bs.length) % 8)))) = .ok y) :
    Yields (.rdmaWrite h) s (fun t => t.mem = y.mem ∧
      SameMemoryBut a (bs.length - (if left = b.length then 0 else min bs.length ((a + bs.length) % 8))) s t ∧
      HostAnswers h q (.roceAck h.val q.cfg.peerQpn w.psn) 1 x t) := by
  subst hbs
  have hle : b.length ≤ left := by
    rcases hr with ⟨-, hlen⟩ | ⟨-, hlen⟩ <;> omega
  have hm : (q.writeTail ++ b).length - (if left = b.length then 0 else min (q.writeTail ++ b).length
      ((a + (q.writeTail ++ b).length) % 8)) = writtenNow a (left - b.length) (q.writeTail ++ b) := by
    simp only [writtenNow, left_eq_zero_iff hle]
  rw [hm] at hw ⊢
  obtain ⟨hmem, hsame, hans⟩ := writeIn_writes (i := i) (psn := w.psn) hw
  exact ⟨_, exec_rdmaWrite_next hn hr hat, hmem, fun z hz => by rw [hsame z hz, nextWait_mem hn], hans⟩

theorem rdmaWrite_refused_yields (hn : s.nextWait h RoceReq.isWrite = some (w, i, q, x))
    (hr : w.req = .writeOnly k va n b ∨ w.req = .writeFirst k va n b) (hat : q.writeAt = none)
    (hmax : n ≤ 2 ^ 31) (hle : b.length ≤ n) (hpl : x.remotePlace h q true k va n = none) :
    Yields (.rdmaWrite h) s (fun t => t.mem = s.mem ∧ t.hosts[h].accessNaks = s.hosts[h].accessNaks + 1 ∧
      (s.bedOn bedRot = true → ∃ e ∈ t.health.raised, e.code = 0x0205 ∧ e.unit = uidLink h.val 0x10)) := by
  have hx := exec_rdmaWrite_first hn hr
  rw [State.writeStart, if_neg (by simp [hat]; omega), hpl] at hx
  obtain ⟨hside, hnaks⟩ := nextWait_reaches hn
  obtain ⟨hcount, hevent⟩ := refuseAccess_counts (s := x) (h := h) (i := i) (q := q) (psn := w.psn) (k := k) (va := va)
  exact ⟨_, hx, (refuseAccess_mem ..).trans (nextWait_mem hn), hcount.trans (by rw [hnaks]),
    fun hrot => hevent (by rwa [State.bedOn, hside.beds])⟩

theorem rdmaRead_yields (hn : s.nextWait h RoceReq.isRead = some (w, i, q, x)) (hr : w.req = .read k va n) (hmax : n ≤ 2 ^ 31)
    (hpl : x.remotePlace h q false k va n = some a) (hread : x.readChecked (.onDie (4 + h.val) (.req 6)) a n = .ok bs) :
    Yields (.rdmaRead h) s (fun t => t.mem = s.mem ∧
      HostAnswers h q (.roceRead h.val q.cfg.peerQpn w.psn bs) (psnCount q.cfg.mtu w.req) x t) := by
  have hx : exec (.rdmaRead h) s = .next ((x.noteRead a n).reply h q (.roceRead h.val q.cfg.peerQpn w.psn bs)
      (psnCount q.cfg.mtu w.req)) := by
    simp only [exec, execRdmaRead, hn, hr, Nat.not_lt.mpr hmax, if_false, hpl, hread]
  exact ⟨_, hx, (reply_mem ..).trans ((noteRead_mem ..).trans (nextWait_mem hn)),
    .of_same (onlyMemory_noteRead a).sender reply_answers⟩
end

/-- Settles O43, clause by clause: a dropped frame, a request that waits, the three ends of a SEND, the four of an RDMA WRITE, an
RDMA READ. -/
theorem hostRequestsAreServed : Obligations.HostRequestsAreServed := by
  refine ⟨fun h f s hl he hlink hlen hfcs => ⟨_, frameReceive_badFcs hl he hlink hlen hfcs, onlyHost_modHost _, ?_⟩,
    fun _ _ _ _ _ _ _ _ _ => frameReceive_waits,
    fun h w i begins q b x y s hn hp hb hing hroom hfit hf => send_whole_yields hn hp hb hing hroom hfit rfl hf,
    fun h w i begins q b x s hn hp hb hing hroom hfit => send_part_yields hn hp hb hing hroom hfit rfl,
    fun _ _ _ _ _ _ _ _ _ => send_ingest_yields, fun _ _ _ _ _ _ _ _ _ _ _ _ => rdmaWrite_first_yields,
    fun _ _ _ _ _ _ _ _ _ _ hn hr hat hw => rdmaWrite_next_yields hn hr hat rfl hw,
    fun _ _ _ _ _ _ _ _ _ _ => rdmaWrite_refused_yields, fun _ _ _ _ _ _ _ _ _ _ _ => rdmaRead_yields⟩
  simp [wrap64]

end Sys2Proof.Machine
end

section
/-! PROOFS. Pieces: how the bytes of a piece are laid out (R151 to R154). -/

namespace Sys2Proof.Machine

/-! Elaborated one after another: side by side these proofs take memory that the whole text's compile does not have. -/

set_option Elab.async false

section
variable {n : Nat} (hn : 0 < n)
include hn

theorem le_roundUp (a : Nat) : a ≤ roundUp a n := by
  have hdiv : (a + n - 1) % n + n * ((a + n - 1) / n) = a + n - 1 := Nat.mod_add_div _ _
  have hmod : (a + n - 1) % n < n := Nat.mod_lt _ hn
  rw [roundUp, cdiv, Nat.mul_comm]
  omega

theorem length_padTo (bs : List Byte) : (padTo n bs).length = roundUp bs.length n := by
  rw [padTo, List.length_append, List.length_replicate, Nat.add_sub_cancel' (le_roundUp hn _)]
end

theorem roundUp_mod (a n : Nat) : roundUp a n % n = 0 := Nat.mul_mod_left _ _

theorem length_flatMap_leBytes {α : Type} (n : Nat) (f : α → Nat) (xs : List α) :
    (xs.flatMap (fun x => leBytes n (f x))).length = xs.length * n := by
  simp [List.length_flatMap]

@[simp] theorem length_rowSplit (nnz : List Nat) (edges : Nat) : (rowSplit nnz edges).length = 9 := by
  simp [rowSplit]

theorem length_edgeSplit {split : List Nat} (hs : split.length = 9) (hops : Nat) (es : List (Nat × Nat × Nat × Nat × Nat))
    (k : Nat) : (edgeSplit hops split es k).length = 9 := by
  unfold edgeSplit
  split <;> simp [hs]

/-- The tables of EDGE_SPLIT take 27 words of four bytes (R153). -/
theorem length_edgeSplits {split : List Nat} (hs : split.length = 9) (hops : Nat) (es : List (Nat × Nat × Nat × Nat × Nat)) :
    ((List.range 3).flatMap (fun k => (edgeSplit hops split es k).flatMap (leBytes 4))).length = 108 := by
  simp [List.length_flatMap, length_edgeSplit hs]

section
variable (mb idx hops unit season seeds first last flags rows edges : Nat)

theorem length_pieceHead : (pieceHead mb idx hops unit season seeds first last flags rows edges).length = 32 := by
  simp [pieceHead]

/-- Bytes 8 to 15 of a header are its word 1 (R151). -/
theorem word1_pieceHead (rest : List Byte) :
    ((pieceHead mb idx hops unit season seeds first last flags rows edges ++ rest).drop 8).take 8 =
      leBytes 8 (rows + edges * 2 ^ 32) := by
  simp only [pieceHead, List.append_assoc]
  rw [List.drop_left' (length_leBytes _ _), List.take_left' (length_leBytes _ _)]
end

/-- The header and the two split tables take 256 bytes together; eight bytes a row and eight an edge follow (R151 to R153, R161). -/
theorem length_pieceTables (head : List Byte) (hh : head.length = 32) {split : List Nat} (hs : split.length = 9) (hops : Nat)
    (es : List (Nat × Nat × Nat × Nat × Nat)) :
    (padTo 64 head ++ padTo 64 (split.flatMap (leBytes 4)) ++
      padTo 128 ((List.range 3).flatMap (fun k => (edgeSplit hops split es k).flatMap (leBytes 4)))).length = 256 := by
  rw [List.length_append, List.length_append, length_padTo (by decide), length_padTo (by decide), length_padTo (by decide),
    length_flatMap_leBytes, length_edgeSplits hs, hh, hs]
  rfl

/-- A piece is its header and tables, its rows and its edges, filled up to whole units of 256 bytes. -/
theorem bytes_buildPiece (h : GraphHdr) (c : SampleCtl) (season idx : Nat) (last : Bool) (us : List SeedUnit) :
    ∃ body : List Byte, (buildPiece h c season idx last us).bytes = padTo 256 body ∧
      256 + 8 * (buildPiece h c season idx last us).rows + 8 * (buildPiece h c season idx last us).edges ≤ body.length ∧
      ∀ tail, ((body ++ tail).drop 8).take 8 =
        leBytes 8 ((buildPiece h c season idx last us).rows + (buildPiece h c season idx last us).edges * 2 ^ 32) := by
  refine ⟨_, rfl, ?_, fun tail => ?_⟩
  · have hrows (rows : List (Nat × Nat × Nat)) : (rows.flatMap (rowEntry h)).length = rows.length * 8 :=
      length_flatMap_leBytes ..
    rw [List.length_append, List.length_append, List.length_append,
      length_pieceTables _ (length_pieceHead ..) (length_rowSplit ..), hrows, length_flatMap_leBytes]
    simp only [buildPiece]
    omega
  · simp only [List.append_assoc, padTo]
    exact word1_pieceHead ..

/-- Settles O21: padding makes whole units of what starts with 256 bytes of header and tables, and keeps the header in front. -/
theorem everyPieceIsWholeUnits : Obligations.EveryPieceIsWholeUnits := by
  intro h c season idx last us
  obtain ⟨body, hbytes, hlen, hword⟩ := bytes_buildPiece h c season idx last us
  have hpad : (buildPiece h c season idx last us).bytes.length = roundUp body.length 256 := by
    rw [hbytes, length_padTo (by decide)]
  have hle := le_roundUp (n := 256) (by decide) body.length
  dsimp only
  refine ⟨?_, ?_, ?_, ?_⟩
  · rw [hpad, roundUp_mod]
  · omega
  · omega
  · rw [hbytes]
    exact hword _

end Sys2Proof.Machine
end

section
/-! PROOFS. Sampling: what starting and running a SAMPLE and the topology cache's commands leave (R137 to R143, R160, R167). -/

namespace Sys2Proof.Machine

/-! Elaborated one after another: side by side these proofs take memory that the whole text's compile does not have. -/

set_option Elab.async false

section
variable {s t u : State} {g : Fin 32}

theorem OnlyCluster.trans (h : OnlyCluster g s t) (k : OnlyCluster g t u) : OnlyCluster g s u := by
  unfold OnlyCluster at *
  rw [k, h]
  simp

theorem onlyCluster_modHarrow (f : Harrow → Harrow) : OnlyCluster g s (s.modHarrow g f) := onlyCluster_modCluster _

theorem clusters_modHarrow (f : Harrow → Harrow) :
    (s.modHarrow g f).clusters[g] = { s.clusters[g] with harrow := f s.clusters[g].harrow } := by
  simp [State.modHarrow]

theorem harrow_modHarrow (f : Harrow → Harrow) : (s.modHarrow g f).clusters[g].harrow = f s.clusters[g].harrow := by
  rw [clusters_modHarrow]

theorem queue_modHarrow (q : QueueId) (f : Harrow → Harrow) : (s.modHarrow g f).queue g q = s.queue g q :=
  queue_congr _ _ _ (by rw [clusters_modHarrow])

theorem clusters_modQueue (q : QueueId) (f : Queue → Queue) :
    (s.modQueue g q f).clusters[g] = s.clusters[g].modQueue (queueCode q) f := by
  simp [State.modQueue]

@[simp] theorem harrow_modQueue (q : QueueId) (f : Queue → Queue) :
    (s.modQueue g q f).clusters[g].harrow = s.clusters[g].harrow := by
  rw [clusters_modQueue]
  rfl

/-! ### Started descriptors -/

theorem mem_modFirst {α : Type} [DecidableEq α] {x y : α} {xs : List α} (h : x ∈ xs) :
    y ∈ modFirst (fun z => decide (z = x)) (fun _ => y) xs := by
  induction xs with
  | nil => cases h
  | cons z xs ih =>
    by_cases hz : z = x
    · simp [modFirst, hz]
    · have hx : x ∈ xs := (List.mem_cons.mp h).resolve_left (fun e => hz e.symm)
      simp [modFirst, hz, ih hx]

/-- The descriptor that an engine works on is one of those it has started. -/
theorem mem_running_of_activeOp {q : QueueId} {opcode : Nat} {r : Running} (h : s.activeOp g q opcode = some r) :
    r ∈ (s.queue g q).running := by
  have ha : s.activeDesc g q = some r := (Option.filter_eq_some_iff.mp h).1
  unfold State.activeDesc at ha
  split at ha
  · cases ha
  · exact List.mem_of_find?_eq_some ha

/-- A change of Harrow, then another state of a started descriptor. -/
theorem modHarrow_setRunning {q : QueueId} {opcode : Nat} {r : Running} (h : s.activeOp g q opcode = some r) (r' : Running)
    (f : Harrow → Harrow) :
    OnlyCluster g s ((s.modHarrow g f).setRunning g q r r') ∧
    ((s.modHarrow g f).setRunning g q r r').clusters[g].harrow = f s.clusters[g].harrow ∧
    r' ∈ (((s.modHarrow g f).setRunning g q r r').queue g q).running := by
  refine ⟨(onlyCluster_modHarrow f).trans (onlyCluster_modQueue ..), ?_, ?_⟩
  · rw [State.setRunning, harrow_modQueue, harrow_modHarrow]
  · rw [queue_setRunning, queue_modHarrow]
    exact mem_modFirst (mem_running_of_activeOp h)

/-! ### Starting (R142, R163, R167) -/

/-- Harrow starts its next descriptor once the one before it has completed (R142). -/
theorem running_of_harrow_ready {c : Cluster} {d : QDesc} (h : headState c .harrow d = .ready) :
    (c.queue (queueCode .harrow)).running = [] := by
  unfold headState at h
  split at h
  · cases h
  · dsimp only at h
    split at h
    · cases h
    · split at h
      · rename_i hready
        obtain ⟨-, -, -, -, hsolo⟩ := hready
        simpa [soloWaits] using hsolo
      · cases h

theorem queueLive_of_harrow_ready {d : QDesc} (h : headState s.clusters[g] .harrow d = .ready) : s.queueLive g .harrow = true := by
  have hw : s.clusters[g].waitsSummary .harrow = false := by
    rw [Cluster.waitsSummary, running_of_harrow_ready h, List.any_nil, Bool.and_false]
  simp only [State.queueLive, hw, Bool.not_false, Bool.and_self]

/-- A SAMPLE that starts becomes Harrow's current command. -/
theorem sampleStart_yields {d : QDesc} (ha : s.clusterAccepts g = true) (hd : s.headDesc g .harrow = some d)
    (hr : headState s.clusters[g] .harrow d = .ready) (ho : d.desc.opcode = 1) :
    Yields (.descriptorStart g .harrow) s (fun t => OnlyCluster g s t ∧ t.clusters[g].harrow =
      harrowStarted d.desc s.clusters[g].season (s.objNum 0x4030 1, s.objNum 0x4030 2) s.clusters[g].harrow) := by
  have hl : (s.startHead g .harrow d).latchStart g .harrow d.desc = (s.startHead g .harrow d).modHarrow g
      (harrowStarted d.desc s.clusters[g].season (s.objNum 0x4030 1, s.objNum 0x4030 2)) := by
    have hseason : (s.startHead g .harrow d).clusters[g].season = s.clusters[g].season := by
      rw [State.startHead, clusters_modQueue]
      rfl
    rw [State.latchStart, if_pos ho, hseason]
    rfl
  refine ⟨_, exec_descriptorStart_ready ha (queueLive_of_harrow_ready hr) hd hr, ?_⟩
  rw [hl]
  exact ⟨(onlyCluster_modQueue ..).trans (onlyCluster_modHarrow _), by rw [harrow_modHarrow, State.startHead, harrow_modQueue]⟩

/-! ### SAMPLE (R141 to R156, R160) -/

/-- How sampling the seeds ends: with every seed expanded, or by a fault. -/
def sampleResult (st : GSt) : Option Fail → EStateM.Result Fail GSt Unit
  | none => .ok () st
  | some f => .error f st

/-- A SAMPLE that passes its checks leaves what it sampled in Harrow, with the fault that stopped it, and goes on with its pieces. -/
theorem sample_yields {r : Running} {h : GraphHdr} {fault : Option Fail} {st : GSt} (ha : s.activeOp g .harrow 1 = some r)
    (hp : r.phase = .started) (hc : s.sampleCheck g r.q (s.sampleCtl g r.q.desc) = .ok h)
    (hr : s.sampleRun g h (s.sampleCtl g r.q.desc) r.season = sampleResult st fault) :
    Yields (.sample g) s (fun t => OnlyCluster g s t ∧
      t.clusters[g].harrow =
        harrowSampled st (sampleJob h (s.sampleCtl g r.q.desc) r.season fault st) s.clusters[g].harrow ∧
      { r with phase := .working } ∈ (t.queue g .harrow).running) := by
  refine ⟨_, ?_, modHarrow_setRunning ha { r with phase := .working } _⟩
  cases fault <;> simp only [exec, execSample, ha, hp, hc, hr, sampleResult, ne_eq, not_true_eq_false, if_false]

/-! ### The topology cache (R137, R138) -/

theorem topoFill_yields {l : TopoLine} {rest : List TopoLine} (h : s.clusters[g].harrow.fills = l :: rest) :
    Yields (.topoFill g) s (fun t => OnlyCluster g s t ∧ t.clusters[g].harrow =
      { s.clusters[g].harrow with fills := rest, topo := topoInstall s.clusters[g].topoKib l s.clusters[g].harrow.topo }) := by
  have hx : exec (.topoFill g) s = .next (s.modHarrow g (fun h =>
      { h with topo := topoInstall s.clusters[g].topoKib l h.topo, fills := rest })) := by
    simp only [exec, execTopoFill, h]
  exact ⟨_, hx, onlyCluster_modHarrow _, harrow_modHarrow _⟩

theorem topoInvalidate_yields {r : Running} (ha : s.activeOp g .harrow 2 = some r)
    (hb : firstNonzero (descWords r.q.desc) bodySpans = none) :
    Yields (.topoInvalidate g) s (fun t => OnlyCluster g s t ∧
      t.clusters[g].harrow = { s.clusters[g].harrow with topo := [], fills := [] } ∧
      { r with phase := .finished, summary := none } ∈ (t.queue g .harrow).running) := by
  have hx : exec (.topoInvalidate g) s = .next ((s.modHarrow g (fun h => { h with topo := [], fills := [] })).setRunning g
      .harrow r { r with phase := .finished, summary := none }) := by
    simp only [exec, execTopoInvalidate, ha, hb, State.finishDesc]
  exact ⟨_, hx, modHarrow_setRunning ha _ _⟩
end

/-- Settles O20, clause by clause: the start of a SAMPLE, a SAMPLE with and without a fault, TOPO_FILL and TOPO_INVALIDATE. -/
theorem sampleLaysOutItsPieces : Obligations.SampleLaysOutItsPieces := by
  refine ⟨fun g d s ha hd hr ho => ?_, fun g r h u st s ha hp hc hr => ?_, fun g r h f st s ha hp hc hr => ?_,
    fun g l rest s => topoFill_yields, fun g r s => topoInvalidate_yields⟩
  · obtain ⟨t, hx, hframe, hh⟩ := sampleStart_yields ha hd hr ho
    exact ⟨t, hx, hframe, by rw [hh]; rfl, by rw [hh]; rfl, fun hs => by rw [hh]; exact if_pos hs,
      fun hs => by rw [hh]; exact if_neg (by simp [hs])⟩
  · obtain ⟨t, hx, hframe, hh, hrun⟩ := sample_yields (fault := none) ha hp hc hr
    exact ⟨t, hx, hframe, by rw [hh]; rfl, by rw [hh]; rfl, by rw [hh]; rfl, by rw [hh]; rfl, hrun⟩
  · obtain ⟨t, hx, hframe, hh, hrun⟩ := sample_yields (fault := some f) ha hp hc hr
    exact ⟨t, hx, hframe, by rw [hh]; rfl, hrun⟩

end Sys2Proof.Machine
end

section
/-! PROOFS. PieceRing: pieces in the output ring (R157 to R160, R167). -/

namespace Sys2Proof.Machine

/-! Elaborated one after another: side by side these proofs take memory that the whole text's compile does not have. -/

set_option Elab.async false

section
variable {s : State} {g : Fin 32}

/-! ### The ring's bytes (R157) -/

theorem onlyMemory_writeParts (rs : List (Nat × Nat)) (bs : List Byte) : OnlyMemory s (s.writeParts rs bs) := by
  induction rs generalizing s bs with
  | nil => rfl
  | cons w rest ih =>
    have hw : OnlyMemory s (s.writeMem w.1 (bs.take w.2)) := writeMem_frame ..
    exact hw.trans (ih _)

theorem read_writeParts_outside (rs : List (Nat × Nat)) (bs : List Byte) {a : Nat}
    (h : ∀ w ∈ rs, a < w.1 ∨ w.1 + w.2 ≤ a) : (s.writeParts rs bs).mem.read a = s.mem.read a := by
  induction rs generalizing s bs with
  | nil => rfl
  | cons w rest ih =>
    have hw : a < w.1 ∨ w.1 + w.2 ≤ a := h w List.mem_cons_self
    have hlen : (bs.take w.2).length ≤ w.2 := List.length_take_le ..
    exact (ih _ (fun v hv => h v (List.mem_cons_of_mem _ hv))).trans
      (sameMemoryBut_writeMem s w.1 (bs.take w.2) a (by omega))

/-! ### What a written piece reaches -/

/-- A cluster, memory with the stacks' records of their units, the posts and the event records may differ. -/
def OnlyPiece (g : Fin 32) (s t : State) : Prop :=
  t = { s with clusters := s.clusters.set g t.clusters[g], mem := t.mem, hbm := t.hbm, posts := t.posts, health := t.health }

theorem OnlyPiece.trans {t u : State} (h : OnlyPiece g s t) (k : OnlyPiece g t u) : OnlyPiece g s u := by
  unfold OnlyPiece at *
  rw [k, h]
  simp

theorem OnlyMemory.piece {t : State} (h : OnlyMemory s t) : OnlyPiece g s t := by
  rw [h]
  simp [OnlyPiece]

theorem OnlyCluster.piece {t : State} (h : OnlyCluster g s t) : OnlyPiece g s t := by
  rw [h]
  simp [OnlyPiece]

theorem OnlyHealth.piece {t : State} (h : OnlyHealth s t) : OnlyPiece g s t := by
  rw [h]
  simp [OnlyPiece]

/-! ### The end of a descriptor -/

theorem onlyPiece_raiseDesc (q : QueueId) (d : QDesc) (n : Nat) (f : Fail) : OnlyPiece g s (s.raiseDesc g q d n f) := by
  have hu : OnlyMemory s (s.countUe f) := by
    rw [OnlyMemory, countUe_mem]
    exact countUe_frame s f
  exact hu.piece.trans (onlyHealth_raise ..).piece

theorem raiseDesc_clusters (q : QueueId) (d : QDesc) (n : Nat) (f : Fail) : (s.raiseDesc g q d n f).clusters = s.clusters := by
  rw [State.raiseDesc, raise_clusters, countUe_frame]

/-- A command that ends leaves no job in Harrow, and no gather to be decided where it has none (R160, R165). -/
theorem sampleEnd_leaves (r : Running) (j : SampleJob) :
    OnlyPiece g s (s.sampleEnd g r j) ∧ (s.sampleEnd g r j).posts = s.posts ∧
    (s.sampleEnd g r j).clusters[g].harrow = specForget { s.clusters[g].harrow with job := none } := by
  have hm := onlyCluster_modHarrow (s := s) (g := g) (fun h => specForget { h with job := none })
  unfold State.sampleEnd
  dsimp only
  split
  · refine ⟨(hm.trans (onlyCluster_modQueue ..)).piece, rfl, ?_⟩
    rw [State.finishDesc, State.setRunning, harrow_modQueue, harrow_modHarrow]
  · refine ⟨(hm.trans (onlyCluster_modQueue ..)).piece.trans (onlyPiece_raiseDesc ..), raiseDesc_posts .., ?_⟩
    rw [State.failDesc, raiseDesc_clusters, State.endRunning, harrow_modQueue, harrow_modHarrow]

/-! ### The counters of the ring (R167) -/

/-- RING_PRODUCED, PIECES, EDGES_EMITTED and HALO_NODES. -/
def Harrow.ringCounts (h : Harrow) : U32 × Word × Word × Word := (h.produced, h.pieces, h.edgesEmitted, h.haloNodes)

theorem ringCounts_specForget (h : Harrow) : (specForget h).ringCounts = h.ringCounts := by
  unfold specForget
  split <;> rfl

theorem ringCounts_harrowSpecPost (a n : Nat) (h : Harrow) : (harrowSpecPost a n h).ringCounts = h.ringCounts := by
  unfold harrowSpecPost
  split
  · rfl
  · split <;> rfl

/-- The counters once a piece is in the ring. -/
def Harrow.countsWith (h : Harrow) (p : Piece) : U32 × Word × Word × Word :=
  (h.produced + BitVec.ofNat 32 p.bytes.length, h.pieces + 1, h.edgesEmitted + BitVec.ofNat 64 p.edges,
    h.haloNodes + BitVec.ofNat 64 p.halos)

theorem ringCounts_harrowWrote (p : Piece) (j : SampleJob) (rest : List Piece) (h : Harrow) :
    (harrowWrote p j rest h).ringCounts = h.countsWith p := rfl

/-! ### A written piece (R157, R159, R162) -/

/-- The PIECE_TOKEN's post, where the command has one (R159). -/
def SampleJob.tokenPosts (g : Fin 32) (j : SampleJob) : List Post :=
  (j.pieceToken.map (fun k => (⟨some g.val, g, k, j.season, false, 2 + j.mb⟩ : Post))).toList

/-- The current piece is in the ring, its gather not called for yet. -/
def State.pieceIn (s : State) (g : Fin 32) (j : SampleJob) (p : Piece) (rest : List Piece) : State :=
  let w := (s.writeParts (ringParts s.clusters[g].harrow j p.bytes.length) p.bytes).modHarrow g (harrowWrote p j rest)
  { w with posts := w.posts ++ j.tokenPosts g }

/-- The gather that a written piece may call for is the one thing more that it does (R162, R164). -/
theorem pieceDone_cases (j : SampleJob) (p : Piece) (rest : List Piece) :
    s.pieceDone g j p rest = s.pieceIn g j p rest ∨
    ∃ a, s.pieceDone g j p rest = (s.pieceIn g j p rest).modHarrow g (harrowSpecPost a p.rows) := by
  have hpost : ∀ w : State, (match j.pieceToken with
      | some k => w.postToken ⟨some g.val, g, k, j.season, false, 2 + j.mb⟩
      | none => w) = { w with posts := w.posts ++ j.tokenPosts g } := by
    intro w
    unfold SampleJob.tokenPosts
    cases j.pieceToken with
    | none => simp
    | some k => rfl
  unfold State.pieceDone State.pieceIn
  dsimp only
  rw [← hpost]
  split
  · exact .inr ⟨_, rfl⟩
  · exact .inl rfl

theorem pieceIn_leaves (j : SampleJob) (p : Piece) (rest : List Piece) :
    OnlyPiece g s (s.pieceIn g j p rest) ∧ (s.pieceIn g j p rest).posts = s.posts ++ j.tokenPosts g ∧
    (s.pieceIn g j p rest).clusters[g].harrow = harrowWrote p j rest s.clusters[g].harrow := by
  have hw := onlyMemory_writeParts (s := s) (ringParts s.clusters[g].harrow j p.bytes.length) p.bytes
  have hframe := hw.piece.trans (onlyCluster_modHarrow (g := g) (harrowWrote p j rest)).piece
  refine ⟨hframe.trans (by simp [OnlyPiece, State.pieceIn]), ?_, ?_⟩
  · exact congrArg (· ++ j.tokenPosts g) (show (s.writeParts _ _).posts = s.posts by rw [hw])
  · rw [State.pieceIn]
    dsimp only
    rw [harrow_modHarrow, hw]

/-- A written piece: its bytes, its PIECE_TOKEN and its counts. -/
theorem pieceDone_leaves (j : SampleJob) (p : Piece) (rest : List Piece) :
    OnlyPiece g s (s.pieceDone g j p rest) ∧
    (s.pieceDone g j p rest).posts = s.posts ++ j.tokenPosts g ∧
    (s.pieceDone g j p rest).mem = (s.writeParts (ringParts s.clusters[g].harrow j p.bytes.length) p.bytes).mem ∧
    (s.pieceDone g j p rest).clusters[g].harrow.ringCounts = s.clusters[g].harrow.countsWith p := by
  obtain ⟨hframe, hposts, hh⟩ := pieceIn_leaves (s := s) (g := g) j p rest
  rcases pieceDone_cases (s := s) (g := g) j p rest with h | ⟨a, h⟩ <;> rw [h]
  · exact ⟨hframe, hposts, rfl, by rw [hh, ringCounts_harrowWrote]⟩
  · exact ⟨hframe.trans (onlyCluster_modHarrow _).piece, hposts, rfl,
      by rw [harrow_modHarrow, ringCounts_harrowSpecPost, hh, ringCounts_harrowWrote]⟩

/-- A piece written; the last one ends its command. -/
theorem exec_pieceWrite_room {r : Running} {j : SampleJob} {p : Piece} {rest : List Piece} (hj : s.clusters[g].harrow.job = some j)
    (ha : s.activeOp g .harrow 1 = some r) (hp : j.pieces = p :: rest)
    (hroom : p.bytes.length ≤ ringFree s.clusters[g].harrow j.outLog2)
    (hplace : s.piecePlace g (ringParts s.clusters[g].harrow j p.bytes.length) = none) :
    exec (.pieceWrite g) s = .next (if rest = [] then (s.pieceDone g j p rest).sampleEnd g r j else s.pieceDone g j p rest) := by
  simp only [exec, execPieceWrite, hj, ha, hp, Nat.not_lt.mpr hroom, if_false, hplace]

theorem pieceWrite_yields {r : Running} {j : SampleJob} {p : Piece} {rest : List Piece} (hj : s.clusters[g].harrow.job = some j)
    (ha : s.activeOp g .harrow 1 = some r) (hp : j.pieces = p :: rest)
    (hroom : p.bytes.length ≤ ringFree s.clusters[g].harrow j.outLog2)
    (hplace : s.piecePlace g (ringParts s.clusters[g].harrow j p.bytes.length) = none) :
    Yields (.pieceWrite g) s (fun t => OnlyPiece g s t ∧
      t.posts = s.posts ++ j.tokenPosts g ∧
      t.mem = (s.writeParts (ringParts s.clusters[g].harrow j p.bytes.length) p.bytes).mem ∧
      t.clusters[g].harrow.ringCounts = s.clusters[g].harrow.countsWith p) := by
  refine ⟨_, exec_pieceWrite_room hj ha hp hroom hplace, ?_⟩
  obtain ⟨hframe, hposts, hmem, hcounts⟩ := pieceDone_leaves (s := s) (g := g) j p rest
  split
  · obtain ⟨eframe, eposts, eh⟩ := sampleEnd_leaves (s := s.pieceDone g j p rest) (g := g) r j
    refine ⟨hframe.trans eframe, eposts.trans hposts, (sampleEnd_mem ..).trans hmem, ?_⟩
    rw [eh, ringCounts_specForget]
    exact hcounts
  · exact ⟨hframe, hposts, hmem, hcounts⟩

theorem exec_pieceWrite_full {r : Running} {j : SampleJob} {p : Piece} {rest : List Piece} (hj : s.clusters[g].harrow.job = some j)
    (ha : s.activeOp g .harrow 1 = some r) (hp : j.pieces = p :: rest)
    (hfull : ringFree s.clusters[g].harrow j.outLog2 < p.bytes.length) : exec (.pieceWrite g) s = .next s := by
  simp only [exec, execPieceWrite, hj, ha, hp, hfull, if_true]

/-! ### RING_CONSUMED (R158) -/

theorem ringConsumed_yields {v : U32} (hl : s.clusterLive g = true) (hv : ringPasses s.clusters[g].harrow v = false) :
    Yields (.ringConsumed g v) s (fun t => OnlyCluster g s t ∧
      t.clusters[g].harrow = { s.clusters[g].harrow with consumed := v }) := by
  have hx : exec (.ringConsumed g v) s = .next (s.modHarrow g (fun h => { h with consumed := v })) := by
    simp only [exec, execRingConsumed, State.ringWrite, hl, hv, if_true, Bool.false_eq_true, if_false]
  exact ⟨_, hx, onlyCluster_modHarrow _, harrow_modHarrow _⟩

theorem ringConsumed_refused_yields {v : U32} (hl : s.clusterLive g = true) (hv : ringPasses s.clusters[g].harrow v = true) :
    Yields (.ringConsumed g v) s (fun t => OnlyHealth s t ∧
      (s.bedOn bedRot = true → ∃ e : Event, t.health.raised = s.health.raised ++ [e] ∧ e.code = 0x0102 ∧
        e.unit = uidCluster g.val 1)) := by
  have hx : exec (.ringConsumed g v) s =
      .next (s.raiseC g (uidCluster g.val 1) 0x0102 (clusterUnitBase g.val 1 + 8) v.toNat 0) := by
    simp only [exec, execRingConsumed, State.ringWrite, hl, hv, if_true]
  exact ⟨_, hx, onlyHealth_raise .., fun hrot => raise_on _ _ _ _ _ _ _ hrot⟩
end

end Sys2Proof.Machine
end

section
/-! PROOFS. SpecGathers: the speculative gathers of a SAMPLE, posted and confirmed (R162 to R164, R193, R210). -/

namespace Sys2Proof.Machine

/-! Elaborated one after another: side by side these proofs take memory that the whole text's compile does not have. -/

set_option Elab.async false

section
variable {s : State} {g : Fin 32}

/-! ### SPEC_GATHER_POST (R162) -/

/-- A gather as it enters the Rake queue: Harrow's own, made from the template's bytes. -/
def SpecPost.gather (x : SpecPost) (bs : List Byte) (template : BitVec 48) : QDesc :=
  { desc := specDesc bs x, addr := template.toNat, launch := false, harrow := true }

theorem specGatherPost_yields {x : SpecPost} {rest : List SpecPost} {bs : List Byte} (hp : s.clusters[g].harrow.toPost = x :: rest)
    (hcred : s.credits g .rake ≠ 0) (hl : s.clusterLive g = true)
    (hb : s.readChecked (.ofCluster g .any) s.clusters[g].harrow.specTemplate.toNat 64 = .ok bs) :
    Yields (.specGatherPost g) s (fun t => OnlyCluster g (s.noteRead s.clusters[g].harrow.specTemplate.toNat 64) t ∧
      t.clusters[g].harrow = harrowPosted x s.clusters[g].harrow ∧
      (t.queue g .rake).waiting = (s.queue g .rake).waiting ++ [x.gather bs s.clusters[g].harrow.specTemplate]) := by
  have hx : exec (.specGatherPost g) s = .next (((s.noteRead s.clusters[g].harrow.specTemplate.toNat 64).modHarrow g
      (harrowPosted x)).enqueue g .rake (x.gather bs s.clusters[g].harrow.specTemplate)) := by
    simp only [exec, execSpecGatherPost, hp, hcred, hl, hb, Bool.not_true, Bool.false_eq_true, or_self, if_false,
      SpecPost.gather]
  refine ⟨_, hx, (onlyCluster_modHarrow _).trans (onlyCluster_modQueue ..), ?_, ?_⟩
  · rw [State.enqueue, harrow_modQueue, harrow_modHarrow, noteRead_clusters]
  · rw [State.enqueue, queue_modQueue, queue_modHarrow, queue_congr s g .rake (by rw [noteRead_clusters])]

/-! ### SPEC_CONFIRM (R163, R193, R210) -/

theorem countReads_clusters (xs : List (Nat × Nat × Nat)) : (s.countReads xs).clusters = s.clusters := by
  unfold State.countReads
  induction xs generalizing s with
  | nil => rfl
  | cons x xs ih => exact ih (s := s.countRead x.1 x.2.1 x.2.2)

theorem harrow_confirmRake (c : Cluster) : c.confirmRake.harrow = c.harrow := rfl

/-- Confirmation reaches every gather of Harrow's that is under way. -/
theorem jobs_confirmRake (c : Cluster) {j : RakeJob} (hj : j ∈ c.confirmRake.rake.jobs) (hs : isSpecGather j.run.q = true) :
    j.confirmed = true := by
  obtain ⟨i, -, rfl⟩ := List.mem_map.mp hj
  by_cases hi : isSpecGather i.run.q = true
  · rw [if_pos hi]
  · rw [if_neg hi] at hs
    exact absurd hs hi

/-- Confirmation reaches every gather of Harrow's that is staged. -/
theorem staged_confirmRake (c : Cluster) {y : StagedGather} (hy : y ∈ c.confirmRake.rake.staged) (hs : y.run.q.harrow = true) :
    y.confirmed = true := by
  obtain ⟨z, -, rfl⟩ := List.mem_map.mp hy
  by_cases hz : z.run.q.harrow = true
  · rw [if_pos hz]
  · rw [if_neg hz] at hs
    exact absurd hs hz

theorem specConfirm_yields {x : SpecCommand} (hu : s.clusters[g].undecided = some x) (hd : s.clusters[g].confirmDue x = true) :
    Yields (.specConfirm g) s (fun t => OnlyCluster g (s.countReads s.clusters[g].specReads) t ∧
      t.clusters[g] = { s.clusters[g] with harrow := harrowConfirm x s.clusters[g].harrow }.confirmRake) := by
  have hx : exec (.specConfirm g) s = .next (s.confirmSpec g x) := by
    simp only [exec, execSpecConfirm, hu, hd, if_true]
  refine ⟨_, hx, onlyCluster_modCluster _, ?_⟩
  rw [State.confirmSpec, modCluster_clusters, countReads_clusters]
  simp
end

/-- Settles O22, clause by clause: PIECE_WRITE with and without room, RING_CONSUMED taken and refused, SPEC_GATHER_POST and
SPEC_CONFIRM. -/
theorem piecesGoIntoTheRingAndGathersFollow : Obligations.PiecesGoIntoTheRingAndGathersFollow := by
  refine ⟨fun g r j p rest s hj ha hp hroom hplace => ?_, fun _ _ _ _ _ _ => exec_pieceWrite_full,
    fun _ _ _ => ringConsumed_yields, fun _ _ _ => ringConsumed_refused_yields,
    fun g x rest bs s hp hcred hl hb => ?_, fun g x s hu hd => ?_⟩
  · obtain ⟨t, hx, hframe, hposts, hmem, hcounts⟩ := pieceWrite_yields hj ha hp hroom hplace
    simp only [Harrow.ringCounts, Harrow.countsWith, Prod.mk.injEq] at hcounts
    obtain ⟨hprod, hpieces, hedges, hhalos⟩ := hcounts
    exact ⟨t, hx, hprod, hpieces, hedges, hhalos, hposts, hmem, fun a h => by rw [hmem, read_writeParts_outside _ _ h], hframe⟩
  · obtain ⟨t, hx, hframe, hh, hq⟩ := specGatherPost_yields hp hcred hl hb
    exact ⟨t, hx, hframe, by rw [hh, harrowPosted, hp]; rfl, by rw [hh]; rfl, hq⟩
  · obtain ⟨t, hx, hframe, hc⟩ := specConfirm_yields hu hd
    refine ⟨t, hx, hframe, ?_, ?_, ?_, ?_⟩
    · rw [hc, harrow_confirmRake]; rfl
    · rw [hc]; exact fun j => jobs_confirmRake _
    · rw [hc]; exact fun y => staged_confirmRake _
    · rw [hc, harrow_confirmRake]; exact ⟨_, rfl, rfl, rfl⟩

end Sys2Proof.Machine
end

section
/-! PROOFS. Views: what finding, reading, writing and routing look at; counting and bookkeeping leave their answers as they were. -/

namespace Sys2Proof.Machine

/-! Elaborated one after another: side by side these proofs take memory that the whole text's compile does not have. -/

set_option Elab.async false

/-! ### What an access looks at in a stack -/

/-- Two states of a stack in which every access finds the same. -/
structure Stack.SameUnits (x y : Stack) : Prop where
  state : y.state = x.state
  fencedReq : y.fencedReq = x.fencedReq
  poisoned : y.poisoned = x.poisoned
  errors : y.errors = x.errors

namespace Stack.SameUnits
variable {x y z : Stack}

theorem refl : x.SameUnits x := ⟨rfl, rfl, rfl, rfl⟩

theorem trans (h : x.SameUnits y) (k : y.SameUnits z) : x.SameUnits z :=
  ⟨k.state.trans h.state, k.fencedReq.trans h.fencedReq, k.poisoned.trans h.poisoned, k.errors.trans h.errors⟩

theorem badUnits (h : x.SameUnits y) : y.badUnits = x.badUnits := by
  simp only [Stack.badUnits, h.poisoned, h.errors]
end Stack.SameUnits

/-- What counting corrected reads leaves of a stack. -/
structure Stack.Counts (x y : Stack) : Prop extends x.SameUnits y where
  loads : y.loads = x.loads
  log : y.log = x.log

theorem Stack.Counts.refl {x : Stack} : x.Counts x := ⟨.refl, rfl, rfl⟩

theorem Stack.Counts.trans {x y z : Stack} (h : x.Counts y) (k : y.Counts z) : x.Counts z :=
  ⟨h.toSameUnits.trans k.toSameUnits, k.loads.trans h.loads, k.log.trans h.log⟩

theorem Stack.counts_countWeak (us : List Nat) (x : Stack) : x.Counts (x.countWeak us) := by
  unfold Stack.countWeak
  induction us generalizing x with
  | nil => exact .refl
  | cons u us ih =>
    rw [List.foldl_cons]
    refine .trans ?_ (ih _)
    exact ⟨⟨rfl, rfl, rfl, rfl⟩, rfl, rfl⟩

/-! ### What finding a row, reading it and routing to its owner look at -/

/-- Two states in which rows are found, bytes read and packets routed alike. -/
structure SameView (s t : State) : Prop where
  mem : t.mem = s.mem
  job : t.job = s.job
  fences : t.health.fences = s.health.fences
  beds : t.beds = s.beds
  fab : t.fabInForce = s.fabInForce
  scratch : ∀ g : Fin 32, t.clusters[g].scratchKib = s.clusters[g].scratchKib
  slots : ∀ n : Fin 256, t.cores[n].vec.ftqSlots = s.cores[n].vec.ftqSlots
  units : ∀ k : Fin 12, s.hbm[k].SameUnits t.hbm[k]
  ports : ∀ p : Fin 16, t.ports[p].state = s.ports[p].state

namespace SameView
variable {s t u : State}

theorem refl : SameView s s :=
  ⟨rfl, rfl, rfl, rfl, rfl, fun _ => rfl, fun _ => rfl, fun _ => .refl, fun _ => rfl⟩

theorem trans (h : SameView s t) (k : SameView t u) : SameView s u :=
  ⟨k.mem.trans h.mem, k.job.trans h.job, k.fences.trans h.fences, k.beds.trans h.beds, k.fab.trans h.fab,
    fun g => (k.scratch g).trans (h.scratch g), fun n => (k.slots n).trans (h.slots n),
    fun i => (h.units i).trans (k.units i), fun p => (k.ports p).trans (h.ports p)⟩

theorem foldl {α : Type} {f : State → α → State} (hf : ∀ s x, SameView s (f s x)) (xs : List α) (s : State) :
    SameView s (xs.foldl f s) := by
  induction xs generalizing s with
  | nil => exact refl
  | cons x xs ih => exact (hf s x).trans (ih _)

/-! Accesses -/

/-- With the stacks put back the access rules look at nothing that differs. -/
theorem swap (h : SameView s t) : SameAccess s { t with hbm := s.hbm } :=
  ⟨by rw [h.job], h.fences, h.beds, rfl, h.scratch, h.slots⟩

theorem granuleFail (h : SameView s t) (who : Who) (a n gr : Nat) : t.granuleFail who a n gr = s.granuleFail who a n gr := by
  rw [← h.swap.granuleFail]
  simp only [State.granuleFail, State.reqFenced, (h.units _).state, (h.units _).fencedReq]
  rfl

theorem accessFail (h : SameView s t) (who : Who) (a n : Nat) : t.accessFail who a n = s.accessFail who a n := by
  have hg : t.granuleFail who a n = { t with hbm := s.hbm }.granuleFail who a n :=
    funext fun gr => (h.granuleFail who a n gr).trans (h.swap.granuleFail who a n gr).symm
  rw [← h.swap.accessFail]
  simp only [State.accessFail, State.hbmFail, hg]
  rfl

theorem poisonHit (h : SameView s t) (a n : Nat) : t.poisonHit a n = s.poisonHit a n := by
  simp only [State.poisonHit, (h.units _).badUnits]

theorem partPoisoned (h : SameView s t) (a n : Nat) : t.partPoisoned a n = s.partPoisoned a n := by
  have hb : t.hbm.toList.map Stack.badUnits = s.hbm.toList.map Stack.badUnits := by
    refine List.ext_getElem (by simp) fun i hi _ => ?_
    have hi : i < 12 := by simpa using hi
    simpa using (h.units ⟨i, hi⟩).badUnits
  simp only [State.partPoisoned, List.flatMap, hb]

theorem mergeFail (h : SameView s t) (a n : Nat) : t.mergeFail a n = s.mergeFail a n := by
  simp only [State.mergeFail, h.partPoisoned]

theorem readChecked (h : SameView s t) (who : Who) (a n : Nat) : t.readChecked who a n = s.readChecked who a n := by
  simp only [State.readChecked, State.readFail, h.accessFail, h.poisonHit, State.readMem, h.mem]

theorem checkAll (h : SameView s t) (who : Who) (rs : List (Nat × Nat)) : t.checkAll who rs = s.checkAll who rs := by
  simp only [State.checkAll, h.accessFail]

theorem writeMem_mem (h : SameView s t) (a : Nat) (bs : List Byte) : (t.writeMem a bs).mem = (s.writeMem a bs).mem := by
  rw [Machine.writeMem_mem, Machine.writeMem_mem, h.partPoisoned, h.mem]

theorem writeMem_hbm (h : SameView s t) (hh : t.hbm = s.hbm) (a : Nat) (bs : List Byte) :
    (t.writeMem a bs).hbm = (s.writeMem a bs).hbm := by
  unfold State.writeMem
  dsimp only
  rw [h.partPoisoned]
  split <;> simp only [setMem_hbm, hh]

/-- A write goes through alike, and leaves the same memory. -/
theorem writeChecked (h : SameView s t) {who : Who} {a : Nat} {bs : List Byte} {w : State} (hw : s.writeChecked who a bs = .ok w) :
    t.writeChecked who a bs = .ok (t.writeMem a bs) ∧ (t.writeMem a bs).mem = w.mem := by
  obtain ⟨ha, hm, rfl⟩ := writeChecked_ok _ _ _ _ _ hw
  exact ⟨by rw [State.writeChecked, h.accessFail, ha, h.mergeFail, hm], h.writeMem_mem a bs⟩

/-! Rows -/

theorem table (h : SameView s t) (i : Nat) : t.table i = s.table i := by rw [State.table, State.table, h.job]
theorem devNumber (h : SameView s t) : t.devNumber = s.devNumber := by rw [State.devNumber, State.devNumber, h.fab]
theorem shape (h : SameView s t) : t.shape = s.shape := by rw [State.shape, State.shape, h.fab]
theorem expressEn (h : SameView s t) : t.expressEn = s.expressEn := by rw [State.expressEn, State.expressEn, h.fab]

theorem locate (h : SameView s t) (who : Who) (i : Nat) (td : TableDesc) (pos row : Nat) :
    t.locate who i td pos row = s.locate who i td pos row := by
  have he : t.entryOk = s.entryOk := by
    funext e
    rw [State.entryOk, State.entryOk, h.shape]
  simp only [State.locate, h.readChecked, he]

theorem route (h : SameView s t) (dst side : Nat) (came : Option Nat) : t.route dst side came = s.route dst side came := by
  have hu : t.portUp = s.portUp := funext fun p => by rw [State.portUp, State.portUp, h.ports]
  have hp : t.portFor = s.portFor := by
    funext role side
    simp only [State.portFor, State.upPort, hu]
  simp only [State.route, h.shape, h.expressEn, h.devNumber, hp]

theorem rowSource (h : SameView s t) (g : Fin 32) (i : Nat) (td : TableDesc) (pos row : Nat) :
    t.rowSource g i td pos row = s.rowSource g i td pos row := by
  simp only [State.rowSource, h.locate, h.devNumber, h.route]

theorem readEntry (h : SameView s t) (g : Fin 32) (c : RakeCtl) (pos : Nat) : t.readEntry g c pos = s.readEntry g c pos := by
  simp only [State.readEntry, h.readChecked]

theorem bagBounds (h : SameView s t) (g : Fin 32) (c : RakeCtl) (k : Nat) : t.bagBounds g c k = s.bagBounds g c k := by
  simp only [State.bagBounds, h.readChecked]

theorem poolWeight (h : SameView s t) (g : Fin 32) (c : RakeCtl) (pos : Nat) : t.poolWeight g c pos = s.poolWeight g c pos := by
  simp only [State.poolWeight, h.readChecked]

theorem scatterEntry (h : SameView s t) (g : Fin 32) (c : ScatterCtl) (pos : Nat) : t.scatterEntry g c pos = s.scatterEntry g c pos := by
  simp only [State.scatterEntry, h.readChecked]

theorem scatterOwner (h : SameView s t) (g : Fin 32) (i : Nat) (td : TableDesc) (pos row : Nat) :
    t.scatterOwner g i td pos row = s.scatterOwner g i td pos row := by
  simp only [State.scatterOwner, h.locate, h.devNumber, h.route]

theorem gradRow (h : SameView s t) (g : Fin 32) (c : ScatterCtl) (dim i n : Nat) : t.gradRow g c dim i n = s.gradRow g c dim i n := by
  simp only [State.gradRow, h.readChecked]
end SameView

/-! ### Updates that keep the view -/

section
variable {s : State} {g : Fin 32}

theorem sameView_modCluster (f : Cluster → Cluster) (hf : (f s.clusters[g]).scratchKib = s.clusters[g].scratchKib) :
    SameView s (s.modCluster g f) :=
  { SameView.refl with scratch := (sameAccess_modCluster s g f hf).scratch }

theorem sameView_modRake (f : Rake → Rake) : SameView s (s.modRake g f) := sameView_modCluster _ rfl
theorem sameView_modSprinkler (f : Sprinkler → Sprinkler) : SameView s (s.modSprinkler g f) := sameView_modCluster _ rfl
theorem sameView_setRunning (q : QueueId) (r r' : Running) : SameView s (s.setRunning g q r r') :=
  sameView_modCluster (fun c => c.modQueue (queueCode q) _) rfl

theorem sameView_modStack (k : Fin 12) (f : Stack → Stack) (hf : s.hbm[k].SameUnits (f s.hbm[k])) : SameView s (s.modStack k f) := by
  refine { SameView.refl with units := fun i => ?_ }
  by_cases hi : i = k
  · subst hi
    simpa using hf
  · have : (k : Nat) ≠ i := fun e => hi (Fin.ext e.symm)
    simp [Vector.getElem_set_ne, this, Stack.SameUnits.refl]

theorem sameView_modPort (p : Fin 16) (f : Port → Port) (hf : (f s.ports[p]).state = s.ports[p].state) :
    SameView s (s.modPort p f) := by
  refine { SameView.refl with ports := fun i => ?_ }
  by_cases hi : i = p
  · subst hi
    simpa using hf
  · have : (p : Nat) ≠ i := fun e => hi (Fin.ext e.symm)
    simp [Vector.getElem_set_ne, this]

theorem sameView_modPool (l : Fin 2) (f : Pool → Pool) : SameView s (s.modPool l f) := { SameView.refl with }

theorem sameView_addSlots (k : Fin 12) (n : Nat) : SameView s (s.addSlots k n) := sameView_modStack _ _ ⟨rfl, rfl, rfl, rfl⟩

theorem sameView_countSlots (a n : Nat) : SameView s (s.countSlots a n) := (sameView_addSlots _ _).trans (sameView_addSlots _ _)

theorem sameView_countRead (t slot a : Nat) : SameView s (s.countRead t slot a) := sameView_modStack _ _ ⟨rfl, rfl, rfl, rfl⟩

/-! ### Counting in the stacks -/

/-- Only the stacks' counters differ. -/
structure CountsOnly (s t : State) : Prop where
  frame : t = { s with hbm := t.hbm }
  view : SameView s t

theorem CountsOnly.refl : CountsOnly s s := ⟨rfl, .refl⟩

theorem CountsOnly.trans {t u : State} (h : CountsOnly s t) (k : CountsOnly t u) : CountsOnly s u :=
  ⟨by rw [k.frame, h.frame], h.view.trans k.view⟩

theorem CountsOnly.foldl {α : Type} {f : State → α → State} (hf : ∀ s x, CountsOnly s (f s x)) (xs : List α) (s : State) :
    CountsOnly s (xs.foldl f s) := by
  induction xs generalizing s with
  | nil => exact .refl
  | cons x xs ih => exact (hf s x).trans (ih _)

theorem counts_noteRead (a n : Nat) (k : Fin 12) : s.hbm[k].Counts (s.noteRead a n).hbm[k] := by
  unfold State.noteRead
  split
  · simpa using Stack.counts_countWeak _ _
  · exact .refl

theorem countsOnly_noteRead (a n : Nat) : CountsOnly s (s.noteRead a n) := by
  have hf : s.noteRead a n = { s with hbm := (s.noteRead a n).hbm } := by
    unfold State.noteRead
    split <;> rfl
  refine ⟨hf, ?_⟩
  have hs := fun k => (counts_noteRead (s := s) a n k).toSameUnits
  rw [hf] at hs ⊢
  exact { SameView.refl with units := hs }

theorem countsOnly_addSlots (k : Fin 12) (n : Nat) : CountsOnly s (s.addSlots k n) := ⟨rfl, sameView_addSlots _ _⟩
theorem countsOnly_countSlots (a n : Nat) : CountsOnly s (s.countSlots a n) := ⟨rfl, sameView_countSlots _ _⟩
theorem countsOnly_countRead (t slot a : Nat) : CountsOnly s (s.countRead t slot a) := ⟨rfl, sameView_countRead _ _ _⟩

/-- A row read whole: noted, and its row slots counted. -/
theorem countsOnly_rowRead (a n : Nat) : CountsOnly s ((s.noteRead a n).countSlots a n) :=
  (countsOnly_noteRead _ _).trans (countsOnly_countSlots _ _)

theorem CountsOnly.clusters {t : State} (h : CountsOnly s t) : t.clusters = s.clusters := by rw [h.frame]
end

end Sys2Proof.Machine
end

section
/-! PROOFS. Sending: packets put on their flows (R449 to R452). -/

namespace Sys2Proof.Machine

/-! Elaborated one after another: side by side these proofs take memory that the whole text's compile does not have. -/

set_option Elab.async false

/-- Packets have been sent: ports, pools, flows, the record of a recovery and the devices that count as gone may differ. -/
structure SentOn (s t : State) : Prop where
  frame : t = { s with ports := t.ports, pools := t.pools, health := t.health, txFlows := t.txFlows, gone := t.gone }
  view : SameView s t

section
variable {s t u : State}

namespace SentOn

theorem refl : SentOn s s := ⟨rfl, .refl⟩

theorem trans (h : SentOn s t) (k : SentOn t u) : SentOn s u := ⟨by rw [k.frame, h.frame], h.view.trans k.view⟩

theorem foldl {α : Type} {f : State → α → State} (hf : ∀ s x, SentOn s (f s x)) (xs : List α) (s : State) :
    SentOn s (xs.foldl f s) := by
  induction xs generalizing s with
  | nil => exact refl
  | cons x xs ih => exact (hf s x).trans (ih _)

theorem modPort (p : Fin 16) (f : Port → Port) (hf : (f s.ports[p]).state = s.ports[p].state) : SentOn s (s.modPort p f) :=
  ⟨rfl, sameView_modPort p f hf⟩

theorem modPool (l : Fin 2) (f : Pool → Pool) : SentOn s (s.modPool l f) := ⟨rfl, sameView_modPool l f⟩

theorem openRecovery (k : RecoveryKind) : SentOn s (s.openRecovery k) := by
  unfold State.openRecovery
  split
  · exact .refl
  · exact ⟨rfl, { SameView.refl with }⟩

theorem setTxFlow (f : TxFlow) : SentOn s (s.setTxFlow f) := by
  unfold State.setTxFlow
  split <;> exact ⟨rfl, { SameView.refl with }⟩

theorem countNoRoute (dst : Nat) (y : PType) : SentOn s (s.countNoRoute dst y) := ⟨rfl, { SameView.refl with }⟩

theorem mem (h : SentOn s t) : t.mem = s.mem := h.view.mem
theorem dies (h : SentOn s t) : t.dies = s.dies := by rw [h.frame]
theorem chunks (h : SentOn s t) : t.chunks = s.chunks := by rw [h.frame]
theorem delivered (h : SentOn s t) : t.delivered = s.delivered := by rw [h.frame]
theorem moves (h : SentOn s t) : t.moves = s.moves := by rw [h.frame]
end SentOn

/-! ### Flows -/

theorem find?_modFirst {α : Type} {p : α → Bool} {y : α} {xs : List α} (hx : xs.any p = true) (hy : p y = true) :
    (modFirst p (fun _ => y) xs).find? p = some y := by
  induction xs with
  | nil => cases hx
  | cons x xs ih =>
    by_cases h : p x = true
    · simp [modFirst, h, hy]
    · rw [modFirst, if_neg h, List.find?_cons_of_neg h]
      exact ih (by simpa [h] using hx)

theorem txFlow_setTxFlow (f : TxFlow) : (s.setTxFlow f).txFlow f.dst f.fvc = f := by
  unfold State.setTxFlow State.txFlow
  split
  · rename_i h
    rw [find?_modFirst h (by simp), Option.getD_some]
  · rename_i h
    rw [List.find?_append, List.find?_eq_none.mpr (fun x hx hp => h (List.any_eq_true.mpr ⟨x, hx, hp⟩))]
    simp

theorem txFlow_key (dst fvc : Nat) : (s.txFlow dst fvc).dst = dst ∧ (s.txFlow dst fvc).fvc = fvc := by
  unfold State.txFlow
  cases h : s.txFlows.find? (fun f => decide (f.dst = dst ∧ f.fvc = fvc)) with
  | none => exact ⟨rfl, rfl⟩
  | some f => simpa using List.find?_some h

/-! ### One packet -/

/-- The next packet of a flow. -/
def State.nextPacket (s : State) (dst : Nat) (y : PType) (step key0 key1 : Nat) (payload : List Byte) : Packet :=
  { dst := dst, src := s.devNumber, ptype := y, fvc := ptypeVc y, psn := (s.txFlow dst (ptypeVc y)).nextPsn, step := step,
    key0 := BitVec.ofNat 64 key0, key1 := BitVec.ofNat 64 key1, payload := payload }

/-- The flow of a packet once it is sent. -/
def State.flowWith (s : State) (p : Packet) : TxFlow :=
  { s.txFlow p.dst p.fvc with
    nextPsn := ((s.txFlow p.dst p.fvc).nextPsn + 1) % 2 ^ 32, unacked := (s.txFlow p.dst p.fvc).unacked ++ [p] }

theorem unacked_setTxFlow (p : Packet) :
    ((t.setTxFlow (s.flowWith p)).txFlow p.dst p.fvc).unacked = (s.txFlow p.dst p.fvc).unacked ++ [p] := by
  have hd : (s.flowWith p).dst = p.dst := (txFlow_key _ _).1
  have hv : (s.flowWith p).fvc = p.fvc := (txFlow_key _ _).2
  have h := txFlow_setTxFlow (s := t) (s.flowWith p)
  rw [hd, hv] at h
  rw [h]
  rfl

/-- A packet of this device enters the queue of the port of its route. -/
theorem queueEntry_own {p : Packet} {side : Nat} (h : (s.route p.dst side).isSome = true) :
    ∃ t, s.queueEntry (ownEntry p) side false = some t ∧ SentOn s t ∧ t.txFlows = s.txFlows := by
  obtain ⟨⟨port, crossed, changed⟩, hr⟩ := Option.isSome_iff_exists.mp h
  simp only [State.queueEntry, ownEntry, hr, Option.isSome_none, Bool.false_and, Bool.false_eq_true, if_false, Bool.false_or]
  refine ⟨_, rfl, ?_⟩
  have hport : ∀ e : TxEntry, SentOn s (s.modPort port (fun x => { x with txQueue := x.txQueue ++ [e] })) :=
    fun e => .modPort _ _ rfl
  cases crossed <;> cases changed <;> simp only [Bool.false_eq_true, if_false, if_true]
  · exact ⟨hport _, rfl⟩
  · exact ⟨(hport _).trans (.openRecovery _), by unfold State.openRecovery; split <;> rfl⟩
  · exact ⟨(hport _).trans (.modPool _ _), rfl⟩
  · exact ⟨((hport _).trans (.modPool _ _)).trans (.openRecovery _), by unfold State.openRecovery; split <;> rfl⟩

variable {dst step key0 key1 : Nat} {y : PType} {bs : List Byte}

/-- With a route a packet is numbered, queued, and kept until it is acknowledged. -/
theorem sendOne_routed (key0 key1 : Nat) (bs : List Byte) (h : (s.route dst (flowSide s.devNumber dst (ptypeVc y))).isSome = true) :
    ∃ t, s.sendOne dst y step key0 key1 bs = .ok t ∧ SentOn s t ∧ (t.txFlow dst (ptypeVc y)).unacked =
      (s.txFlow dst (ptypeVc y)).unacked ++ [s.nextPacket dst y step key0 key1 bs] := by
  obtain ⟨t, hq, hs, -⟩ := queueEntry_own (p := s.nextPacket dst y step key0 key1 bs) h
  have hx : s.sendOne dst y step key0 key1 bs = .ok (t.setTxFlow (s.flowWith (s.nextPacket dst y step key0 key1 bs))) := by
    unfold State.nextPacket at hq
    simp only [State.sendOne, hq]
    rfl
  exact ⟨_, hx, hs.trans (.setTxFlow _), unacked_setTxFlow _⟩

theorem sendOne_sentOn (h : s.sendOne dst y step key0 key1 bs = .ok t) : SentOn s t := by
  cases hr : s.route dst (flowSide s.devNumber dst (ptypeVc y)) with
  | none => simp [State.sendOne, State.queueEntry, ownEntry, hr] at h
  | some r =>
    obtain ⟨u, hu, hs, -⟩ := sendOne_routed (step := step) key0 key1 bs (Option.isSome_iff_exists.mpr ⟨r, hr⟩)
    rw [hu] at h
    cases h
    exact hs

/-! ### Payloads longer than a packet holds (R449, log entry 12) -/

theorem sendParts_sentOn {parts : List (List Byte)} (h : s.sendParts dst y step key0 key1 parts = .ok t) : SentOn s t := by
  induction parts generalizing s key0 with
  | nil => cases h; exact .refl
  | cons b rest ih =>
    rw [State.sendParts] at h
    split at h
    · cases h
    · exact (sendOne_sentOn ‹_›).trans (ih h)

theorem trySend_sentOn (s : State) (dst : Nat) (y : PType) (step key0 key1 : Nat) (bs : List Byte) :
    SentOn s (s.trySend dst y step key0 key1 bs) := by
  unfold State.trySend
  split
  · exact sendParts_sentOn ‹_›
  · exact .countNoRoute _ _

/-- Where the n-th payload of a message lies: that of a WRITE behind those before it. -/
def partKey0 (y : PType) (key0 : Nat) (parts : List (List Byte)) (n : Nat) : Nat :=
  if y = .write then key0 + (parts.take n).flatten.length else key0

theorem partKey0_zero (parts : List (List Byte)) : partKey0 y key0 parts 0 = key0 := by
  unfold partKey0
  split <;> simp

theorem partKey0_succ (b : List Byte) (rest : List (List Byte)) (n : Nat) :
    partKey0 y key0 (b :: rest) (n + 1) = partKey0 y (if y = .write then key0 + b.length else key0) rest n := by
  unfold partKey0
  split <;> simp [Nat.add_assoc]

/-- With a route every payload goes out, and waits to be acknowledged. -/
theorem sendParts_routed {parts : List (List Byte)} (h : (s.route dst (flowSide s.devNumber dst (ptypeVc y))).isSome = true) :
    ∃ t, s.sendParts dst y step key0 key1 parts = .ok t ∧ SentOn s t ∧
      (∀ q ∈ (s.txFlow dst (ptypeVc y)).unacked, q ∈ (t.txFlow dst (ptypeVc y)).unacked) ∧
      ∀ n b, parts[n]? = some b → ∃ q ∈ (t.txFlow dst (ptypeVc y)).unacked, q.ptype = y ∧ q.dst = dst ∧ q.payload = b ∧
        q.key0 = BitVec.ofNat 64 (partKey0 y key0 parts n) ∧ q.key1 = BitVec.ofNat 64 key1 := by
  induction parts generalizing s key0 with
  | nil => exact ⟨s, rfl, .refl, fun _ => id, fun n b hb => by simp at hb⟩
  | cons b rest ih =>
    obtain ⟨v, hv, hs, hu⟩ := sendOne_routed (step := step) key0 key1 b h
    have hr : (v.route dst (flowSide v.devNumber dst (ptypeVc y))).isSome = true := by
      rw [hs.view.route, hs.view.devNumber, h]
    obtain ⟨t, ht, hs', hold, hnew⟩ := ih (key0 := if y = .write then key0 + b.length else key0) hr
    refine ⟨t, by simp only [State.sendParts, hv, ht], hs.trans hs', fun q hq => hold q (by rw [hu]; simp [hq]), fun n d hd => ?_⟩
    cases n with
    | zero =>
      obtain rfl : b = d := by simpa using hd
      exact ⟨s.nextPacket dst y step key0 key1 b, hold _ (by rw [hu]; simp), rfl, rfl, rfl, by rw [partKey0_zero]; rfl, rfl⟩
    | succ n =>
      rw [partKey0_succ]
      exact hnew n d hd

/-- The payloads ahead of one of a message are full. -/
theorem length_payloadParts_take (m : Nat) {n : Nat} {b : List Byte} (h : (payloadParts m bs)[n]? = some b) :
    ((payloadParts m bs).take n).flatten.length = maxPayload * n := by
  induction m generalizing bs n with
  | zero =>
    cases n with
    | zero => rfl
    | succ n => simp [payloadParts] at h
  | succ m ih =>
    cases n with
    | zero => rfl
    | succ n =>
      rw [payloadParts] at h ⊢
      split
      · rename_i hshort
        simp [hshort] at h
      · rename_i hlong
        rw [if_neg hlong] at h
        rw [List.take_succ_cons, List.flatten_cons, List.length_append, ih (by simpa using h), List.length_take]
        rw [Nat.mul_succ]
        omega

/-- With a route a message goes out whole, in packets of its payload's parts. -/
theorem sendPacket_routed (step key0 key1 : Nat) (bs : List Byte)
    (h : (s.route dst (flowSide s.devNumber dst (ptypeVc y))).isSome = true) :
    ∃ t, s.sendPacket dst y step key0 key1 bs = .ok t ∧ SentOn s t ∧
      ∀ n b, (payloadParts (bs.length / maxPayload) bs)[n]? = some b → ∃ q ∈ (t.txFlow dst (ptypeVc y)).unacked,
        q.ptype = y ∧ q.dst = dst ∧ q.payload = b ∧
        q.key0 = BitVec.ofNat 64 (if y = .write then key0 + maxPayload * n else key0) ∧ q.key1 = BitVec.ofNat 64 key1 := by
  obtain ⟨t, ht, hs, -, hnew⟩ := sendParts_routed (step := step) (key0 := key0) (key1 := key1)
    (parts := payloadParts (bs.length / maxPayload) bs) h
  refine ⟨t, ht, hs, fun n b hb => ?_⟩
  have hk := hnew n b hb
  rwa [partKey0, length_payloadParts_take _ hb] at hk

end

end Sys2Proof.Machine
end

section
/-! PROOFS. Gathers: GATHER and PREFETCH, and the Cloche's lookup (R180 to R190, R214). -/

namespace Sys2Proof.Machine

/-! Elaborated one after another: side by side these proofs take memory that the whole text's compile does not have. -/

set_option Elab.async false

/-- A cluster, and memory with the stacks' records of their units, may differ. -/
def OnlyClusterMemory (g : Fin 32) (s t : State) : Prop :=
  t = { s with clusters := s.clusters.set g t.clusters[g], mem := t.mem, hbm := t.hbm }

/-- A started descriptor whose engine is at work on it. -/
def Running.works (r : Running) : Running := { r with phase := .working }

/-- A started descriptor that has done its work and owes no summary. -/
def Running.done (r : Running) : Running := { r with phase := .finished, summary := none }

section
variable {s t u : State} {g : Fin 32} {c : RakeCtl} {td : TableDesc} {j : RakeJob} {r : Running} {row pos slot : Nat}

theorem OnlyClusterMemory.trans (h : OnlyClusterMemory g s t) (k : OnlyClusterMemory g t u) : OnlyClusterMemory g s u := by
  unfold OnlyClusterMemory at *
  rw [k, h]
  simp

theorem OnlyCluster.clusterMemory (h : OnlyCluster g s t) : OnlyClusterMemory g s t := by
  rw [h]
  simp [OnlyClusterMemory]

theorem OnlyMemory.clusterMemory (h : OnlyMemory s t) : OnlyClusterMemory g s t := by
  rw [h]
  simp [OnlyClusterMemory]

/-! ### The Rake's updates -/

theorem onlyCluster_modRake (f : Rake → Rake) : OnlyCluster g s (s.modRake g f) := onlyCluster_modCluster _

theorem clusters_modRake (f : Rake → Rake) :
    (s.modRake g f).clusters[g] = { s.clusters[g] with rake := f s.clusters[g].rake } := by
  simp [State.modRake]

theorem rake_modRake (f : Rake → Rake) : (s.modRake g f).clusters[g].rake = f s.clusters[g].rake := by
  rw [clusters_modRake]

theorem queue_modRake (q : QueueId) (f : Rake → Rake) : (s.modRake g f).queue g q = s.queue g q :=
  queue_congr _ _ _ (by rw [clusters_modRake])

theorem modRake_self : s.modRake g (fun _ => s.clusters[g].rake) = s := by
  have h : { s with clusters := s.clusters.set g s.clusters[g] } = s := by simp
  exact h

theorem rake_setRunning (q : QueueId) (r r' : Running) : (s.setRunning g q r r').clusters[g].rake = s.clusters[g].rake := by
  rw [State.setRunning, clusters_modQueue]
  rfl

theorem jobs_setRakeJob (r : Running) (j : RakeJob) : (s.setRakeJob g r j).clusters[g].rake.jobs =
    modFirst (fun y => decide (y.run = r)) (fun _ => j) s.clusters[g].rake.jobs := by
  rw [State.setRakeJob, rake_modRake]

theorem mem_modFirst_of_any {α : Type} {p : α → Bool} {x y : α} {xs : List α} (hx : x ∈ xs) (hp : p x = true) :
    y ∈ modFirst p (fun _ => y) xs := by
  induction xs with
  | nil => cases hx
  | cons z xs ih =>
    by_cases hz : p z = true
    · simp [modFirst, hz]
    · have : x ∈ xs := (List.mem_cons.mp hx).resolve_left (fun e => hz (e ▸ hp))
      simp [modFirst, hz, ih this]

/-- A job put in the place of one of the same descriptor is among the jobs. -/
theorem mem_setRakeJob {i : RakeJob} (hi : i ∈ s.clusters[g].rake.jobs) (hr : i.run = r) (j : RakeJob) :
    j ∈ (s.setRakeJob g r j).clusters[g].rake.jobs := by
  rw [jobs_setRakeJob]
  exact mem_modFirst_of_any hi (by simpa using hr)

theorem mem_jobs_of_rakeJob (h : s.rakeJob g r = some j) : j ∈ s.clusters[g].rake.jobs ∧ j.run = r :=
  ⟨List.mem_of_find?_eq_some h, by simpa using List.find?_some h⟩

/-! ### A descriptor that becomes a job -/

/-- The state in which a started Rake command has become a job that holds no staging blocks. -/
def State.opened (s : State) (g : Fin 32) (r : Running) : State :=
  (s.setRunning g .rake r r.works).modRake g (fun x => { x with jobs := x.jobs ++ [newRakeJob r.works] })

theorem openRakeJob_nil : s.openRakeJob g r [] = (newRakeJob r.works, s.opened g r) := rfl

theorem onlyCluster_opened : OnlyCluster g s (s.opened g r) := (onlyCluster_modQueue ..).trans (onlyCluster_modRake _)

theorem sameView_opened : SameView s (s.opened g r) := (sameView_setRunning ..).trans (sameView_modRake _)

theorem rake_opened : (s.opened g r).clusters[g].rake =
    { s.clusters[g].rake with jobs := s.clusters[g].rake.jobs ++ [newRakeJob r.works] } := by
  rw [State.opened, rake_modRake, rake_setRunning]

theorem newJob_mem_opened : newRakeJob r.works ∈ (s.opened g r).clusters[g].rake.jobs := by
  rw [rake_opened]
  simp

theorem running_opened {opcode : Nat} (h : s.activeOp g .rake opcode = some r) : r.works ∈ ((s.opened g r).queue g .rake).running := by
  rw [State.opened, queue_modRake, queue_setRunning]
  exact mem_modFirst (mem_running_of_activeOp h)

theorem decayDue_opened : (s.opened g r).decayDue g = s.decayDue g := by
  rw [State.decayDue, rake_opened]
  rfl

/-! ### The Cloche's lookup (R182) -/

/-- What a lookup finds depends on the Cloche alone. -/
theorem clocheAccess_congr {hot cap policy sets : Nat} {noAlloc : Bool} {i : Nat} {x y : Rake} (h : y.cloche = x.cloche) :
    (clocheAccess hot cap policy sets noAlloc td i row y).1 = (clocheAccess hot cap policy sets noAlloc td i row x).1 := by
  unfold clocheAccess
  dsimp only
  rw [h]
  split
  · split
    · rfl
    · split <;> rfl
  · split <;> rfl

theorem clocheAccess_leaves (hot cap policy sets : Nat) (noAlloc : Bool) (td : TableDesc) (i row : Nat) (x : Rake) :
    (clocheAccess hot cap policy sets noAlloc td i row x).2.jobs = x.jobs ∧
    (clocheAccess hot cap policy sets noAlloc td i row x).2.rowsGathered = x.rowsGathered := by
  unfold clocheAccess
  dsimp only
  split
  · split
    · exact ⟨rfl, rfl⟩
    · split <;> exact ⟨rfl, rfl⟩
  · split <;> exact ⟨rfl, rfl⟩

/-- A lookup changes the Rake's Cloche and its counts alone. -/
theorem rowLookup_leaves (s : State) (g : Fin 32) (c : RakeCtl) (td : TableDesc) (row : Nat) :
    ∃ x : Rake, (s.rowLookup g c td row).2 = s.modRake g (fun _ => x) ∧ x.jobs = s.clusters[g].rake.jobs ∧
      x.rowsGathered = s.clusters[g].rake.rowsGathered := by
  unfold State.rowLookup
  dsimp only
  split
  · exact ⟨_, modRake_self.symm, rfl, rfl⟩
  · split
    · exact ⟨_, modRake_self.symm, rfl, rfl⟩
    · exact ⟨_, rfl, clocheAccess_leaves ..⟩

theorem rowLookup_opened : ((s.opened g r).rowLookup g c td row).1 = (s.rowLookup g c td row).1 := by
  have hk : (s.opened g r).clocheSets g td = s.clocheSets g td := by
    rw [State.clocheSets, State.clocheSets, State.opened, clusters_modRake, State.setRunning, clusters_modQueue]
    rfl
  have hr : (s.opened g r).clusters[g].rake.cloche = s.clusters[g].rake.cloche := by rw [rake_opened]
  unfold State.rowLookup
  dsimp only
  rw [hk]
  split
  · rfl
  · split
    · simp only [clochePeek, hr]
    · exact clocheAccess_congr hr

/-! ### Taking a row (R187, R189, R190) -/

/-- A row that the Cloche does not serve is on its way for its position. -/
theorem takeRow_fetch {fill : Bool} {src : RowSource × Nat} (he : s.readEntry g c j.next = .ok row) (hn : j.recent = [])
    (hs : s.rowSource g c.table td j.next row = .ok src) (hl : (s.rowLookup g c td row).1 = .fetch fill) :
    s.takeRow g c td j = (pushRecent row 0 none { j with
      next := j.next + 1
      items := j.items ++ [{ row := row, positions := [j.next], fill := fill, epoch := td.commitEpoch, tag := none }] },
      (s.rowLookup g c td row).2) := by
  have hp : s.rowLookup g c td row = (.fetch fill, (s.rowLookup g c td row).2) := Prod.ext hl rfl
  simp only [State.takeRow, he, hn, List.find?_nil, hs]
  rw [hp]

/-- A row that the Cloche serves goes to its position. -/
theorem takeRow_record {bs : List Byte} {src : RowSource × Nat} (he : s.readEntry g c j.next = .ok row) (hn : j.recent = [])
    (hs : s.rowSource g c.table td j.next row = .ok src) (hl : (s.rowLookup g c td row).1 = .record bs) :
    s.takeRow g c td j = (s.rowLookup g c td row).2.giveRow g c td (pushRecent row 0 (some bs) { j with next := j.next + 1 }) row bs
      false [j.next] := by
  have hp : s.rowLookup g c td row = (.record bs, (s.rowLookup g c td row).2) := Prod.ext hl rfl
  simp only [State.takeRow, he, hn, List.find?_nil, hs]
  rw [hp]

theorem takeRows_one (hf : j.fault = none) (hn : j.next < 1) (hc : c.count = 1) (hd : s.decayDue g = false) :
    s.takeRows g c td 1 j = s.takeRow g c td j := by
  simp only [State.takeRows, hf, hd, hc, Option.isSome_none, Bool.false_eq_true, or_false, Nat.not_le.mpr hn, if_false]

/-- PREFETCH does nothing more with a record. -/
theorem giveRow_prefetch {rec : List Byte} {counts : Bool} (h : c.opcode = 3) (ps : List Nat) :
    s.giveRow g c td j row rec counts ps = (j, s) := by
  cases ps with
  | nil => rfl
  | cons p ps => rw [State.giveRow, if_pos h]

/-- The state once a row has gone to a position of an ordinary GATHER. -/
def State.rowWritten (s : State) (g : Fin 32) (c : RakeCtl) (td : TableDesc) (rec : List Byte) (pos : Nat) : State :=
  (s.writeMem (c.dst + pos * outBytes td c.outFmt) (outRow td c.outFmt rec)).modRake g
    (fun x => { x with rowsGathered := wrap64 x.rowsGathered 1 })

theorem writeRow_eq {who : Who} {rec : List Byte} {w : State} (h : SameView s t)
    (hw : s.writeChecked who (c.dst + pos * outBytes td c.outFmt) (outRow td c.outFmt rec) = .ok w) :
    t.writeRow g c td who rec pos = .ok (t.rowWritten g c td rec pos) := by
  rw [State.writeRow, State.writeOut, (h.writeChecked hw).1]
  rfl

/-- A row written: its bytes, and its count. -/
theorem rowWritten_leaves {who : Who} {rec : List Byte} {w : State} (h : SameView s t)
    (hw : s.writeChecked who (c.dst + pos * outBytes td c.outFmt) (outRow td c.outFmt rec) = .ok w) :
    OnlyClusterMemory g t (t.rowWritten g c td rec pos) ∧ (t.rowWritten g c td rec pos).mem = w.mem ∧
    (t.hbm = s.hbm → (t.rowWritten g c td rec pos).hbm = w.hbm) ∧
    (t.rowWritten g c td rec pos).clusters[g].rake.rowsGathered = t.clusters[g].rake.rowsGathered + 1 ∧
    ∀ q, (t.rowWritten g c td rec pos).queue g q = t.queue g q := by
  have hm : OnlyMemory t (t.writeMem (c.dst + pos * outBytes td c.outFmt) (outRow td c.outFmt rec)) := writeMem_frame ..
  have hc : (t.writeMem (c.dst + pos * outBytes td c.outFmt) (outRow td c.outFmt rec)).clusters = t.clusters := by rw [hm]
  refine ⟨hm.clusterMemory.trans (onlyCluster_modRake _).clusterMemory, (h.writeChecked hw).2, fun hh => ?_, ?_, fun q => ?_⟩
  · obtain ⟨-, -, rfl⟩ := writeChecked_ok _ _ _ _ _ hw
    exact h.writeMem_hbm hh _ _
  · rw [State.rowWritten, rake_modRake, hc]
    rfl
  · rw [State.rowWritten, queue_modRake]
    exact queue_congr _ _ _ (by rw [hc])

/-- A GATHER writes a record to its position and counts it. -/
theorem giveRow_gather {rec : List Byte} {counts : Bool} {w : State} (ho : c.opcode = 1) (hspec : c.spec = false) (h : SameView s t)
    (hw : s.writeChecked (.ofCluster g .any) (c.dst + pos * outBytes td c.outFmt) (outRow td c.outFmt rec) = .ok w) :
    t.giveRow g c td j row rec counts [pos] = (j, t.rowWritten g c td rec pos) := by
  have h3 : ¬ c.opcode = 3 := by omega
  simp only [State.giveRow, h3, hspec, Bool.false_eq_true, if_false, writeRow_eq h hw]

/-! ### The end of a job -/

theorem settleJob_pending (h : j.items ≠ []) : s.settleJob g c td j = s.setRakeJob g j.run j := by
  rw [State.settleJob, if_pos (by simpa using h)]

theorem settleJob_done (hi : j.items = []) (hf : j.fault = none) (hn : c.count ≤ j.next) (hb : j.bag = none)
    (hs : c.spec = false) : s.settleJob g c td j = (s.dropRakeJob g j.run).finishDesc g .rake j.run none := by
  simp only [State.settleJob, hi, hf, hb, hs, List.isEmpty_nil, Bool.not_true, Bool.false_eq_true, if_false, Nat.not_lt.mpr hn,
    Option.isSome_none, or_self]

/-- The state in which a job has ended and its command is done. -/
def State.jobDone (s : State) (g : Fin 32) (r : Running) : State := (s.dropRakeJob g r.works).finishDesc g .rake r.works none

theorem jobDone_leaves (h : r.works ∈ (t.queue g .rake).running) : OnlyCluster g t (t.jobDone g r) ∧
    (t.jobDone g r).clusters[g].rake.rowsGathered = t.clusters[g].rake.rowsGathered ∧
    r.done ∈ ((t.jobDone g r).queue g .rake).running := by
  refine ⟨(onlyCluster_modRake _).trans (onlyCluster_modQueue ..), ?_, ?_⟩
  · rw [State.jobDone, State.finishDesc, rake_setRunning, State.dropRakeJob, rake_modRake]
  · rw [State.jobDone, State.finishDesc, queue_setRunning, State.dropRakeJob, queue_modRake]
    exact mem_modFirst h

/-- The job of a one-row command that has been given its row. -/
def takenJob (r : Running) (row : Nat) (bs : List Byte) : RakeJob :=
  pushRecent row 0 (some bs) { newRakeJob r.works with next := 1 }

/-! ### GATHER and PREFETCH -/

/-- A fresh command that passes its checks takes the rows of its list. -/
theorem rakeOp_opens {opcode : Nat} (ha : s.activeOp g .rake opcode = some r) (hc : rakeCtl r.q.desc = c)
    (hb : s.rakeBad r.q.desc c = none) (ht : s.table c.table = some td) (hj : s.rakeJob g r = none) (hk : s.rakeCheck g c td = .ok ())
    (hs : c.spec = false) : rakeOp g opcode s =
      ((s.opened g r).takeRows g c td c.count (newRakeJob r.works)).2.settleJob g c td
        ((s.opened g r).takeRows g c td c.count (newRakeJob r.works)).1 := by
  simp only [rakeOp, ha, hc, hb, State.gatherRun, ht, hj, hk, hs, Bool.false_eq_true, false_and, if_false, openRakeJob_nil]

/-- What the statements say of a fresh ordinary one-row command. -/
structure OneRow (s : State) (g : Fin 32) (opcode : Nat) (r : Running) (c : RakeCtl) (td : TableDesc) (row : Nat) : Prop where
  active : s.activeOp g .rake opcode = some r
  ctl : rakeCtl r.q.desc = c
  fresh : s.rakeJob g r = none
  fields : s.rakeBad r.q.desc c = none
  table : s.table c.table = some td
  ordinary : c.spec = false
  one : c.count = 1
  calm : s.decayDue g = false
  entry : s.readEntry g c 0 = .ok row
  found : ∃ src, s.rowSource g c.table td 0 row = .ok src
  allowed : s.rakeCheck g c td = .ok ()

namespace OneRow
variable {opcode : Nat}

theorem opcode_eq (h : OneRow s g opcode r c td row) : c.opcode = opcode := by
  have ho : r.q.desc.opcode = opcode := by simpa using (Option.filter_eq_some_iff.mp h.active).2
  rw [← h.ctl]
  exact ho

/-- The command takes its row, and its job is settled. -/
theorem rakeOp_eq (h : OneRow s g opcode r c td row) : rakeOp g opcode s =
    ((s.opened g r).takeRow g c td (newRakeJob r.works)).2.settleJob g c td
      ((s.opened g r).takeRow g c td (newRakeJob r.works)).1 := by
  rw [rakeOp_opens h.active h.ctl h.fields h.table h.fresh h.allowed h.ordinary, h.one,
    takeRows_one rfl Nat.one_pos h.one (decayDue_opened.trans h.calm)]

theorem entry_opened (h : OneRow s g opcode r c td row) : (s.opened g r).readEntry g c (newRakeJob r.works).next = .ok row :=
  (sameView_opened.readEntry ..).trans h.entry

theorem found_opened (h : OneRow s g opcode r c td row) :
    ∃ src, (s.opened g r).rowSource g c.table td (newRakeJob r.works).next row = .ok src := by
  obtain ⟨src, hs⟩ := h.found
  exact ⟨src, (sameView_opened.rowSource ..).trans hs⟩

/-- A row that must be fetched is on its way at position 0. -/
theorem pending (h : OneRow s g opcode r c td row) {fill : Bool} (hl : (s.rowLookup g c td row).1 = .fetch fill) :
    OnlyCluster g s (rakeOp g opcode s) ∧ ∃ j ∈ (rakeOp g opcode s).clusters[g].rake.jobs, j.run = r.works ∧ j.next = 1 ∧
      j.fault = none ∧ j.items = [{ row := row, positions := [0], fill := fill, epoch := td.commitEpoch, tag := none }] := by
  obtain ⟨src, hs⟩ := h.found_opened
  obtain ⟨x, hx, hjobs, -⟩ := rowLookup_leaves (s.opened g r) g c td row
  rw [h.rakeOp_eq, takeRow_fetch h.entry_opened rfl hs (rowLookup_opened.trans hl),
    settleJob_pending (by simp [pushRecent, newRakeJob]), hx]
  refine ⟨onlyCluster_opened.trans ((onlyCluster_modRake _).trans (onlyCluster_modRake _)), _,
    mem_setRakeJob (i := newRakeJob r.works) ?_ rfl _, rfl, rfl, rfl, rfl⟩
  rw [rake_modRake, hjobs]
  exact newJob_mem_opened

/-- A row that the Cloche serves has its record at once: its job is done. -/
theorem served (h : OneRow s g opcode r c td row) {bs : List Byte} (hl : (s.rowLookup g c td row).1 = .record bs)
    (hg : ((s.opened g r).rowLookup g c td row).2.giveRow g c td (takenJob r row bs) row bs false [0] = (takenJob r row bs, t)) :
    rakeOp g opcode s = t.jobDone g r := by
  obtain ⟨src, hs⟩ := h.found_opened
  have ht := takeRow_record h.entry_opened rfl hs (rowLookup_opened.trans hl)
  rw [h.rakeOp_eq, ht.trans hg]
  exact settleJob_done rfl rfl h.one.le rfl h.ordinary

/-- The state in which the Cloche has been looked up. -/
theorem lookup_leaves (h : OneRow s g opcode r c td row) : OnlyCluster g s ((s.opened g r).rowLookup g c td row).2 ∧
    SameView s ((s.opened g r).rowLookup g c td row).2 ∧
    ((s.opened g r).rowLookup g c td row).2.clusters[g].rake.rowsGathered = s.clusters[g].rake.rowsGathered ∧
    r.works ∈ (((s.opened g r).rowLookup g c td row).2.queue g .rake).running := by
  obtain ⟨x, hx, -, hrows⟩ := rowLookup_leaves (s.opened g r) g c td row
  rw [hx]
  refine ⟨onlyCluster_opened.trans (onlyCluster_modRake _), sameView_opened.trans (sameView_modRake _), ?_, ?_⟩
  · rw [rake_modRake, hrows, rake_opened]
  · rw [queue_modRake]
    exact running_opened h.active

/-- A PREFETCH whose row the Cloche holds finishes without a write. -/
theorem prefetched (h : OneRow s g 3 r c td row) {bs : List Byte} (hl : (s.rowLookup g c td row).1 = .record bs) :
    OnlyCluster g s (rakeOp g 3 s) ∧ (rakeOp g 3 s).clusters[g].rake.rowsGathered = s.clusters[g].rake.rowsGathered ∧
      r.done ∈ ((rakeOp g 3 s).queue g .rake).running := by
  obtain ⟨hframe, -, hrows, hrun⟩ := h.lookup_leaves
  rw [h.served hl (giveRow_prefetch h.opcode_eq _)]
  obtain ⟨dframe, drows, ddone⟩ := jobDone_leaves hrun
  exact ⟨hframe.trans dframe, by rw [drows, hrows], ddone⟩

/-- A GATHER whose row the Cloche holds writes it, counts it and finishes. -/
theorem gathered (h : OneRow s g 1 r c td row) {bs : List Byte} {w : State} (hl : (s.rowLookup g c td row).1 = .record bs)
    (hw : s.writeChecked (.ofCluster g .any) c.dst (outRow td c.outFmt bs) = .ok w) :
    OnlyClusterMemory g s (rakeOp g 1 s) ∧ (rakeOp g 1 s).mem = w.mem ∧ (rakeOp g 1 s).hbm = w.hbm ∧
      (rakeOp g 1 s).clusters[g].rake.rowsGathered = s.clusters[g].rake.rowsGathered + 1 ∧
      r.done ∈ ((rakeOp g 1 s).queue g .rake).running := by
  obtain ⟨hframe, hview, hrows, hrun⟩ := h.lookup_leaves
  have hw0 : s.writeChecked (.ofCluster g .any) (c.dst + 0 * outBytes td c.outFmt) (outRow td c.outFmt bs) = .ok w := by
    rwa [Nat.zero_mul, Nat.add_zero]
  rw [h.served hl (giveRow_gather h.opcode_eq h.ordinary hview hw0)]
  obtain ⟨wframe, wmem, whbm, wrows, wqueue⟩ := rowWritten_leaves (g := g) hview hw0
  obtain ⟨dframe, drows, ddone⟩ := jobDone_leaves (g := g) (r := r) (by rw [wqueue]; exact hrun)
  refine ⟨(hframe.clusterMemory.trans wframe).trans dframe.clusterMemory, ?_, ?_, by rw [drows, wrows, hrows], ddone⟩
  · rw [dframe, wmem]
  · rw [dframe, whbm (by rw [hframe])]
end OneRow
end

/-- Settles O23: what the Cloche's lookup finds decides between a record and a row on its way. -/
theorem gatherTakesItsRows : Obligations.GatherTakesItsRows := by
  intro g r td row slot src s c _ hj hb ht hspec hn hd he hs hk
  have hrow : ∀ opcode, s.activeOp g .rake opcode = some r → OneRow s g opcode r c td row :=
    fun _ ha => ⟨ha, rfl, hj, hb, ht, hspec, hn, hd, he, ⟨_, hs⟩, hk⟩
  refine ⟨fun bs w ha hl hw => ?_, fun fill ha hl => ?_, fun bs ha hl => ?_, fun fill ha hl => ?_⟩
  · obtain ⟨hframe, hmem, hhbm, hrows, hdone⟩ := (hrow 1 ha).gathered hl hw
    refine ⟨_, rfl, hmem, fun a ha => ?_, hrows, ?_, hdone⟩
    · rw [hmem]
      exact sameMemoryBut_writeChecked hw a ha
    · rw [← hmem, ← hhbm]
      exact hframe
  · exact ⟨_, rfl, (hrow 1 ha).pending hl⟩
  · exact ⟨_, rfl, (hrow 3 ha).prefetched hl⟩
  · exact ⟨_, rfl, (hrow 3 ha).pending hl⟩

end Sys2Proof.Machine
end

section
/-! PROOFS. Records: records read in place, staged rows checked and copied, and what fills and ages the Cloche (R181, R182, R193, R209). -/

namespace Sys2Proof.Machine

/-! Elaborated one after another: side by side these proofs take memory that the whole text's compile does not have. -/

set_option Elab.async false

/-- The Rake's counts of rows written, bags written and rows fetched again (R214). -/
def Rake.counts (x : Rake) : Word × Word × Word := (x.rowsGathered, x.bagsPooled, x.specRefetched)

/-- What the end of a job leaves: memory, the Rake's counts, and the stacks' counts of rows read. -/
structure Settles (g : Fin 32) (s t : State) : Prop where
  mem : t.mem = s.mem
  counts : t.clusters[g].rake.counts = s.clusters[g].rake.counts
  loads : ∀ k : Fin 12, t.hbm[k].loads = s.hbm[k].loads

section
variable {s t u : State} {g : Fin 32} {c : RakeCtl} {td : TableDesc} {j : RakeJob} {r : Running} {pos : Nat}

namespace Settles

theorem trans (h : Settles g s t) (k : Settles g t u) : Settles g s u :=
  ⟨k.mem.trans h.mem, k.counts.trans h.counts, fun i => (k.loads i).trans (h.loads i)⟩

theorem of_cluster {f : Cluster → Cluster} (hf : (f s.clusters[g]).rake.counts = s.clusters[g].rake.counts) :
    Settles g s (s.modCluster g f) :=
  ⟨rfl, by simpa using hf, fun _ => rfl⟩

theorem countUe (f : Fail) : Settles g s (s.countUe f) := by
  refine ⟨by simp, by rw [countUe_frame], fun k => ?_⟩
  unfold State.countUe
  split
  · by_cases hk : k = fin12 f.arg1
    · subst hk
      simp
    · have : (fin12 f.arg1 : Nat) ≠ k := fun e => hk (Fin.ext e.symm)
      simp [Vector.getElem_set_ne, this]
  · rfl

theorem failDesc (q : QueueId) (r : Running) (f : Fail) : Settles g s (s.failDesc g q r f) := by
  have hr : ∀ (v : State) (unit : BitVec 16) (code n a0 a1 a2 : Nat), Settles g v (v.raise unit code n a0 a1 a2) :=
    fun v _ _ _ _ _ _ => ⟨by simp, by simp, fun k => by simp⟩
  exact ((of_cluster (f := fun c => c.modQueue (queueCode q) _) rfl).trans (countUe f)).trans (hr ..)

theorem finishDesc (q : QueueId) (r : Running) (x : Option Summary) : Settles g s (s.finishDesc g q r x) :=
  of_cluster (f := fun c => c.modQueue (queueCode q) _) rfl

theorem modRake {f : Rake → Rake} (hf : (f s.clusters[g].rake).counts = s.clusters[g].rake.counts) : Settles g s (s.modRake g f) :=
  of_cluster hf

theorem settleJob (s : State) (g : Fin 32) (c : RakeCtl) (td : TableDesc) (j : RakeJob) : Settles g s (s.settleJob g c td j) := by
  have hset : Settles g s (s.setRakeJob g j.run j) := modRake rfl
  have hdrop : Settles g s (s.dropRakeJob g j.run) := modRake rfl
  unfold State.settleJob
  split
  · exact hset
  · split
    · exact hdrop.trans (failDesc ..)
    · split
      · exact hset
      · split
        · exact (hdrop.trans (of_cluster (f := fun c => c.modQueue (queueCode .rake) _) rfl)).trans (modRake rfl)
        · exact hdrop.trans (finishDesc ..)

theorem settleStaged (s : State) (g : Fin 32) (x : StagedGather) : Settles g s (s.settleStaged g x) := by
  unfold State.settleStaged
  split
  · exact (modRake (f := fun k => { k with staged := delFirst (fun y => decide (y.run = x.run)) k.staged }) rfl).trans
      (finishDesc ..)
  · exact modRake rfl

theorem rowsGathered (h : Settles g s t) : t.clusters[g].rake.rowsGathered = s.clusters[g].rake.rowsGathered :=
  congrArg Prod.fst h.counts

theorem bagsPooled (h : Settles g s t) : t.clusters[g].rake.bagsPooled = s.clusters[g].rake.bagsPooled :=
  congrArg (fun x => x.2.1) h.counts
end Settles

theorem loads_writeMem (a : Nat) (bs : List Byte) (k : Fin 12) : (s.writeMem a bs).hbm[k].loads = s.hbm[k].loads := by
  unfold State.writeMem
  dsimp only
  split
  · simpa using (Stack.counts_countWeak _ _).loads
  · rfl

theorem loads_rowWritten (rec : List Byte) (k : Fin 12) : (t.rowWritten g c td rec pos).hbm[k].loads = t.hbm[k].loads :=
  loads_writeMem _ _ k

/-! ### A record read where it lies (R181, R187, R209) -/

/-- The state once a row has been read here and counted for its slot. -/
def State.rowCounted (s : State) (i slot addr n : Nat) : State := ((s.noteRead addr n).countSlots addr n).countRead i slot addr

theorem countsOnly_rowCounted (i slot addr n : Nat) : CountsOnly s (s.rowCounted i slot addr n) :=
  (countsOnly_rowRead _ _).trans (countsOnly_countRead _ _ _)

theorem loads_addSlots (k i : Fin 12) (n : Nat) : (s.addSlots k n).hbm[i].loads = s.hbm[i].loads := by
  by_cases hi : i = k
  · subst hi
    simp [State.addSlots]
  · have : (k : Nat) ≠ i := fun e => hi (Fin.ext e.symm)
    simp [State.addSlots, Vector.getElem_set_ne, this]

theorem loads_rowCounted (i slot addr n : Nat) : (s.rowCounted i slot addr n).hbm[stackOf addr].loads =
    tabSet s.hbm[stackOf addr].loads (loadKey i slot)
      (satInc32 (tabGet s.hbm[stackOf addr].loads (0, 0) (loadKey i slot)).1,
        (tabGet s.hbm[stackOf addr].loads (0, 0) (loadKey i slot)).2) := by
  have hl : ((s.noteRead addr n).countSlots addr n).hbm[stackOf addr].loads = s.hbm[stackOf addr].loads := by
    rw [State.countSlots, loads_addSlots, loads_addSlots, (counts_noteRead addr n _).loads]
  rw [State.rowCounted, State.countRead, modStack_hbm]
  simp only [Fin.getElem_fin] at hl ⊢
  simp [hl]

theorem recordRead_yields {i row addr slot epoch : Nat} {rec : List Byte} {w : State}
    (hi : (s.rakeItems g)[i]? = some (j, ⟨row, [pos], false, epoch, none⟩)) (hc : rakeCtl j.run.q.desc = c)
    (ht : s.table c.table = some td) (hs : s.rowSource g c.table td pos row = .ok (.localRow addr, slot)) (ho : c.opcode = 1)
    (hspec : c.spec = false) (hcome : s.rowComing c.table td row = false)
    (hr : s.readChecked (.ofCluster g (.req 2)) addr td.stride = .ok rec)
    (hw : s.writeChecked (.ofCluster g .any) (c.dst + pos * outBytes td c.outFmt) (outRow td c.outFmt rec) = .ok w) :
    Yields (.recordRead g i) s (fun t => t.mem = w.mem ∧
      t.clusters[g].rake.rowsGathered = s.clusters[g].rake.rowsGathered + 1 ∧
      (tabGet t.hbm[stackOf addr].loads (0, 0) (loadKey c.table slot)).1 =
        satInc32 (tabGet s.hbm[stackOf addr].loads (0, 0) (loadKey c.table slot)).1) := by
  have hk := countsOnly_rowCounted (s := s) c.table slot addr td.stride
  have hx : ∃ j', exec (.recordRead g i) s =
      .next (((s.rowCounted c.table slot addr td.stride).rowWritten g c td rec pos).settleJob g c td j') := by
    have ht' : (s.rowCounted c.table slot addr td.stride).table c.table = some td := by rw [hk.view.table, ht]
    simp only [exec, execRecordRead, hi, State.issueItem, hc, ht, List.headD_cons, hs, hcome, Bool.false_eq_true, if_false, hr, hspec,
      Bool.false_and]
    rw [← State.rowCounted, State.itemArrived]
    simp only [hc, ht', Bool.false_eq_true, if_false]
    have hg := fun (j' : RakeJob) (counts : Bool) => giveRow_gather (j := j') (row := row) (counts := counts) ho hspec hk.view hw
    simp only [hg]
    exact ⟨_, rfl⟩
  obtain ⟨j', hx⟩ := hx
  obtain ⟨-, wmem, -, wrows, -⟩ := rowWritten_leaves (g := g) hk.view hw
  have hset := Settles.settleJob ((s.rowCounted c.table slot addr td.stride).rowWritten g c td rec pos) g c td j'
  refine ⟨_, hx, hset.mem.trans wmem, ?_, ?_⟩
  · rw [hset.rowsGathered, wrows, hk.clusters]
  · rw [hset.loads, loads_rowWritten, loads_rowCounted, tabGet_tabSet_same]

/-! ### Staged rows (R193) -/

theorem mem_stagedRows {p : StagedStatus → Bool} {i : Nat} {x : StagedGather} {y : StagedRow} (h : (s.stagedRows g p)[i]? = some (x, y)) :
    x ∈ s.clusters[g].rake.staged ∧ y ∈ x.rows := by
  have hm := List.mem_of_getElem? h
  simp only [State.stagedRows, List.mem_flatMap, List.mem_map, List.mem_filter, Prod.mk.injEq] at hm
  obtain ⟨_, ⟨hx, -⟩, _, ⟨hy, -⟩, rfl, rfl⟩ := hm
  exact ⟨hx, hy⟩

/-- A staged gather put in the place of one of the same descriptor is among the staged ones. -/
theorem mem_setStaged {x x' : StagedGather} (hx : x ∈ s.clusters[g].rake.staged) :
    x' ∈ (s.setStaged g x x').clusters[g].rake.staged := by
  rw [State.setStaged, rake_modRake]
  exact mem_modFirst_of_any hx (by simp)

theorem mem_setStagedRow {x : StagedGather} {y y' : StagedRow} (hy : y ∈ x.rows) : y' ∈ (setStagedRow x y (some y')).rows :=
  mem_modFirst hy

theorem specRefetched_setStaged (x x' : StagedGather) :
    (s.setStaged g x x').clusters[g].rake.specRefetched = s.clusters[g].rake.specRefetched := by
  rw [State.setStaged, rake_modRake]

/-- The check's answer: an unchanged row is current, a changed one stale and counted. -/
theorem versionAnswer_leaves {x : StagedGather} {y : StagedRow} (hx : x ∈ s.clusters[g].rake.staged) (hy : y ∈ x.rows) (n : Nat) :
    ∃ x' ∈ (s.versionAnswer g x y n).clusters[g].rake.staged, x'.run = x.run ∧
      (n = y.version → { y with status := .current } ∈ x'.rows ∧
        (s.versionAnswer g x y n).clusters[g].rake.specRefetched = s.clusters[g].rake.specRefetched) ∧
      (n ≠ y.version → { y with status := .stale } ∈ x'.rows ∧
        (s.versionAnswer g x y n).clusters[g].rake.specRefetched = s.clusters[g].rake.specRefetched + 1) := by
  unfold State.versionAnswer
  by_cases h : n = y.version
  · rw [if_pos h]
    exact ⟨_, mem_setStaged hx, rfl, fun _ => ⟨mem_setStagedRow hy, specRefetched_setStaged _ _⟩, fun hn => absurd h hn⟩
  · rw [if_neg h]
    refine ⟨setStagedRow x y (some { y with status := .stale }), ?_, rfl, fun hn => absurd hn h, fun _ => ⟨mem_setStagedRow hy, ?_⟩⟩
    · rw [rake_modRake]
      exact mem_setStaged hx
    · rw [rake_modRake, specRefetched_setStaged]
      rfl

theorem versionCheck_yields {i addr slot : Nat} {x : StagedGather} {y : StagedRow} {bs : List Byte}
    (hi : (s.stagedRows g (fun st => decide (st = .unchecked)))[i]? = some (x, y)) (hc : rakeCtl x.run.q.desc = c)
    (ht : s.table c.table = some td) (hs : s.rowSource g c.table td y.pos y.row = .ok (.localRow addr, slot))
    (hcome : s.rowComing c.table td y.row = false) (hr : s.readChecked (.ofCluster g (.req 2)) addr 16 = .ok bs) :
    Yields (.versionCheck g i) s (fun t => t.mem = s.mem ∧ ∃ x' ∈ t.clusters[g].rake.staged, x'.run = x.run ∧
      (recVersion bs = y.version → { y with status := .current } ∈ x'.rows ∧
        t.clusters[g].rake.specRefetched = s.clusters[g].rake.specRefetched) ∧
      (recVersion bs ≠ y.version → { y with status := .stale } ∈ x'.rows ∧
        t.clusters[g].rake.specRefetched = s.clusters[g].rake.specRefetched + 1)) := by
  have hx : exec (.versionCheck g i) s =
      .next (((s.noteRead addr 16).addSlots (stackOf addr) 1).versionAnswer g x y (recVersion bs)) := by
    simp only [exec, execVersionCheck, hi, hc, ht, hs, hcome, Bool.false_eq_true, if_false, hr]
  have hk : CountsOnly s ((s.noteRead addr 16).addSlots (stackOf addr) 1) :=
    (countsOnly_noteRead _ _).trans (countsOnly_addSlots _ _)
  obtain ⟨hstaged, hrow⟩ := mem_stagedRows hi
  have ha := versionAnswer_leaves (s := (s.noteRead addr 16).addSlots (stackOf addr) 1) (g := g) (x := x) (y := y)
    (by rw [hk.clusters]; exact hstaged) hrow (recVersion bs)
  rw [hk.clusters] at ha
  exact ⟨_, hx, by rw [versionAnswer_mem, hk.view.mem], ha⟩

theorem countsOnly_countParts (ps : List (Nat × Nat)) : CountsOnly s (s.countParts ps) := by
  have key : ∀ (xs : List (Nat × Nat)) (x : State × Nat), CountsOnly s x.1 → CountsOnly s (xs.foldl (fun (x : State × Nat) p =>
      (x.1.addSlots (stackOf p.1) (cdiv (x.2 + p.2) 128 - cdiv x.2 128), x.2 + p.2)) x).1 := by
    intro xs
    induction xs with
    | nil => exact fun _ => id
    | cons p ps ih => exact fun x h => ih _ (h.trans (countsOnly_addSlots _ _))
  exact key ps (s, 0) .refl

theorem stagedRowCopy_yields {i : Nat} {x : StagedGather} {y : StagedRow} {rec : List Byte} {w : State}
    (hi : (s.stagedRows g (fun st => decide (st = .current)))[i]? = some (x, y)) (hc : rakeCtl x.run.q.desc = c)
    (ht : s.table c.table = some td)
    (hr : s.readRanges (stager g) (blockParts x.blocks (y.pos * td.stride) td.stride) = .ok rec)
    (hw : s.writeChecked (.ofCluster g (.req 4)) (c.dst + y.pos * outBytes td c.outFmt) (outRow td c.outFmt rec) = .ok w) :
    Yields (.stagedRowCopy g i) s (fun t => t.mem = w.mem ∧
      t.clusters[g].rake.rowsGathered = s.clusters[g].rake.rowsGathered + 1) := by
  generalize hps : blockParts x.blocks (y.pos * td.stride) td.stride = ps at hr
  have hk : CountsOnly s ((ps.foldl (fun s p => s.noteRead p.1 p.2) s).countParts ps) :=
    (CountsOnly.foldl (fun _ _ => countsOnly_noteRead _ _) ps s).trans (countsOnly_countParts ps)
  have hx : exec (.stagedRowCopy g i) s = .next ((((ps.foldl (fun s p => s.noteRead p.1 p.2) s).countParts ps).rowWritten g c td rec
      y.pos).settleStaged g (setStagedRow x y none)) := by
    simp only [exec, execStagedRowCopy, hi, hc, ht, hps, hr, State.stagedWrite, hk.view.table, writeRow_eq hk.view hw]
  obtain ⟨-, wmem, -, wrows, -⟩ := rowWritten_leaves (g := g) hk.view hw
  have hset := Settles.settleStaged (((ps.foldl (fun s p => s.noteRead p.1 p.2) s).countParts ps).rowWritten g c td rec y.pos) g
    (setStagedRow x y none)
  exact ⟨_, hx, hset.mem.trans wmem, by rw [hset.rowsGathered, wrows, hk.clusters]⟩

/-! ### The Cloche's fills and its decay (R181, R182) -/

theorem findWay_setWay {ws : List ClocheWay} {w : ClocheWay} {i row : Nat} (h : w.table = i ∧ w.row = row) :
    findWay (setWay ws w) i row = some w := by
  simp [findWay, setWay, h]

theorem clocheFill_yields {f : ClocheFill} {rest : List ClocheFill} {w : ClocheWay} (hf : s.clusters[g].rake.fills = f :: rest)
    (ht : s.table f.table = some td) (hsets : s.clocheSets g td ≠ 0)
    (hway : findWay (tabGet s.clusters[g].rake.cloche [] (clocheSet (s.clocheSets g td) f.table f.row)) f.table f.row = some w) :
    Yields (.clocheFill g) s (fun t => OnlyCluster g s t ∧ t.clusters[g].rake.fills = rest ∧
      findWay (tabGet t.clusters[g].rake.cloche [] (clocheSet (s.clocheSets g td) f.table f.row)) f.table f.row =
        some { w with record := f.record, epoch := f.epoch }) := by
  have hkey : w.table = f.table ∧ w.row = f.row := by simpa using List.find?_some hway
  refine ⟨_, by simp only [exec, execClocheFill, hf, ht]; rfl, onlyCluster_modRake _, ?_, ?_⟩
  · rw [rake_modRake]
  · rw [rake_modRake]
    simp only [hsets, if_false, hway, tabGet_tabSet_same]
    exact findWay_setWay hkey

theorem tabGet_map_decay (hot : Nat) (t : Tab (List ClocheWay)) (k : Nat) :
    tabGet (t.map (fun p => (p.1, p.2.map (decayWay hot)))) [] k = (tabGet t [] k).map (decayWay hot) := by
  induction t with
  | nil => rfl
  | cons p t ih =>
    by_cases h : p.1 = k
    · simp [tabGet, tabFind, h]
    · simpa [tabGet, tabFind, h] using ih

theorem clocheDecay_yields (h : s.objNum 0x4210 4 ≤ s.clusters[g].rake.accesses) :
    Yields (.clocheDecay g) s (fun t => OnlyCluster g s t ∧ t.clusters[g].rake.accesses = 0 ∧
      ∀ k, tabGet t.clusters[g].rake.cloche [] k =
        (tabGet s.clusters[g].rake.cloche [] k).map (decayWay (s.objNum 0x4210 1))) := by
  have hd : s.decayDue g = true := decide_eq_true h
  have hx : exec (.clocheDecay g) s = .next (s.modRake g (fun x =>
      { x with accesses := 0, cloche := x.cloche.map (fun p => (p.1, p.2.map (decayWay (s.objNum 0x4210 1)))) })) := by
    simp only [exec, execClocheDecay, hd, if_true]
  refine ⟨_, hx, onlyCluster_modRake _, ?_, fun k => ?_⟩
  · rw [rake_modRake]
  · rw [rake_modRake]
    exact tabGet_map_decay _ _ _
end

/-- Settles O25, clause by clause from the lemma of each command. -/
theorem recordsAreReadCheckedAndCached : Obligations.RecordsAreReadCheckedAndCached :=
  ⟨fun _ _ _ _ _ _ _ _ _ _ _ _ hi ht hs ho hspec hcome hr hw => recordRead_yields hi rfl ht hs ho hspec hcome hr hw,
    fun _ _ _ _ _ _ _ _ _ hi ht hs hcome hr => versionCheck_yields hi rfl ht hs hcome hr,
    fun _ _ _ _ _ _ _ _ hi ht hr hw => stagedRowCopy_yields hi rfl ht hr hw,
    fun _ _ _ _ _ _ hf ht hsets hway => clocheFill_yields hf ht hsets hway,
    fun _ _ => clocheDecay_yields⟩

end Sys2Proof.Machine
end

section
/-! PROOFS. Pools: POOL and POOLED_MEMBER (R188 to R190, R222). -/

namespace Sys2Proof.Machine

/-! Elaborated one after another: side by side these proofs take memory that the whole text's compile does not have. -/

set_option Elab.async false

section
variable {s t : State} {g : Fin 32} {c : RakeCtl} {td : TableDesc} {j : RakeJob} {r : Running} {b : Bag}

/-- A bag that has taken no member yet. -/
def newBag (first stop : Nat) : Bag := { pos := first, start := first, stop := stop, parts := [], tag := none, reply := none }

theorem openBag_open {first stop : Nat} (hn : j.next < c.count) (hb : s.bagBounds g c j.next = .ok (first, stop)) :
    s.openBag g c td j = s.setRakeJob g j.run { j with bag := some (newBag first stop) } := by
  rw [State.openBag, if_neg (Nat.not_le.mpr hn)]
  simp only [hb, newBag]

theorem Settles.openBag (s : State) (g : Fin 32) (c : RakeCtl) (td : TableDesc) (j : RakeJob) : Settles g s (s.openBag g c td j) := by
  unfold State.openBag
  split
  · exact .settleJob ..
  · split
    · exact .settleJob ..
    · exact .modRake rfl

theorem pool_opens {first stop : Nat} (ha : s.activeOp g .rake 2 = some r) (hc : rakeCtl r.q.desc = c)
    (hf : s.rakeBad r.q.desc c = none) (ht : s.table c.table = some td) (hj : s.rakeJob g r = none) (hn : 0 < c.count)
    (hk : s.rakeCheck g c td = .ok ()) (hb : s.bagBounds g c 0 = .ok (first, stop)) :
    Yields (.pool g) s (fun t => OnlyCluster g s t ∧ ∃ j ∈ t.clusters[g].rake.jobs, j.run = { r with phase := .working } ∧
      j.bag = some ⟨first, first, stop, [], none, none⟩) := by
  have hx : exec (.pool g) s = .next ((s.opened g r).openBag g c td (newRakeJob r.works)) := by
    simp only [exec, execPool, ha, hc, hf, ht, hj, hk, openRakeJob_nil]
  rw [openBag_open hn ((sameView_opened.bagBounds ..).trans hb)] at hx
  exact ⟨_, hx, onlyCluster_opened.trans (onlyCluster_modRake _), _, mem_setRakeJob newJob_mem_opened rfl _, rfl, rfl⟩

/-! ### The bag that has taken its members (R187, R188, R194) -/

/-- The row slots of a bag's partials that lie here. -/
def State.bagSlots (s : State) (b : Bag) : State :=
  b.parts.foldl (fun s p => if p.1 / 16 = s.devNumber then s.addSlots (fin12 (p.1 % 16)) 1 else s) s

theorem countsOnly_bagSlots (b : Bag) : CountsOnly s (s.bagSlots b) := by
  refine .foldl (fun s p => ?_) _ _
  split
  · exact countsOnly_addSlots _ _
  · exact .refl

theorem pool_writes {w : State} (ha : s.activeOp g .rake 2 = some r) (hc : rakeCtl r.q.desc = c) (hf : s.rakeBad r.q.desc c = none)
    (ht : s.table c.table = some td) (hj : s.rakeJob g r = some j) (hb : j.bag = some b) (hstop : b.stop ≤ b.pos)
    (hw : s.writeChecked (.ofCluster g .any) (c.dst + j.next * outBytes td c.outFmt)
      (outElems c.outFmt (outBytes td c.outFmt) (bagResult c td.dim (b.stop - b.start) b.parts)) = .ok w) :
    Yields (.pool g) s (fun t => t.mem = w.mem ∧ t.clusters[g].rake.bagsPooled = s.clusters[g].rake.bagsPooled + 1) := by
  have hk := countsOnly_bagSlots (s := s) b
  obtain ⟨hwrite, hmem⟩ := hk.view.writeChecked hw
  generalize (s.bagSlots b).writeMem _ _ = v at hwrite hmem
  have hx : exec (.pool g) s = .next ((v.modRake g (fun x => { x with bagsPooled := wrap64 x.bagsPooled 1 })).openBag g c td
      { j with next := j.next + 1 }) := by
    simp only [exec, execPool, ha, hc, hf, ht, hj, hb, Nat.not_lt.mpr hstop, if_false, State.closeBag]
    rw [← State.bagSlots, State.writeOut, hwrite]
  have hset := Settles.openBag (v.modRake g (fun x => { x with bagsPooled := wrap64 x.bagsPooled 1 })) g c td { j with next := j.next + 1 }
  have hv : v.clusters = s.clusters := by rw [onlyMemory_writeChecked hwrite, hk.clusters]
  refine ⟨_, hx, hset.mem.trans hmem, ?_⟩
  rw [hset.bagsPooled, rake_modRake, hv]
  rfl

/-! ### A member read here (R188, R209) -/

/-- A bag that has taken its next member into the partial of a key. -/
def Bag.taking (b : Bag) (c : RakeCtl) (td : TableDesc) (key : Nat) (wt : Option U32) (rec : List Byte) : Bag :=
  { b with
    pos := b.pos + 1, tag := none, reply := none
    parts := tabSet b.parts key (poolAdd c.poolOp wt (tabGet b.parts (List.replicate td.dim (poolIdent c.poolOp)) key) (decodeRecord td rec)) }

theorem addMember_eq {key row : Nat} {rec : List Byte} {wt : Option U32} (hwt : s.poolWeight g c b.pos = .ok wt) :
    s.addMember g c td j b key row rec = s.setRakeJob g j.run (pushRecent row key (some rec)
      { j with bag := some (b.taking c td key wt rec), recent := j.recent.filter (fun x => x.1 ≠ row) }) := by
  simp only [State.addMember, hwt, Bag.taking]

theorem pooledMember_yields {row slot addr : Nat} {rec : List Byte} {wt : Option U32} (ha : s.activeOp g .rake 2 = some r)
    (hc : rakeCtl r.q.desc = c) (ht : s.table c.table = some td) (hj : s.rakeJob g r = some j) (hb : j.bag = some b)
    (hpos : b.pos < b.stop) (htag : b.tag = none) (he : s.readEntry g c b.pos = .ok row)
    (hl : s.locate (.ofCluster g .any) c.table td b.pos row = .ok (s.devNumber, slot, addr))
    (hn : j.recent.find? (fun x => decide (x.1 = row)) = none) (hcome : s.rowComing c.table td row = false)
    (hr : s.readChecked (.ofCluster g (.req 2)) addr td.stride = .ok rec) (hwt : s.poolWeight g c b.pos = .ok wt) :
    Yields (.pooledMember g) s (fun t => t.mem = s.mem ∧ ∃ j' ∈ t.clusters[g].rake.jobs, j'.run = j.run ∧ j'.next = j.next ∧
      j'.fault = j.fault ∧ j'.bag = some (b.taking c td (16 * s.devNumber + (stackOf addr).val) wt rec)) := by
  have hk := countsOnly_rowCounted (s := s) c.table slot addr td.stride
  have hx : exec (.pooledMember g) s = .next ((s.rowCounted c.table slot addr td.stride).addMember g c td j b
      (16 * s.devNumber + (stackOf addr).val) row rec) := by
    simp only [exec, execPooledMember, ha, hc, ht, hj, hb, hpos, if_true, State.poolMember, he, hn, hl, htag, hcome, Bool.false_eq_true,
      if_false, hr, State.rowCounted]
  rw [addMember_eq ((hk.view.poolWeight ..).trans hwt)] at hx
  have hmem : j ∈ (s.rowCounted c.table slot addr td.stride).clusters[g].rake.jobs := by
    rw [hk.clusters]
    exact (mem_jobs_of_rakeJob hj).1
  exact ⟨_, hx, hk.view.mem, _, mem_setRakeJob hmem rfl _, rfl, rfl, rfl, rfl⟩
end

/-- Settles O24, clause by clause: a bag opened, a bag written, a member taken. -/
theorem pooledGathersAccumulateBags : Obligations.PooledGathersAccumulateBags := by
  intro g r td s c ha hf ht
  refine ⟨fun first stop _ hj hn hk hb => pool_opens ha rfl hf ht hj hn hk hb,
    fun j b w hj hb hstop hw => pool_writes ha rfl hf ht hj hb hstop hw,
    fun j b row slot addr rec wt hj hb hpos htag he hl hn hcome hr hwt => ?_⟩
  obtain ⟨t, hx, hmem, j', hj', hrun, hnext, hfault, hbag⟩ :=
    pooledMember_yields ha rfl ht hj hb hpos htag he hl hn hcome hr hwt
  exact ⟨t, hx, hmem, j', hj', hrun, hnext, hfault, _, hbag, rfl, rfl, rfl⟩

end Sys2Proof.Machine
end

section
/-! PROOFS. Scatters: SCATTER, FLUSH, full windows and ARM_OWNER (R195 to R202, R211). -/

namespace Sys2Proof.Machine

/-! Elaborated one after another: side by side these proofs take memory that the whole text's compile does not have. -/

set_option Elab.async false

section
variable {s t : State} {g : Fin 32} {c : ScatterCtl} {td : TableDesc} {r : Running} {row : Nat} {grad : List U32} {p : FrontPartial}

/-! ### The Sprinkler's updates -/

theorem onlyCluster_modSprinkler (f : Sprinkler → Sprinkler) : OnlyCluster g s (s.modSprinkler g f) := onlyCluster_modCluster _

theorem clusters_modSprinkler (f : Sprinkler → Sprinkler) :
    (s.modSprinkler g f).clusters[g] = { s.clusters[g] with sprinkler := f s.clusters[g].sprinkler } := by
  simp [State.modSprinkler]

theorem sprinkler_modSprinkler (f : Sprinkler → Sprinkler) :
    (s.modSprinkler g f).clusters[g].sprinkler = f s.clusters[g].sprinkler := by
  rw [clusters_modSprinkler]

theorem queue_modSprinkler (q : QueueId) (f : Sprinkler → Sprinkler) : (s.modSprinkler g f).queue g q = s.queue g q :=
  queue_congr _ _ _ (by rw [clusters_modSprinkler])

theorem sprinkler_setRunning (q : QueueId) (r r' : Running) :
    (s.setRunning g q r r').clusters[g].sprinkler = s.clusters[g].sprinkler := by
  rw [State.setRunning, clusters_modQueue]
  rfl

/-! ### One contribution (R199 to R203, R207) -/

/-- A partial of a row that has taken one gradient. -/
def freshPartial (i row mb : Nat) (grad : List U32) : FrontPartial :=
  { table := i, row := row, mb := mb, place := .buffer, elems := grad.map (fun v => fadd arithRne 0 v) }

/-- The front end with its first contribution, before the detector looks at it. -/
def firstContribution (i row mb : Nat) (grad : List U32) (x : Sprinkler) : Sprinkler :=
  { addPart i row mb grad x with contributions := wrap64 x.contributions 1 }

/-- The detector can move a partial to a combining register, and changes no count of it. -/
theorem detectHot_leaves (threshold i row mb pos : Nat) (x : Sprinkler) :
    (detectHot threshold i row mb pos x).contributions = x.contributions ∧ (detectHot threshold i row mb pos x).taken = x.taken ∧
    (x.parts = [p] → ∃ place, (detectHot threshold i row mb pos x).parts = [{ p with place := place }]) := by
  unfold detectHot
  dsimp only
  split
  · refine ⟨rfl, rfl, fun hp => ?_⟩
    simp only [hp, modFirst]
    split
    · exact ⟨.hot, rfl⟩
    · exact ⟨p.place, rfl⟩
  · exact ⟨rfl, rfl, fun hp => ⟨p.place, hp⟩⟩

theorem firstContribution_leaves {i mb : Nat} {x : Sprinkler} (hp : x.parts = []) :
    (firstContribution i row mb grad x).contributions = wrap64 x.contributions 1 ∧ (firstContribution i row mb grad x).taken = x.taken ∧
    (firstContribution i row mb grad x).parts = [freshPartial i row mb grad] := by
  unfold firstContribution addPart
  rw [hp]
  exact ⟨rfl, rfl, rfl⟩

/-- In ORDERED mode a position taken is its micro-batch's. -/
theorem countPos_ordered {mb pos : Nat} {x : Sprinkler} (hf : x.free = false) :
    countPos mb pos x = { x with taken := tabSet x.taken mb (pos + 1) } :=
  if_neg (by simp [hf])

/-- A front end without partials has room for one. -/
theorem makeRoom_of_empty (hp : s.clusters[g].sprinkler.parts = []) : s.makeRoom g = some s := by
  have hempty : inBuffer s.clusters[g].sprinkler.parts = 0 := by rw [hp]; rfl
  exact if_pos (by rw [hempty]; decide)

theorem contribute_first {i mb pos : Nat} (hf : s.clusters[g].sprinkler.free = false) (hp : s.clusters[g].sprinkler.parts = []) :
    s.contribute g i row mb pos grad = (s.modSprinkler g (countPos mb pos)).modSprinkler g (fun x =>
      detectHot (s.objNum 0x4220 3) i row mb pos (firstContribution i row mb grad x)) := by
  have hroom : (s.modSprinkler g (countPos mb pos)).makeRoom g = some (s.modSprinkler g (countPos mb pos)) :=
    makeRoom_of_empty (by rw [sprinkler_modSprinkler, countPos_ordered hf]; exact hp)
  simp only [State.contribute, hp, hf, List.any_nil, Bool.false_eq_true, if_false, hroom]
  rfl

/-- After its first contribution the front end holds one partial, the gradient added to +0.0. -/
theorem contribute_leaves {i mb pos : Nat} (hf : s.clusters[g].sprinkler.free = false) (hp : s.clusters[g].sprinkler.parts = []) :
    OnlyCluster g s (s.contribute g i row mb pos grad) ∧
    (s.contribute g i row mb pos grad).clusters[g].sprinkler.contributions = s.clusters[g].sprinkler.contributions + 1 ∧
    tabGet (s.contribute g i row mb pos grad).clusters[g].sprinkler.taken 0 mb = pos + 1 ∧
    (∃ place, (s.contribute g i row mb pos grad).clusters[g].sprinkler.parts = [{ freshPartial i row mb grad with place := place }]) ∧
    ∀ q, (s.contribute g i row mb pos grad).queue g q = s.queue g q := by
  rw [contribute_first hf hp, sprinkler_modSprinkler, sprinkler_modSprinkler]
  obtain ⟨hcontrib, htaken, hparts⟩ := firstContribution_leaves (row := row) (grad := grad) (i := i) (mb := mb)
    (x := countPos mb pos s.clusters[g].sprinkler) (by rw [countPos_ordered hf]; exact hp)
  obtain ⟨hcontrib', htaken', hparts'⟩ := detectHot_leaves (p := freshPartial i row mb grad) (s.objNum 0x4220 3) i row mb pos
    (firstContribution i row mb grad (countPos mb pos s.clusters[g].sprinkler))
  refine ⟨(onlyCluster_modSprinkler _).trans (onlyCluster_modSprinkler _), ?_, ?_, hparts' hparts, fun q => ?_⟩
  · rw [hcontrib', hcontrib, countPos_ordered hf]
    rfl
  · rw [htaken', htaken, countPos_ordered hf, tabGet_tabSet_same]
  · rw [queue_modSprinkler, queue_modSprinkler]

/-! ### SCATTER of one row (R199, R200) -/

/-- A SCATTER's job at the start of its list. -/
def newScatterJob (r : Running) : ScatterJob := { run := r.works, pos := 0, bag := 0, start := 0, stop := 0 }

theorem scatterGo_oneRow (hf : s.clusters[g].sprinkler.free = false) (hexp : c.expand = 0) (hn : c.count = 1)
    (he : s.scatterEntry g c 0 = .ok row) (ho : s.scatterOwner g c.table td 0 row = .ok ()) (hg : s.gradRow g c td.dim 0 0 = .ok grad) :
    s.scatterGo g c td (newScatterJob r) =
      ((s.contribute g c.table row c.mb (c.firstPos + 0) grad).modSprinkler g (fun x => { x with job := none })).finishDesc g .sprinkler
        r.works none := by
  have hw : s.windowDue g = false := by
    simp only [State.windowDue, hf, Bool.false_and]
  have hone : s.scatterOne g c td (newScatterJob r) = .ok (s.contribute g c.table row c.mb (c.firstPos + 0) grad) := by
    simp only [State.scatterOne, newScatterJob, he, ho, hexp, if_true, Nat.sub_self, hg]
  have hlist : s.scatterList g c td 1 (newScatterJob r) =
      (.done, { newScatterJob r with pos := 1 }, s.contribute g c.table row c.mb (c.firstPos + 0) grad) := by
    simp only [State.scatterList, hw, Bool.false_eq_true, if_false, hone]
    rfl
  have hlen : c.count - (newScatterJob r).pos = 1 := by rw [hn]; rfl
  simp only [State.scatterGo, hexp, if_true, hlen, hlist]
  rfl

theorem scatter_yields (ha : s.activeOp g .sprinkler 1 = some r) (hph : r.phase = .started) (hc : scatterCtl r.q.desc = c)
    (hb : s.scatterBad r.q.desc c = none) (ht : s.table c.table = some td) (hfrozen : td.frozen = false)
    (hshadow : s.shadowPending = false) (hf : s.clusters[g].sprinkler.free = false) (hp : s.clusters[g].sprinkler.parts = [])
    (htaken : tabGet s.clusters[g].sprinkler.taken 0 c.mb ≤ c.firstPos + 1) (hexp : c.expand = 0) (hn : c.count = 1)
    (he : s.scatterEntry g c 0 = .ok row) (ho : s.scatterOwner g c.table td 0 row = .ok ())
    (hk : s.checkAll (.ofCluster g .any) (scatterRanges c td.dim) = .ok ()) (hg : s.gradRow g c td.dim 0 0 = .ok grad) :
    Yields (.scatter g) s (fun t => OnlyCluster g s t ∧
      t.clusters[g].sprinkler.contributions = s.clusters[g].sprinkler.contributions + 1 ∧
      tabGet t.clusters[g].sprinkler.taken 0 c.mb = c.firstPos + 1 ∧
      (∃ place, t.clusters[g].sprinkler.parts = [{ freshPartial c.table row c.mb grad with place := place }]) ∧
      r.done ∈ (t.queue g .sprinkler).running) := by
  have hv : SameView s (s.setRunning g .sprinkler r r.works) := sameView_setRunning ..
  have hs := sprinkler_setRunning (s := s) (g := g) .sprinkler r r.works
  have hx : exec (.scatter g) s = .next ((s.setRunning g .sprinkler r r.works).scatterGo g c td (newScatterJob r)) := by
    simp only [exec, execScatter, ha, hph, if_true, hc, State.scatterStart, hb, ht, hfrozen, hshadow, Bool.false_eq_true, if_false,
      Nat.not_lt.mpr htaken, and_false, hk]
    rfl
  rw [scatterGo_oneRow (by rw [hs, hf]) hexp hn (by rw [hv.scatterEntry, he]) (by rw [hv.scatterOwner, ho]) (by rw [hv.gradRow, hg])] at hx
  obtain ⟨kframe, kcount, ktaken, kparts, kqueue⟩ := contribute_leaves (s := s.setRunning g .sprinkler r r.works) (g := g) (i := c.table)
    (row := row) (mb := c.mb) (pos := c.firstPos + 0) (grad := grad) (by rw [hs, hf]) (by rw [hs, hp])
  refine ⟨_, hx, ?_, ?_, ?_, ?_, ?_⟩
  · exact (onlyCluster_modQueue s g .sprinkler _).trans (kframe.trans ((onlyCluster_modSprinkler _).trans (onlyCluster_modQueue ..)))
  · rw [State.finishDesc, sprinkler_setRunning, sprinkler_modSprinkler, kcount, hs]
  · rw [State.finishDesc, sprinkler_setRunning, sprinkler_modSprinkler]
    exact ktaken
  · rw [State.finishDesc, sprinkler_setRunning, sprinkler_modSprinkler]
    exact kparts
  · rw [State.finishDesc, queue_setRunning, queue_modSprinkler, kqueue, queue_setRunning]
    exact mem_modFirst (mem_modFirst (mem_running_of_activeOp ha))

/-! ### Partials that leave for this device's back ends (R195, R197, R202) -/

/-- A partial of a cluster on its way to this device's back ends. -/
def State.localPartial (s : State) (g : Fin 32) (p : FrontPartial) : PartialMsg :=
  ⟨some g.val, s.devNumber, p.table, p.row, p.mb, s.dies[dieOfCluster g].upd.stepNumber.toNat, p.elems, s.clusters[g].sprinkler.free⟩

/-- The front end once it has sent a partial. -/
def countSent (x : Sprinkler) : Sprinkler := { x with partialsSent := wrap64 x.partialsSent 1 }

/-- The state once a partial has left for this device's back ends. -/
def State.sentHere (s : State) (g : Fin 32) (p : FrontPartial) : State :=
  { s.modSprinkler g countSent with partials := s.partials ++ [s.localPartial g p] }

theorem sendPartials_here {slot addr : Nat} (ht : s.table p.table = some td)
    (hl : s.locate .any p.table td 0 p.row = .ok (s.devNumber, slot, addr)) : s.sendPartials g [p] = (none, s.sentHere g p) := by
  have hd : (s.modSprinkler g countSent).devNumber = s.devNumber := rfl
  have hfree : (s.modSprinkler g countSent).clusters[g].sprinkler.free = s.clusters[g].sprinkler.free := by
    rw [sprinkler_modSprinkler]
    rfl
  have hone : s.sendPartial g p = .ok (s.sentHere g p) := by
    simp only [State.sendPartial, ht, hl]
    refine (if_pos hd.symm).trans ?_
    rw [State.sentHere, State.localPartial, ← hfree]
    rfl
  simp only [State.sendPartials, hone]

theorem sprinkler_sentHere : (s.sentHere g p).clusters[g].sprinkler = countSent s.clusters[g].sprinkler :=
  sprinkler_modSprinkler countSent

theorem queue_sentHere (q : QueueId) : (s.sentHere g p).queue g q = s.queue g q := queue_modSprinkler q countSent

/-- The partials that a FLUSH of a micro-batch and tables sends. -/
def flushes (free : Bool) (mb mask : Nat) (p : FrontPartial) : Bool := free || (decide (p.mb = mb) && bitOf mask p.table)

/-- The front end once a FLUSH has taken its partials. -/
def flushed (free : Bool) (mb mask : Nat) (x : Sprinkler) : Sprinkler :=
  { x with
    parts := x.parts.filter (fun p => !flushes free mb mask p), taken := tabDel x.taken mb, windowPos := 0
    recent := if x.free then x.recent else x.recent.filter (fun y => decide (y.1 ≠ hotStream false mb)) }

theorem flush_yields {slot addr mb mask : Nat} (ha : s.activeOp g .sprinkler 2 = some r) (hph : r.phase = .started)
    (hb : firstNonzero (descWords r.q.desc) flushSpans = none) (hmb : r.q.desc.bits 2 15 0 = mb) (hmask : r.q.desc.bits 2 31 16 = mask)
    (hfrozen : s.frozenIn mask = none)
    (hsel : s.clusters[g].sprinkler.parts.filter (flushes s.clusters[g].sprinkler.free mb mask) = [p])
    (ht : s.table p.table = some td) (hl : s.locate .any p.table td 0 p.row = .ok (s.devNumber, slot, addr)) :
    Yields (.flush g) s (fun t => t.mem = s.mem ∧ t.partials = s.partials ++ [s.localPartial g p] ∧
      p ∉ t.clusters[g].sprinkler.parts ∧ tabGet t.clusters[g].sprinkler.taken 0 mb = 0 ∧ t.clusters[g].sprinkler.windowPos = 0 ∧
      r.works ∈ (t.queue g .sprinkler).running) := by
  have hv : SameView s (s.modSprinkler g (flushed s.clusters[g].sprinkler.free mb mask)) := sameView_modSprinkler _
  have hx : exec (.flush g) s = .next (((s.modSprinkler g (flushed s.clusters[g].sprinkler.free mb mask)).sentHere g p).setRunning g
      .sprinkler r r.works) := by
    have hsend := sendPartials_here (g := g) (p := p) ((hv.table _).trans ht) ((hv.locate ..).trans hl)
    unfold flushes at hsel
    simp only [exec, execFlush, ha, hph, if_true, State.flushStart, hb, hmb, hmask, hfrozen, hsel]
    exact congrArg (fun x => Host.Outcome.next (match x.1 with
      | some f => x.2.failDesc g .sprinkler r f
      | none => x.2.setRunning g .sprinkler r r.works)) hsend
  have hp : flushes s.clusters[g].sprinkler.free mb mask p = true :=
    (List.mem_filter.mp (hsel ▸ List.mem_singleton_self p)).2
  refine ⟨_, hx, rfl, ?_, ?_, ?_, ?_, ?_⟩
  · have hfree : (s.modSprinkler g (flushed s.clusters[g].sprinkler.free mb mask)).clusters[g].sprinkler.free =
        s.clusters[g].sprinkler.free := by
      rw [sprinkler_modSprinkler]
      rfl
    show s.partials ++ [_] = _
    rw [State.localPartial, hfree]
    rfl
  · rw [sprinkler_setRunning, sprinkler_sentHere, sprinkler_modSprinkler]
    intro hin
    have hstays := (List.mem_filter.mp hin).2
    rw [hp] at hstays
    exact Bool.false_ne_true hstays
  · rw [sprinkler_setRunning, sprinkler_sentHere, sprinkler_modSprinkler]
    simp [flushed, countSent, tabGet, tabFind_tabDel]
  · rw [sprinkler_setRunning, sprinkler_sentHere, sprinkler_modSprinkler]
    rfl
  · rw [queue_setRunning, queue_sentHere, queue_modSprinkler]
    exact mem_modFirst (mem_running_of_activeOp ha)

/-- Once its partials are recorded a FLUSH is done. -/
theorem flush_done (ha : s.activeOp g .sprinkler 2 = some r) (hph : r.phase = .working) (hall : s.partialsRecorded g = true) :
    Yields (.flush g) s (fun t => OnlyCluster g s t ∧ r.done ∈ (t.queue g .sprinkler).running) := by
  refine ⟨(s.modSprinkler g (fun x => { x with sending := [] })).finishDesc g .sprinkler r none, ?_, ?_, ?_⟩
  · simp [exec, execFlush, ha, hph, hall]
  · exact (onlyCluster_modSprinkler _).trans (onlyCluster_modQueue ..)
  · rw [State.finishDesc, queue_setRunning, queue_modSprinkler]
    exact mem_modFirst (mem_running_of_activeOp ha)

/-- The front end once its window has closed. -/
def closedWindow (x : Sprinkler) : Sprinkler := { x with parts := [], windowPos := 0 }

theorem freeWindowClose_yields {slot addr : Nat} (hfree : s.clusters[g].sprinkler.free = true)
    (hfull : s.objNum 0x4220 2 ≤ s.clusters[g].sprinkler.windowPos) (hp : s.clusters[g].sprinkler.parts = [p])
    (ht : s.table p.table = some td) (hl : s.locate .any p.table td 0 p.row = .ok (s.devNumber, slot, addr)) :
    Yields (.freeWindowClose g) s (fun t => t.clusters[g].sprinkler.parts = [] ∧ t.clusters[g].sprinkler.windowPos = 0 ∧
      t.partials.length = s.partials.length + 1 ∧ t.mem = s.mem) := by
  have hv : SameView s (s.modSprinkler g closedWindow) := sameView_modSprinkler _
  have hdue : s.windowDue g = true := by
    simp only [State.windowDue, hfree, hfull, decide_true, Bool.and_self]
  have hsend := sendPartials_here (g := g) (p := p) ((hv.table _).trans ht) ((hv.locate ..).trans hl)
  have hx : exec (.freeWindowClose g) s = .next ((s.modSprinkler g closedWindow).sentHere g p) := by
    simp only [exec, execFreeWindowClose, hdue, if_true, hp]
    exact congrArg (fun x => Host.Outcome.next (match x.1 with
      | none => x.2
      | some f => x.2.raiseC g (uidCluster g.val 3) f.code f.arg0 f.arg1 0)) hsend
  refine ⟨_, hx, ?_, ?_, ?_, rfl⟩
  · rw [sprinkler_sentHere, sprinkler_modSprinkler]
    rfl
  · rw [sprinkler_sentHere, sprinkler_modSprinkler]
    rfl
  · exact List.length_append

/-! ### ARM_OWNER (R211) -/

/-- A table's descriptor, once set, is what the table is, as long as it is valid. -/
theorem table_setTable {i : Nat} (h : td.valid = true) : (s.setTable i td).table i = some td := by
  have hfind : tabFind (s.setTable i td).job.tables i = some td := tabFind_tabSet_same ..
  rw [State.table, hfind, Option.filter_some, if_pos h]

theorem valid_of_table {i : Nat} (h : s.table i = some td) : td.valid = true := (Option.filter_eq_some_iff.mp h).2

theorem armOwner_yields {i m : Nat} (ha : s.activeOp g .sprinkler 3 = some r) (hb : firstNonzero (descWords r.q.desc) armSpans = none)
    (hi : r.q.desc.bits 2 3 0 = i) (hm : r.q.desc.bits 3 47 0 = m) (ht : s.table i = some td) (hlate : s.clusters[g].season < m)
    (hz : td.ownerSeason = 0) :
    Yields (.armOwner g) s (fun t => t.mem = s.mem ∧ t.table i = some { td with ownerSeason := m } ∧
      r.done ∈ (t.queue g .sprinkler).running) := by
  refine ⟨(s.setTable i { td with ownerSeason := m }).finishDesc g .sprinkler r none, ?_, rfl, ?_, ?_⟩
  · simp only [exec, execArmOwner, ha, hb, hi, hm, ht, Nat.not_le.mpr hlate, if_false, hz, ne_eq, not_true_eq_false]
  · have hvalid := valid_of_table ht
    exact table_setTable hvalid
  · rw [State.finishDesc, queue_setRunning]
    exact mem_modFirst (mem_running_of_activeOp (s := s) ha)

end

end Sys2Proof.Machine
end

section
/-! PROOFS. BackEnds: partials reach the log of their row's stack, rows of a moving shard leave (R200 to R202, R205, R212). -/

namespace Sys2Proof.Machine

/-! Elaborated one after another: side by side these proofs take memory that the whole text's compile does not have. -/

set_option Elab.async false

section
variable {s t u : State} {k : Fin 12} {p : PartialMsg} {td : TableDesc} {i slot addr : Nat}

/-! ### One stack -/

theorem onlyStack_modStack (f : Stack → Stack) : OnlyStack k s (s.modStack k f) := by
  simp [OnlyStack, State.modStack]

theorem stack_modStack (f : Stack → Stack) : (s.modStack k f).hbm[k] = f s.hbm[k] := by
  simp [State.modStack]

theorem OnlyStack.trans (h : OnlyStack k s t) (h' : OnlyStack k t u) : OnlyStack k s u := by
  unfold OnlyStack at h h' ⊢
  rw [h', h]
  simp

/-! ### The log of a stack (R201, R202) -/

/-- A row of a log that is changed or added is in the log from then on. -/
theorem mem_modLog (i row : Nat) (f : LogRow → LogRow) (log : List LogRow) :
    ∃ r, r.table = i ∧ r.row = row ∧ f r ∈ modLog i row f log := by
  unfold modLog
  split
  · rename_i hany
    induction log with
    | nil => cases hany
    | cons x xs ih =>
      by_cases hx : logRowIs i row x = true
      · obtain ⟨htable, hrow⟩ : x.table = i ∧ x.row = row := by simpa [logRowIs] using hx
        exact ⟨x, htable, hrow, by simp [modFirst, hx]⟩
      · obtain ⟨r, htable, hrow, hr⟩ := ih (by simpa [hx] using hany)
        exact ⟨r, htable, hrow, by simp [modFirst, hx, hr]⟩
  · exact ⟨⟨i, row, [], none⟩, rfl, rfl, by simp⟩

/-- The state once a partial is applied and its row of the log changed. -/
def State.logged (s : State) (p : PartialMsg) (slot addr : Nat) (f : LogRow → LogRow) : State :=
  (s.applied p slot addr).modStack (stackOf addr) (fun x => { x with log := modLog p.table p.row f x.log })

theorem logged_leaves (f : LogRow → LogRow) : OnlyStack (stackOf addr) s (s.logged p slot addr f) ∧
    ∃ r, r.table = p.table ∧ r.row = p.row ∧ f r ∈ (s.logged p slot addr f).hbm[stackOf addr].log := by
  refine ⟨((onlyStack_modStack _).trans (onlyStack_modStack _)).trans (onlyStack_modStack _), ?_⟩
  rw [State.logged, stack_modStack]
  exact mem_modLog ..

/-- An ORDERED partial that the log has room for and does not hold is recorded with its source and micro-batch. -/
theorem recordPartial_ordered (hg : s.granuleFail (.req 3) addr 1 (addr / 4096) = none) (hf : p.free = false)
    (hnew : logHas p.table p.row p.source p.mb s.hbm[stackOf addr].log = false)
    (hroom : logBytes s.hbm[stackOf addr] + partialBytes p.elems.length ≤ s.logArea (stackOf addr)) :
    s.recordPartial p slot addr = s.logged p slot addr (fun r => { r with parts := r.parts ++ [(p.source, p.mb, p.elems)] }) := by
  have hfull := Nat.not_lt.mpr hroom
  simp only [State.recordPartial, hg, hf, hnew, hfull, Bool.false_eq_true, and_false, false_and, if_false, decide_false]
  rfl

/-- A FREE partial of a row without an accumulator opens it from +0.0. -/
theorem recordPartial_free (hg : s.granuleFail (.req 3) addr 1 (addr / 4096) = none) (hf : p.free = true)
    (hnew : logAcc p.table p.row s.hbm[stackOf addr].log = none)
    (hroom : logBytes s.hbm[stackOf addr] + partialBytes p.elems.length ≤ s.logArea (stackOf addr)) :
    s.recordPartial p slot addr =
      s.logged p slot addr (fun r => { r with acc := some (p.elems.map (fun v => fadd arithRne 0 v)) }) := by
  have hfull := Nat.not_lt.mpr hroom
  simp only [State.recordPartial, hg, hf, hnew, hfull, Option.isSome_none, Bool.false_eq_true, Bool.not_true, and_false, false_and,
    if_false, if_true, decide_false]
  rfl

/-- The partials on their way without the i-th. -/
def State.withoutPartial (s : State) (i : Nat) : State := { s with partials := listDel s.partials i }

theorem sameView_withoutPartial : SameView s (s.withoutPartial i) := { SameView.refl with }

section
variable (hi : s.partials[i]? = some p) (hahead : (s.partials.take i).any (s.partialBehind p) = false)
  (ht : s.table p.table = some td) (hl : s.locate .any p.table td 0 p.row = .ok (s.devNumber, slot, addr))
  (hcome : s.rowComing p.table td p.row = false) (hg : s.granuleFail (.req 3) addr 1 (addr / 4096) = none)
  (hroom : logBytes s.hbm[stackOf addr] + partialBytes p.elems.length ≤ s.logArea (stackOf addr))
include hi hahead ht hl hcome

/-- A partial with none of its sender's ahead of it, of a row owned here, is recorded. -/
theorem exec_partialAppend : exec (.partialAppend i) s = .next ((s.withoutPartial i).recordPartial p slot addr) := by
  simp [exec, execPartialAppend, hi, hahead, ht, hl, hcome, State.withoutPartial]

include hg hroom

theorem partialAppend_ordered (hf : p.free = false) (hnew : logHas p.table p.row p.source p.mb s.hbm[stackOf addr].log = false) :
    Yields (.partialAppend i) s (fun t => OnlyStack (stackOf addr) (s.withoutPartial i) t ∧
      ∃ r ∈ t.hbm[stackOf addr].log, r.table = p.table ∧ r.row = p.row ∧ (p.source, p.mb, p.elems) ∈ r.parts) := by
  have hrec := recordPartial_ordered (s := s.withoutPartial i) (slot := slot) ((sameView_withoutPartial.granuleFail ..).trans hg) hf
    hnew hroom
  obtain ⟨hframe, r, htable, hrow, hr⟩ := logged_leaves (s := s.withoutPartial i) (p := p) (slot := slot) (addr := addr)
    (fun r => { r with parts := r.parts ++ [(p.source, p.mb, p.elems)] })
  exact ⟨_, (exec_partialAppend hi hahead ht hl hcome).trans (congrArg Host.Outcome.next hrec), hframe, _, hr, htable, hrow, by simp⟩

theorem partialAppend_free (hf : p.free = true) (hnew : logAcc p.table p.row s.hbm[stackOf addr].log = none) :
    Yields (.partialAppend i) s (fun t => OnlyStack (stackOf addr) (s.withoutPartial i) t ∧
      ∃ r ∈ t.hbm[stackOf addr].log, r.table = p.table ∧ r.row = p.row ∧
        r.acc = some (p.elems.map (fun v => fadd arithRne 0 v))) := by
  have hrec := recordPartial_free (s := s.withoutPartial i) (slot := slot) ((sameView_withoutPartial.granuleFail ..).trans hg) hf
    hnew hroom
  obtain ⟨hframe, r, htable, hrow, hr⟩ := logged_leaves (s := s.withoutPartial i) (p := p) (slot := slot) (addr := addr)
    (fun r => { r with acc := some (p.elems.map (fun v => fadd arithRne 0 v)) })
  exact ⟨_, (exec_partialAppend hi hahead ht hl hcome).trans (congrArg Host.Outcome.next hrec), hframe, _, hr, htable, hrow, rfl⟩

end

/-! ### TRANSPLANT_COPY (R212) -/

theorem transplantCopy_yields {m : MoveJob} {row : Nat} {bs : List Byte} (hi : s.moves[i]? = some m) (ht : s.table m.table = some td)
    (hmore : m.nextRow < m.rows) (hrow : m.shard * 2 ^ td.shardLog2 + m.nextRow = row)
    (hread : s.readChecked (.req 4) (recordAddr td m.oldSlot row) td.stride = .ok bs)
    (hroute : (s.route m.newDevice (flowSide s.devNumber m.newDevice 0)).isSome = true) :
    Yields (.transplantCopy i) s (fun t => t.mem = s.mem ∧ t.moves = listSet s.moves i { m with nextRow := m.nextRow + 1 } ∧
      ∀ (n : Nat) (b : List Byte), (payloadParts (bs.length / maxPayload) bs)[n]? = some b →
        ∃ y ∈ (t.txFlow m.newDevice 0).unacked, y.ptype = .write ∧ y.dst = m.newDevice ∧ y.payload = b ∧
          y.key0 = BitVec.ofNat 64 (recordAddr td m.newSlot row + maxPayload * n)) := by
  have hread' : CountsOnly s (s.noteRead (recordAddr td m.oldSlot row) td.stride) := countsOnly_noteRead _ _
  obtain ⟨t, hsend, hsent, hnew⟩ := sendPacket_routed (s := s.noteRead (recordAddr td m.oldSlot row) td.stride) (y := .write) 0
    (recordAddr td m.newSlot row) 0 bs (dst := m.newDevice) (by rw [hread'.view.route, hread'.view.devNumber]; exact hroute)
  have hmoves : t.moves = s.moves := by rw [hsent.moves, hread'.frame]
  refine ⟨{ t with moves := listSet t.moves i { m with nextRow := m.nextRow + 1 } }, ?_, ?_, ?_, fun n b hb => ?_⟩
  · simp only [exec, execTransplantCopy, hi, ht, Nat.not_le.mpr hmore, if_false, hrow, hread, hsend]
  · exact hsent.mem.trans hread'.view.mem
  · rw [hmoves]
  · obtain ⟨q, hq, htype, hdst, hload, hkey, -⟩ := hnew n b hb
    exact ⟨q, hq, htype, hdst, hload, by rw [hkey, if_pos rfl]⟩

end

/-- Settles O26. -/
theorem contributionsCombineAndLeave : Obligations.ContributionsCombineAndLeave := by
  refine ⟨fun g r td row grad s ha hph hb ht hfrozen hshadow hf hp htaken hexp hn he ho hk hg => ?_,
    fun g r td p slot addr s ha hph hb hfrozen hsel ht hl => flush_yields ha hph hb rfl rfl hfrozen hsel ht hl,
    fun g r s => flush_done,
    fun g td p slot addr s => freeWindowClose_yields,
    fun g r td s ha hb ht hlate hz => armOwner_yields ha hb rfl rfl ht hlate hz,
    fun i p td slot addr s hi hahead ht hl hcome hg hf hnew hroom => partialAppend_ordered hi hahead ht hl hcome hg hroom hf hnew,
    fun i p td slot addr s hi hahead ht hl hcome hg hf hnew hroom => partialAppend_free hi hahead ht hl hcome hg hroom hf hnew,
    fun i m td bs s hi ht hmore hread hroute => transplantCopy_yields hi ht hmore rfl hread hroute⟩
  obtain ⟨t, hx, hframe, hcount, htaken', ⟨place, hparts⟩, hdone⟩ :=
    scatter_yields ha hph rfl hb ht hfrozen hshadow hf hp htaken hexp hn he ho hk hg
  exact ⟨t, hx, hframe, hcount, htaken', ⟨_, hparts, rfl, rfl, rfl, rfl⟩, hdone⟩

end Sys2Proof.Machine
end

section
/-! PROOFS. Units: what settling, step headers and events leave of the update units and of the rest (R420 to R425, R458). -/

namespace Sys2Proof.Machine

/-! Elaborated one after another: side by side these proofs take memory that the whole text's compile does not have. -/

set_option Elab.async false

section
variable {s t u : State} {d : Fin 4} {α β : Type} {π : UpdateUnit → α}

/-! ### Folds that change nothing -/

theorem foldl_unchanged {f : β → α → β} {b : β} (h : ∀ x, f b x = b) (xs : List α) : xs.foldl f b = b := by
  induction xs with
  | nil => rfl
  | cons x xs ih => rw [List.foldl_cons, h, ih]

/-! ### Only the clusters -/

/-- Only the clusters may differ. -/
def OnlyClusters (s t : State) : Prop := t = { s with clusters := t.clusters }

namespace OnlyClusters

theorem refl : OnlyClusters s s := rfl

theorem trans (h : OnlyClusters s t) (k : OnlyClusters t u) : OnlyClusters s u := by
  unfold OnlyClusters at h k ⊢
  rw [k, h]

theorem foldl {f : State → α → State} (hf : ∀ s x, OnlyClusters s (f s x)) (xs : List α) (s : State) :
    OnlyClusters s (xs.foldl f s) := by
  induction xs generalizing s with
  | nil => exact refl
  | cons x xs ih => exact (hf s x).trans (ih _)

theorem setRunning (g : Fin 32) (q : QueueId) (r r' : Running) : OnlyClusters s (s.setRunning g q r r') := rfl

theorem finishDesc (g : Fin 32) (q : QueueId) (r : Running) (x : Option Summary) : OnlyClusters s (s.finishDesc g q r x) := rfl

theorem settleGrads : OnlyClusters s s.settleGrads :=
  .foldl (fun s g => by
    split
    · split
      · exact refl
      · exact finishDesc ..
    · exact refl) _ _

theorem dies (h : OnlyClusters s t) : t.dies = s.dies := by rw [h]
theorem chunks (h : OnlyClusters s t) : t.chunks = s.chunks := by rw [h]
theorem mem (h : OnlyClusters s t) : t.mem = s.mem := by rw [h]
end OnlyClusters

/-! ### What every unit keeps -/

theorem upd_modUpd (f : UpdateUnit → UpdateUnit) : (s.modUpd d f).dies[d].upd = f s.dies[d].upd := by
  simp [State.modUpd, State.modDie]

/-- What is read of a unit is the same for every unit. -/
structure Keeps (π : UpdateUnit → α) (s t : State) : Prop where
  same : ∀ i : Fin 4, π t.dies[i].upd = π s.dies[i].upd

namespace Keeps

theorem refl : Keeps π s s := ⟨fun _ => rfl⟩

theorem trans (h : Keeps π s t) (k : Keeps π t u) : Keeps π s u := ⟨fun i => (k.same i).trans (h.same i)⟩

theorem foldl {f : State → β → State} (hf : ∀ s x, Keeps π s (f s x)) (xs : List β) (s : State) : Keeps π s (xs.foldl f s) := by
  induction xs generalizing s with
  | nil => exact refl
  | cons x xs ih => exact (hf s x).trans (ih _)

theorem of_dies (h : t.dies = s.dies) : Keeps π s t := ⟨fun i => by rw [h]⟩

theorem modUpd (d : Fin 4) (f : UpdateUnit → UpdateUnit) (hf : ∀ u, π (f u) = π u) : Keeps π s (s.modUpd d f) := by
  refine ⟨fun i => ?_⟩
  by_cases h : i = d
  · rw [h, upd_modUpd, hf]
  · have hv : d.val ≠ i.val := fun he => h (Fin.ext he.symm)
    simp [State.modUpd, State.modDie, Vector.getElem_set_ne, hv]

theorem modStack (k : Fin 12) (f : Stack → Stack) : Keeps π s (s.modStack k f) := .of_dies rfl

theorem countUe (f : Fail) : Keeps π s (s.countUe f) := .of_dies (by rw [countUe_frame])

theorem raiseD (unit : BitVec 16) (code a0 a1 a2 : Nat) : Keeps π s (s.raiseD unit code a0 a1 a2) := .of_dies (by simp)

theorem noteRead (a n : Nat) : Keeps π s (s.noteRead a n) := .of_dies (by rw [(countsOnly_noteRead a n).frame])
end Keeps

/-- A write of speculative state changes that alone. -/
theorem shadowWrite_ok {a : Nat} {bs : List Byte} (h : s.shadowWrite d a bs = .ok t) :
    t = s.modUpd d (fun u => { u with shadow := shadowPut a bs u.shadow }) := by
  unfold State.shadowWrite at h
  split at h
  · cases h
  · exact (Except.ok.inj h).symm

/-! ### Without a COMMIT nothing of one goes on (R418, R421) -/

/-- No unit has a COMMIT. -/
def State.NoCommit (s : State) : Prop := ∀ d : Fin 4, s.dies[d].upd.commit = none

theorem State.NoCommit.of_keeps (h : s.NoCommit) (k : Keeps (·.commit.isSome) s t) : t.NoCommit := fun d => by
  have hd := k.same d
  simp only [h d, Option.isSome_none] at hd
  exact Option.not_isSome_iff_eq_none.mp (by rw [hd]; exact Bool.false_ne_true)

theorem sendCols_idle (h : s.NoCommit) : s.sendCols = s := by
  have hdue : s.colsDue = false := by
    have hany : (s.liveUpds.any fun d =>
        decide (s.dies[d].upd.decision ≠ .skip) && s.dies[d].upd.commit.any (fun c => !c.colsSent)) = false :=
      List.any_eq_false.mpr fun d _ => by rw [h d]; simp
    rw [State.colsDue, hany, Bool.and_false]
  rw [State.sendCols, hdue, if_neg Bool.false_ne_true]

theorem settleCommits_idle (h : s.NoCommit) : s.settleCommits = s := by
  rw [State.settleCommits, sendCols_idle h]
  exact foldl_unchanged (fun d => by rw [h d]) _

theorem stepWaited_idle (h : s.NoCommit) : s.stepWaited = s :=
  foldl_unchanged (fun d => by rw [h d]) _

/-- Without a COMMIT settling ends GRAD_SENDs alone. -/
theorem settled_idle (h : s.NoCommit) : s.settleGrads.settleCommits.stepWaited = s.settleGrads := by
  have hg : s.settleGrads.NoCommit := h.of_keeps (.of_dies OnlyClusters.settleGrads.dies)
  rw [settleCommits_idle hg, stepWaited_idle hg]

/-! ### A header reaches the units (R422, R423) -/

/-- Only the dies and the event records may differ. -/
def OnlyUnits (s t : State) : Prop := t = { s with dies := t.dies, health := t.health }

theorem OnlyUnits.trans (h : OnlyUnits s t) (k : OnlyUnits t u) : OnlyUnits s u := by
  unfold OnlyUnits at h k ⊢
  rw [k, h]

theorem OnlyUnits.foldl {f : State → α → State} (hf : ∀ s x, OnlyUnits s (f s x)) (xs : List α) (s : State) :
    OnlyUnits s (xs.foldl f s) := by
  induction xs generalizing s with
  | nil => rfl
  | cons x xs ih => exact (hf s x).trans (ih _)

theorem onlyUnits_raiseD (unit : BitVec 16) (code a0 a1 a2 : Nat) : OnlyUnits s (s.raiseD unit code a0 a1 a2) := by
  have h := onlyHealth_raise s unit code s.seasonMin a0 a1 a2
  unfold OnlyHealth at h
  rw [State.raiseD, h]
  rfl

theorem onlyUnits_modUpd (f : UpdateUnit → UpdateUnit) : OnlyUnits s (s.modUpd d f) := rfl

/-- A unit takes the step of a header. -/
def takeHeader (step : Nat) (u : UpdateUnit) : UpdateUnit :=
  { u with header := true, stepT := BitVec.ofNat 32 (if u.header then max u.stepT.toNat step else step) }

/-- A unit has named its skew. -/
def nameSkew (u : UpdateUnit) : UpdateUnit := { u with skewRaised := true }

/-- A header reaches one die's unit. -/
def State.headerAt (step : Nat) (s : State) (d : Fin 4) : State :=
  if s.dieFenced d then s
  else
    let s := s.modUpd d (takeHeader step)
    let u := s.dies[d].upd
    if u.stepT ≠ u.stepNumber ∧ !u.skewRaised then
      (s.modUpd d nameSkew).raiseD (uidDie d.val 4) 0x0602 u.stepT.toNat (0x800000000000 + s.devNumber) u.stepNumber.toNat
    else s

theorem stepHeader_eq (step : Nat) : s.stepHeader step = (List.finRange 4).foldl (State.headerAt step) s := rfl

theorem headerAt_leaves (step : Nat) (s : State) (d : Fin 4) :
    OnlyUnits s (s.headerAt step d) ∧ Keeps (·.commit.isSome) s (s.headerAt step d) := by
  have hheader : Keeps (·.commit.isSome) s (s.modUpd d (takeHeader step)) := .modUpd _ _ fun _ => rfl
  have hskew : Keeps (·.commit.isSome) (s.modUpd d (takeHeader step)) ((s.modUpd d (takeHeader step)).modUpd d nameSkew) :=
    .modUpd _ _ fun _ => rfl
  unfold State.headerAt
  split
  · exact ⟨rfl, .refl⟩
  · dsimp only
    split
    · exact ⟨((onlyUnits_modUpd _).trans (onlyUnits_modUpd _)).trans (onlyUnits_raiseD ..),
        (hheader.trans hskew).trans (.raiseD ..)⟩
    · exact ⟨onlyUnits_modUpd _, hheader⟩

theorem stepHeader_leaves (step : Nat) : OnlyUnits s (s.stepHeader step) ∧ Keeps (·.commit.isSome) s (s.stepHeader step) := by
  rw [stepHeader_eq]
  exact ⟨.foldl (fun s d => (headerAt_leaves step s d).1) _ _, .foldl (fun s d => (headerAt_leaves step s d).2) _ _⟩

end

end Sys2Proof.Machine
end

section
/-! PROOFS. Chunks: GRAD_SEND cuts values into chunks, CHUNK_COMBINE delivers or passes on their sums (R414, R425, R454 to R458). -/

namespace Sys2Proof.Machine

/-! Elaborated one after another: side by side these proofs take memory that the whole text's compile does not have. -/

set_option Elab.async false

section
variable {s t w : State} {g : Fin 32} {r : Running} {x : GroupDesc} {p : ChunkPart}

/-! ### GRAD_SEND (R414, R425, R457) -/

/-- An element of a GRAD_SEND's source, FP32 or BF16 widened. -/
def gradValue (c : GradCtl) (bs : List Byte) (e : Nat) : U32 :=
  let size := if c.bf16 then 2 else 4
  let w := leNat ((bs.drop (size * (e - c.first))).take size)
  if c.bf16 then widen bf16 w else BitVec.ofNat 32 w

/-- This device's chunks of a GRAD_SEND. -/
def State.gradChunks (s : State) (d : Fin 4) (c : GradCtl) (x : GroupDesc) (bs : List Byte) : List ChunkPart :=
  (s.cutChunks c.group x c.first c.count).map (fun y =>
    { group := c.group, first := y.2.1, root := y.1, kind := 0, sender := s.devNumber, step := s.dies[d].upd.stepNumber.toNat,
      elems := (List.range y.2.2).map (fun i => gradValue c bs (y.2.1 + i)) })

theorem gradChunks_counts (h : CountsOnly s t) (d : Fin 4) (c : GradCtl) (bs : List Byte) :
    t.gradChunks d c x bs = s.gradChunks d c x bs := by
  rw [h.frame]
  rfl

/-- The state once a GRAD_SEND has put its chunks into the staging region. -/
def State.gradSent (s : State) (g : Fin 32) (r : Running) (ps : List ChunkPart) : State :=
  { s.setRunning g .update r r.works with chunks := s.chunks ++ ps }

theorem gradSend_yields {c : GradCtl} {bs : List Byte} (ha : s.activeOp g .update 1 = some r) (hph : r.phase = .started)
    (hl : s.updLive (dieOfCluster g) = true) (hc : gradCtl r.q.desc = c) (hb : s.gradBad r.q.desc c = none)
    (hg : s.group c.group = some x) (hread : s.updRead (dieOfCluster g) c.src ((if c.bf16 then 2 else 4) * c.count) = .ok bs) :
    Yields (.gradSend g) s (fun t => t.mem = s.mem ∧ t = { s with clusters := t.clusters, chunks := t.chunks, hbm := t.hbm } ∧
      t.chunks = s.chunks ++ s.gradChunks (dieOfCluster g) c x bs) := by
  have hnote : CountsOnly s (s.noteRead c.src ((if c.bf16 then 2 else 4) * c.count)) := countsOnly_noteRead _ _
  have hx : exec (.gradSend g) s = .next ((s.noteRead c.src ((if c.bf16 then 2 else 4) * c.count)).gradSent g r
      ((s.noteRead c.src ((if c.bf16 then 2 else 4) * c.count)).gradChunks (dieOfCluster g) c x bs)).settleGrads := by
    have hsel : (s.activeOp g .update 1).filter (fun r => decide (r.phase = .started) && s.updLive (dieOfCluster g)) = some r := by
      rw [ha, Option.filter_some, if_pos (by simp [hph, hl])]
    simp only [exec, execGradSend, hsel, hc, hb, hg, hread]
    rfl
  rw [gradChunks_counts hnote] at hx
  generalize s.noteRead c.src ((if c.bf16 then 2 else 4) * c.count) = v at hnote hx
  have hsettle : OnlyClusters (v.gradSent g r _) (v.gradSent g r (s.gradChunks (dieOfCluster g) c x bs)).settleGrads := .settleGrads
  have hchunks : v.chunks = s.chunks := by rw [hnote.frame]
  refine ⟨_, hx, hsettle.mem.trans hnote.view.mem, ?_, hsettle.chunks.trans (by rw [← hchunks]; rfl)⟩
  generalize (v.gradSent g r (s.gradChunks (dieOfCluster g) c x bs)).settleGrads = t at hsettle
  unfold OnlyClusters State.gradSent at hsettle
  rw [hsettle, hnote.frame]
  rfl

/-! ### CHUNK_COMBINE (R454, R455, R458) -/

/-- The staging region without a chunk. -/
def State.withoutChunk (s : State) (p : ChunkPart) : State := { s with chunks := s.chunks.filter (fun y => !y.same p) }

/-- A ready chunk is combined; without a COMMIT settling then ends GRAD_SENDs alone. -/
theorem exec_chunkCombine {i : Nat} (hi : s.chunks[i]? = some p) (hr : s.chunkReady p = true) (hcombine : s.combine p = w)
    (hcommit : w.NoCommit) : exec (.chunkCombine i) s = .next w.settleGrads := by
  simp only [exec, execChunkCombine, hi, hr, if_true, hcombine, settled_idle hcommit]

/-- A unit knows the elements that have arrived. -/
def noteArrived (gi first n : Nat) (u : UpdateUnit) : UpdateUnit := { u with arrived := u.arrived ++ [(gi, first, n)] }

/-- Every unit knows the elements that have arrived. -/
def State.arrives (s : State) (gi first n : Nat) : State :=
  (List.finRange 4).foldl (fun s d => s.modUpd d (noteArrived gi first n)) s

theorem arrives_leaves (gi first n : Nat) : OnlyUnits s (s.arrives gi first n) ∧ Keeps (·.commit.isSome) s (s.arrives gi first n) := by
  have hkeeps : ∀ (s : State) (d : Fin 4), Keeps (·.commit.isSome) s (s.modUpd d (noteArrived gi first n)) := fun _ _ =>
    .modUpd _ _ fun _ => rfl
  exact ⟨.foldl (f := fun s d => s.modUpd d (noteArrived gi first n)) (fun _ _ => onlyUnits_modUpd _) _ _, .foldl hkeeps _ _⟩

/-- A gradient chunk whose landing area can be written is written there. -/
theorem deliverGrad_written {gi first step : Nat} {v : List U32} (hg : s.group gi = some x)
    (hw : (s.stepHeader step).updWrite (dieOfStack (stackOf (landAddr x first))) (landAddr x first) (f32Bytes v) = .ok w) :
    s.deliverGrad gi first step v = w.arrives gi first v.length := by
  have hg' : (s.stepHeader step).group gi = some x := by
    rw [← hg, State.group, State.group, (stepHeader_leaves step).1]
  simp only [State.deliverGrad, hg', hw]
  rfl

theorem chunkCombine_lands {i : Nat} (hi : s.chunks[i]? = some p) (hr : s.chunkReady p = true) (hcommit : s.NoCommit)
    (hroot : p.root = s.devNumber) (hk : p.kind = 0) (hg : s.group p.group = some x)
    (hw : ((s.withoutChunk p).stepHeader (s.chunkSum p).2).updWrite (dieOfStack (stackOf (landAddr x p.first))) (landAddr x p.first)
      (f32Bytes (s.chunkSum p).1) = .ok w) :
    Yields (.chunkCombine i) s (fun t => t.mem = w.mem ∧ t.chunks = s.chunks.filter (fun y => !y.same p)) := by
  obtain ⟨hframe, hkeeps⟩ := stepHeader_leaves (s := s.withoutChunk p) (s.chunkSum p).2
  obtain ⟨hframe', hkeeps'⟩ := arrives_leaves (s := w) p.group p.first (s.chunkSum p).1.length
  have hmem : OnlyMemory _ w := onlyMemory_writeChecked hw
  have hcombine : s.combine p = w.arrives p.group p.first (s.chunkSum p).1.length := by
    have hd := deliverGrad_written (s := s.withoutChunk p) hg hw
    have hdev : (s.withoutChunk p).devNumber = s.devNumber := rfl
    unfold State.withoutChunk at hd hdev
    simp only [State.combine, hdev, hroot, hk, if_true, hd]
  have hwcommit : w.NoCommit := by
    refine .of_keeps (.of_keeps (s := s.withoutChunk p) hcommit hkeeps) (.of_dies ?_)
    rw [hmem]
  have hchunks : w.chunks = s.chunks.filter (fun y => !y.same p) := by
    rw [hmem, hframe]
    rfl
  refine ⟨_, exec_chunkCombine hi hr hcombine (hwcommit.of_keeps hkeeps'), ?_, ?_⟩
  · rw [settleGrads_mem, hframe']
  · rw [OnlyClusters.settleGrads.chunks, hframe', hchunks]

/-- The parent of a device in a tree is found by what routing looks at. -/
theorem effParent_view (h : SameView s t) (hgone : t.gone = s.gone) (root fuel n : Nat) :
    t.effParent root fuel n = s.effParent root fuel n := by
  induction fuel generalizing n with
  | zero => rfl
  | succ fuel ih =>
    rw [State.effParent, State.effParent, h.shape, h.expressEn]
    cases treeParent s.shape s.expressEn root n with
    | none => rfl
    | some p =>
      have hreach : t.reaches p = s.reaches p := by rw [State.reaches, State.reaches, h.route, hgone]
      dsimp only
      rw [hreach, ih]

theorem chunkCombine_climbs {i m : Nat} (hi : s.chunks[i]? = some p) (hr : s.chunkReady p = true) (hcommit : s.NoCommit)
    (hroot : p.root ≠ s.devNumber) (hparent : s.effParent p.root treeDepth s.devNumber = some m)
    (hw : w = (s.withoutChunk p).trySend m .reduce (s.chunkSum p).2 (reduceKey0 p.group p.first) (reduceKey1 p.root p.kind)
      (f32Bytes (s.chunkSum p).1)) :
    Yields (.chunkCombine i) s (fun t => t = { w with clusters := t.clusters } ∧
      t.chunks = s.chunks.filter (fun y => !y.same p)) := by
  have hsent : SentOn (s.withoutChunk p) w := hw ▸ trySend_sentOn ..
  have hcombine : s.combine p = w := by
    have hview : SameView s (s.withoutChunk p) := { SameView.refl with }
    have hdev : (s.withoutChunk p).devNumber = s.devNumber := rfl
    have hparent' := (effParent_view hview rfl p.root treeDepth s.devNumber).trans hparent
    unfold State.withoutChunk at hw hdev hparent'
    simp only [State.combine, hdev, hroot, if_false, hparent', hw]
  have hwcommit : w.NoCommit := .of_keeps (s := s.withoutChunk p) hcommit (.of_dies hsent.dies)
  exact ⟨_, exec_chunkCombine hi hr hcombine hwcommit, OnlyClusters.settleGrads,
    OnlyClusters.settleGrads.chunks.trans hsent.chunks⟩

end

end Sys2Proof.Machine
end

section
/-! PROOFS. Updates: UPDATE takes its groups' units as work, PARTIAL_SUM and ROW_UPDATE go through it (R200, R404 to R411, R421, R425). -/

namespace Sys2Proof.Machine

/-! Elaborated one after another: side by side these proofs take memory that the whole text's compile does not have. -/

set_option Elab.async false

section
variable {s t : State} {g : Fin 32} {d : Fin 4} {r : Running} {c : UpdCtl}

/-! ### UPDATE takes its groups (R421, R425) -/

/-- Only the dies may differ. -/
def OnlyDies (s t : State) : Prop := t = { s with dies := t.dies }

theorem onlyDies_modUpd (f : UpdateUnit → UpdateUnit) : OnlyDies s (s.modUpd d f) := rfl

theorem OnlyDies.trans {u : State} (h : OnlyDies s t) (k : OnlyDies t u) : OnlyDies s u := by
  unfold OnlyDies at h k ⊢
  rw [k, h]

theorem OnlyDies.groupWork (h : OnlyDies s t) (gi : Nat) (x : GroupDesc) : t.groupWork d gi x = s.groupWork d gi x := by
  unfold OnlyDies at h
  rw [h]
  rfl

theorem OnlyDies.queue (h : OnlyDies s t) (q : QueueId) : t.queue g q = s.queue g q := by
  unfold OnlyDies at h
  rw [h]
  rfl

/-- A die's unit has been given work, for groups with an UPDATE's micro-batch count and learning rate. -/
structure Given (d : Fin 4) (c : UpdCtl) (ws : List UpdWork) (s t : State) : Prop where
  frame : OnlyDies s t
  work : t.dies[d].upd.work = s.dies[d].upd.work ++ ws
  job : t.dies[d].upd.job = s.dies[d].upd.job
  state : t.dies[d].upd.state = s.dies[d].upd.state
  groups : ∀ k, tabFind s.dies[d].upd.groups k = some (c.mb, c.lr) → tabFind t.dies[d].upd.groups k = some (c.mb, c.lr)

theorem Given.refl : Given d c [] s s := ⟨rfl, (List.append_nil _).symm, rfl, rfl, fun _ => id⟩

theorem Given.trans {u : State} {ws ws' : List UpdWork} (h : Given d c ws s t) (k : Given d c ws' t u) :
    Given d c (ws ++ ws') s u :=
  ⟨h.frame.trans k.frame, by rw [k.work, h.work, List.append_assoc], k.job.trans h.job, k.state.trans h.state,
    fun i hi => k.groups i (h.groups i hi)⟩

theorem given_modUpd {ws : List UpdWork} (f : UpdateUnit → UpdateUnit) (hw : ∀ u, (f u).work = u.work ++ ws)
    (hj : ∀ u, (f u).job = u.job) (hst : ∀ u, (f u).state = u.state)
    (hg : ∀ u k, tabFind u.groups k = some (c.mb, c.lr) → tabFind (f u).groups k = some (c.mb, c.lr)) :
    Given d c ws s (s.modUpd d f) :=
  ⟨onlyDies_modUpd f, by rw [upd_modUpd, hw], by rw [upd_modUpd, hj], by rw [upd_modUpd, hst],
    fun k hk => by rw [upd_modUpd]; exact hg _ k hk⟩

/-- A die's COLPART of a group is cleared in its unit's speculative state alone. -/
theorem given_clearColpart (x : GroupDesc) : Given d c [] s (s.clearColpart d x) := by
  unfold State.clearColpart
  split
  · exact given_modUpd _ (fun _ => (List.append_nil _).symm) (fun _ => rfl) (fun _ => rfl) fun _ _ => id
  · exact .refl

/-- A unit with one more group and its work. -/
def takeGroup (c : UpdCtl) (gi : Nat) (ws : List UpdWork) (u : UpdateUnit) : UpdateUnit :=
  { u with groups := tabSet u.groups gi (c.mb, c.lr), work := u.work ++ ws }

/-- A group's COLPART is cleared when its first UPDATE of the step names it. -/
def State.clearOnce (s : State) (d : Fin 4) (x : Nat × GroupDesc) : State :=
  if (tabFind s.dies[d].upd.groups x.1).isNone then s.clearColpart d x.2 else s

/-- A die's unit takes a group of an UPDATE. -/
def State.takesGroup (d : Fin 4) (c : UpdCtl) (s : State) (x : Nat × GroupDesc) : State :=
  (s.clearOnce d x).modUpd d (takeGroup c x.1 ((s.clearOnce d x).groupWork d x.1 x.2))

theorem given_takesGroup (x : Nat × GroupDesc) : Given d c (s.groupWork d x.1 x.2) s (s.takesGroup d c x) ∧
    tabFind (s.takesGroup d c x).dies[d].upd.groups x.1 = some (c.mb, c.lr) := by
  have hclear : Given d c [] s (s.clearOnce d x) := by
    unfold State.clearOnce
    split
    · exact given_clearColpart x.2
    · exact .refl
  unfold State.takesGroup
  rw [upd_modUpd, hclear.frame.groupWork]
  refine ⟨hclear.trans (given_modUpd _ (fun _ => rfl) (fun _ => rfl) (fun _ => rfl) fun u k hk => ?_), tabFind_tabSet_same ..⟩
  by_cases h : k = x.1
  · rw [h]
    exact tabFind_tabSet_same ..
  · exact (tabFind_tabSet_other _ _ _ _ h).trans hk

/-- A die's unit takes every group of an UPDATE. -/
theorem given_takesGroups (xs : List (Nat × GroupDesc)) (s : State) :
    Given d c (xs.flatMap (fun x => s.groupWork d x.1 x.2)) s (xs.foldl (State.takesGroup d c) s) ∧
    ∀ x ∈ xs, tabFind (xs.foldl (State.takesGroup d c) s).dies[d].upd.groups x.1 = some (c.mb, c.lr) := by
  induction xs generalizing s with
  | nil => exact ⟨.refl, fun x hx => by cases hx⟩
  | cons x xs ih =>
    obtain ⟨hone, hname⟩ := given_takesGroup (s := s) (d := d) (c := c) x
    obtain ⟨hrest, hnames⟩ := ih (s.takesGroup d c x)
    simp only [hone.frame.groupWork] at hrest
    refine ⟨hone.trans hrest, fun y hy => ?_⟩
    cases hy with
    | head => exact hrest.groups _ hname
    | tail _ hy => exact hnames y hy

/-- A unit opened by an UPDATE. -/
def openUnit (g : Fin 32) (r : Running) (u : UpdateUnit) : UpdateUnit :=
  let u : UpdateUnit := if u.season.isNone then { u with sumSq := 0, gradNonfinite := false, updateFault := false } else u
  { u with season := some (u.season.getD r.season), state := .updating,
           job := some { cluster := g.val, run := r.works, skewNamed := false, nonfiniteNamed := false } }

theorem openUnit_leaves (u : UpdateUnit) : (openUnit g r u).work = u.work ∧ (openUnit g r u).state = .updating ∧
    (openUnit g r u).job = some { cluster := g.val, run := r.works, skewNamed := false, nonfiniteNamed := false } := by
  unfold openUnit
  dsimp only
  split <;> exact ⟨rfl, rfl, rfl⟩

/-- The state once an UPDATE works and its unit is open. -/
def State.updOpened (s : State) (g : Fin 32) (r : Running) (d : Fin 4) : State :=
  (s.setRunning g .update r r.works).modUpd d (openUnit g r)

theorem updStart_eq : s.updStart g r c = (((s.groupsIn c).foldl (State.takesGroup (dieOfCluster g) c)
    (s.updOpened g r (dieOfCluster g))).updDone (dieOfCluster g)) := rfl

/-- An UPDATE that works has given its unit the work of its groups, before it looks whether any is left. -/
structure Opened (g : Fin 32) (r : Running) (d : Fin 4) (c : UpdCtl) (s t : State) : Prop where
  mem : t.mem = s.mem
  work : t.dies[d].upd.work = s.dies[d].upd.work ++ (s.groupsIn c).flatMap (fun x => s.groupWork d x.1 x.2)
  groups : ∀ x ∈ s.groupsIn c, tabFind t.dies[d].upd.groups x.1 = some (c.mb, c.lr)
  state : t.dies[d].upd.state = .updating
  job : t.dies[d].upd.job = some { cluster := g.val, run := r.works, skewNamed := false, nonfiniteNamed := false }
  running : r.works ∈ (t.queue g .update).running

theorem opened_takesGroups (ha : s.activeOp g .update 2 = some r) :
    Opened g r d c s ((s.groupsIn c).foldl (State.takesGroup d c) (s.updOpened g r d)) := by
  obtain ⟨hwork, hstate, hjob⟩ := openUnit_leaves (g := g) (r := r) s.dies[d].upd
  have hupd : (s.updOpened g r d).dies[d].upd = openUnit g r s.dies[d].upd := upd_modUpd _
  obtain ⟨hgiven, hnames⟩ := given_takesGroups (d := d) (c := c) (s.groupsIn c) (s.updOpened g r d)
  refine ⟨?_, ?_, hnames, ?_, ?_, ?_⟩
  · rw [hgiven.frame]
    rfl
  · rw [hgiven.work, hupd, hwork]
    rfl
  · rw [hgiven.state, hupd, hstate]
  · rw [hgiven.job, hupd, hjob]
  · rw [hgiven.frame.queue, State.updOpened, (onlyDies_modUpd _).queue, queue_setRunning]
    exact mem_modFirst (mem_running_of_activeOp ha)

/-- A unit whose work is done. -/
def doneUnit (u : UpdateUnit) : UpdateUnit := { u with job := none, state := .updated, voteSum := voteRound u.sumSq }

theorem updDone_working {j : UpdJob} (hj : s.dies[d].upd.job = some j) (hw : s.dies[d].upd.work ≠ []) : s.updDone d = s := by
  rw [State.updDone, hj]
  exact if_pos hw

theorem updDone_done {j : UpdJob} (hj : s.dies[d].upd.job = some j) (hw : s.dies[d].upd.work = []) :
    s.updDone d = (s.modUpd d doneUnit).finishDesc (fin32 j.cluster) .update j.run none := by
  rw [State.updDone, hj]
  exact if_neg (not_not_intro hw)

theorem exec_update (ha : s.activeOp g .update 2 = some r) (hph : r.phase = .started) (hl : s.updLive (dieOfCluster g) = true)
    (hc : updCtl r.q.desc = c) (hb : updBad r.q.desc c = none) (hgate : updGate s.dies[dieOfCluster g].upd r.season = .go) :
    exec (.update g) s = .next (s.updStart g r c) := by
  have hsel : (s.activeOp g .update 2).filter (fun r => decide (r.phase = .started) && s.updLive (dieOfCluster g)) = some r := by
    rw [ha, Option.filter_some, if_pos (by simp [hph, hl])]
  simp only [exec, execUpdate, hsel, hc, hb]
  rw [hgate]

theorem updStart_leaves {ws : List UpdWork} (ha : s.activeOp g .update 2 = some r) (hd : dieOfCluster g = d)
    (hws : (s.groupsIn c).flatMap (fun x => s.groupWork d x.1 x.2) = ws) :
    (s.updStart g r c).mem = s.mem ∧ (s.updStart g r c).dies[d].upd.work = s.dies[d].upd.work ++ ws ∧
    (∀ x ∈ s.groupsIn c, tabFind (s.updStart g r c).dies[d].upd.groups x.1 = some (c.mb, c.lr)) ∧
    (s.dies[d].upd.work ++ ws ≠ [] → (s.updStart g r c).dies[d].upd.state = .updating ∧
      r.works ∈ ((s.updStart g r c).queue g .update).running) ∧
    (s.dies[d].upd.work ++ ws = [] → (s.updStart g r c).dies[d].upd.state = .updated ∧
      (s.updStart g r c).dies[d].upd.job = none) := by
  have ho := opened_takesGroups (d := d) (c := c) ha
  have hwork := ho.work
  rw [hws] at hwork
  rw [updStart_eq, hd]
  generalize (s.groupsIn c).foldl (State.takesGroup d c) (s.updOpened g r d) = t at ho hwork
  by_cases hnil : s.dies[d].upd.work ++ ws = []
  · rw [updDone_done ho.job (hwork.trans hnil), (OnlyClusters.finishDesc ..).dies, (OnlyClusters.finishDesc ..).mem, upd_modUpd,
      modUpd_mem]
    exact ⟨ho.mem, hwork, ho.groups, fun h => absurd hnil h, fun _ => ⟨rfl, rfl⟩⟩
  · rw [updDone_working ho.job (by rwa [hwork])]
    exact ⟨ho.mem, hwork, ho.groups, fun _ => ⟨ho.state, ho.running⟩, fun h => absurd h hnil⟩

/-! ### PARTIAL_SUM (R200) -/

theorem partialSum_yields {tb row k : Nat} {td : TableDesc} {l : LogRow} (hl : s.updLive d = true)
    (hnext : s.dies[d].upd.sumNext = some (tb, row, k)) (ht : s.table tb = some td)
    (hok : s.stackFail (.onDie d.val (.req 5)) (fin12 k) = none) (hlog : s.hbm[fin12 k].log.find? (logRowIs tb row) = some l) :
    Yields (.partialSum d) s (fun t => OnlyDie d s t ∧
      t.dies[d].upd.gsums = s.dies[d].upd.gsums ++ [(tb, row, gsumOf td.dim l)]) := by
  refine ⟨s.modUpd d (fun u => { u with gsums := u.gsums ++ [(tb, row, gsumOf td.dim l)] }), ?_, ?_, ?_⟩
  · simp only [exec, execPartialSum, hnext, Option.filter_some, hl, if_true, ht, hok, hlog]
  · simp [OnlyDie, State.modUpd, State.modDie]
  · rw [upd_modUpd]

/-! ### ROW_UPDATE keeps the rest of the work (R404 to R411) -/

/-- Every unit's work is the same. -/
abbrev KeepsWork (s t : State) : Prop := Keeps (·.work) s t

theorem keepsWork_updFault (d : Fin 4) (f : Fail) : KeepsWork s (s.updFault d f) :=
  (Keeps.countUe f).trans (.modUpd _ _ fun _ => rfl)

theorem keepsWork_backFault (d : Fin 4) (f : Fail) : KeepsWork s (s.backFault d f) := by
  unfold State.backFault
  split
  · exact (keepsWork_updFault d f).trans (.modUpd _ _ fun _ => rfl)
  · exact keepsWork_updFault d f

theorem keepsWork_takeVote (inv : U32) (gs : List U32) : KeepsWork s (s.modUpd d (takeVote inv gs)) := .modUpd _ _ fun _ => rfl

theorem keepsWork_nonfiniteEvent (elem group kept : Nat) : KeepsWork s (s.nonfiniteEvent d elem group kept) := by
  have hpend : KeepsWork s (s.modUpd d (fun u => { u with pend := { u.pend with nonfinite := u.pend.nonfinite + kept } })) :=
    .modUpd _ _ fun _ => rfl
  unfold State.nonfiniteEvent
  dsimp only
  split
  · refine hpend.trans (.trans ?_ (.raiseD ..))
    split <;> exact .modUpd _ _ fun _ => rfl
  · exact hpend

theorem keepsWork_skewRecord (addr step : Nat) : KeepsWork s (s.skewRecord d addr step) := by
  have hpend : KeepsWork s (s.modUpd d (fun u => { u with pend := { u.pend with stepSkewRecords := u.pend.stepSkewRecords + 1 } })) :=
    .modUpd _ _ fun _ => rfl
  unfold State.skewRecord
  dsimp only
  split
  · split
    · exact hpend
    · refine .trans ?_ (.raiseD ..)
      exact hpend.trans (.modUpd _ _ fun _ => rfl)
  · exact hpend

theorem keepsWork_shadowWrite {a : Nat} {bs : List Byte} (h : s.shadowWrite d a bs = .ok t) : KeepsWork s t := by
  rw [shadowWrite_ok h]
  exact .modUpd _ _ fun _ => rfl

theorem keepsWork_shadowWrites {ws : List (Nat × List Byte)} (h : s.shadowWrites d ws = .ok t) : KeepsWork s t := by
  induction ws generalizing s with
  | nil => cases h; exact .refl
  | cons w ws ih =>
    rw [State.shadowWrites] at h
    split at h
    · cases h
    · exact (keepsWork_shadowWrite ‹_›).trans (ih h)

theorem keepsWork_addColpart {x : GroupDesc} {o : DenseRow} (h : s.addColpart d x o = .ok t) : KeepsWork s t := by
  unfold State.addColpart at h
  split at h
  · cases h
  · exact keepsWork_shadowWrite h

theorem keepsWork_denseWrite {gi i : Nat} {x : GroupDesc} {y : DenseIn} {o : DenseRow} (h : s.denseWrite d gi x i y o = .ok t) :
    KeepsWork s t := by
  unfold State.denseWrite at h
  extract_lets u ws kept at h
  clear_value kept
  split at h
  · cases h
  · rename_i v hv
    extract_lets s1 s2 at h
    have h1 : KeepsWork s s1 := (keepsWork_shadowWrites hv).trans (.modUpd _ _ fun _ => rfl)
    have h2 : KeepsWork s s2 := by
      unfold s2
      split
      · exact h1.trans (keepsWork_nonfiniteEvent ..)
      · split
        · exact h1.trans (keepsWork_nonfiniteEvent ..)
        · exact h1
    split at h
    · split at h
      · cases h
      · rename_i w hw
        have h3 : KeepsWork s w := h2.trans (keepsWork_shadowWrite hw)
        split at h
        · exact Except.ok.inj h ▸ h3
        · exact h3.trans (keepsWork_addColpart h)
    · exact Except.ok.inj h ▸ h2

theorem keepsWork_denseUpdate (gi i : Nat) (c : U32) (vote : Bool) : KeepsWork s (s.denseUpdate d gi i c vote) := by
  unfold State.denseUpdate
  split
  · exact .refl
  · split
    split
    · exact keepsWork_updFault _ _
    · exact keepsWork_updFault _ _
    · rename_i y f _ _
      extract_lets u s1 inv s2 bad s3
      have h1 : KeepsWork s s1 := (Keeps.foldl (fun _ _ => .noteRead ..) _ _).trans (.noteRead ..)
      have h2 : KeepsWork s s2 := by
        unfold s2
        split
        · exact h1.trans (keepsWork_takeVote ..)
        · exact h1
      have h3 : KeepsWork s s3 := by
        unfold s3
        split
        · exact h2.trans (.modUpd _ _ fun _ => rfl)
        · exact h2
      split
      · exact h3
      · rename_i s4 _ _ _ _
        have h4 : KeepsWork s s4 := by
          unfold s4
          split
          · refine h3.trans (.foldl (fun v x => ?_) _ _)
            split
            · exact .refl
            · exact keepsWork_skewRecord ..
          · exact h3
        split
        · exact h4.trans (keepsWork_denseWrite ‹_›)
        · exact h4.trans (keepsWork_updFault ..)

theorem keepsWork_embedUpdate (gi i row : Nat) (k : Fin 12) (c : U32) (vote : Bool) :
    KeepsWork s (s.embedUpdate d gi i row k c vote) := by
  unfold State.embedUpdate
  split
  · extract_lets u
    split
    extract_lets inv s1
    have h1 : KeepsWork s s1 := by
      unfold s1
      split
      · exact keepsWork_takeVote ..
      · exact .refl
    split
    · exact h1.trans (keepsWork_backFault ..)
    · split
      · exact h1.trans (keepsWork_backFault ..)
      · extract_lets s2 step stat s3
        have h2 : KeepsWork s s2 := h1.trans (.noteRead ..)
        have h3 : KeepsWork s s3 := by
          unfold s3
          split
          · exact h2.trans (.raiseD ..)
          · exact h2
        split
        · exact (h3.trans (.modStack ..)).trans (keepsWork_nonfiniteEvent ..)
        · refine .trans ?_ (.modStack ..)
          exact h3.trans (.modUpd _ _ fun _ => rfl)
  · exact .refl

theorem keepsWork_doWork (w : UpdWork) : KeepsWork s (s.doWork d w) := by
  cases w with
  | row gi i => exact keepsWork_denseUpdate ..
  | record gi i => exact keepsWork_denseUpdate ..
  | embed gi i row k => exact keepsWork_embedUpdate ..

theorem rowUpdate_yields {w : UpdWork} (hl : s.updLive d = true) (hnext : s.workNext s.dies[d].upd [] s.dies[d].upd.work = some w)
    (hrest : delFirst (fun x => decide (x = w)) s.dies[d].upd.work ≠ []) :
    Yields (.rowUpdate d) s (fun t => t.dies[d].upd.work = delFirst (fun x => decide (x = w)) s.dies[d].upd.work ∧
      t = (s.doWork d w).modUpd d (fun u => { u with work := t.dies[d].upd.work })) := by
  have hwork : (s.doWork d w).dies[d].upd.work = s.dies[d].upd.work := (keepsWork_doWork w).same d
  have hleft : ((s.doWork d w).modUpd d (fun u => { u with work := delFirst (fun x => decide (x = w)) u.work })).dies[d].upd.work =
      delFirst (fun x => decide (x = w)) s.dies[d].upd.work := by
    rw [upd_modUpd, hwork]
  refine ⟨_, ?_, hleft, ?_⟩
  · simp only [exec, execRowUpdate, hnext, Option.filter_some, hl, if_true]
    rw [if_pos (by rwa [hleft])]
  · rw [hleft]
    simp only [State.modUpd, State.modDie, hwork]
end

/-- Settles O37. -/
theorem gradientsAndUpdatesWorkThrough : Obligations.GradientsAndUpdatesWorkThrough :=
  ⟨fun _ _ _ _ _ ha hph hl hb hg hread => gradSend_yields ha hph hl rfl hb hg hread,
    fun _ _ _ _ _ hi hr hcommit hroot hk hg hw => chunkCombine_lands hi hr hcommit hroot hk hg hw,
    fun _ _ _ _ hi hr hcommit hroot hparent => chunkCombine_climbs hi hr hcommit hroot hparent rfl,
    fun _ _ _ ha hph hl hb hgate => ⟨_, exec_update ha hph hl rfl hb hgate, updStart_leaves ha rfl rfl⟩,
    fun _ _ _ _ _ _ _ => partialSum_yields,
    fun _ _ _ => rowUpdate_yields⟩

end Sys2Proof.Machine
end

section
/-! PROOFS. Packets: what delivered packets do (R212, R222, R224, R414, R449, R450, R457, R458). -/

namespace Sys2Proof.Machine

/-! Elaborated one after another: side by side these proofs take memory that the whole text's compile does not have. -/

set_option Elab.async false

section
variable {s t w x : State} {p : Packet} {y : PType} {ok : Packet → Bool} {g : Fin 32} {d : Fin 4}

/-! ### Taking a packet -/

/-- A packet taken leaves the delivered ones, and nothing else changes. -/
theorem pick_frame (h : s.pick y ok = some (p, x)) : x = { s with delivered := x.delivered } := by
  obtain ⟨q, -, ⟨⟩⟩ := Option.map_eq_some_iff.mp h
  rfl

/-- Finding rows, reading them and routing do not look at the delivered packets. -/
theorem pick_view (h : s.pick y ok = some (p, x)) : SameView s x := by
  obtain ⟨q, -, ⟨⟩⟩ := Option.map_eq_some_iff.mp h
  exact { SameView.refl with }

/-- A packet is taken and one cluster changes. -/
theorem onlyCluster_picked (h : s.pick y ok = some (p, x)) (hc : OnlyCluster g x t) :
    t = { s with clusters := s.clusters.set g t.clusters[g], delivered := x.delivered } := by
  have hframe := pick_frame h
  generalize x.delivered = ds at hframe ⊢
  subst hframe
  exact hc

/-! ### WRITE (R212, R450) -/

theorem copyArrived_frame (a : Nat) :
    s.copyArrived a = { s with incoming := (s.copyArrived a).incoming, early := (s.copyArrived a).early } := by
  unfold State.copyArrived
  split
  · rfl
  · split <;> rfl

theorem write_yields (hp : s.pick .write anyPacket = some (p, x))
    (hw : x.writeChecked (.req (x.writeRequester p.key0.toNat)) p.key0.toNat p.payload = .ok w) :
    Yields .write s (fun t => t = { w with incoming := t.incoming, early := t.early } ∧
      SameMemoryBut p.key0.toNat p.payload.length s t ∧ t.delivered = x.delivered) := by
  refine ⟨w.copyArrived p.key0.toNat, ?_, copyArrived_frame _, fun a ha => ?_, ?_⟩
  · simp only [exec, execWrite, hp, hw]
  · rw [copyArrived_mem, sameMemoryBut_writeChecked hw a ha, pick_mem hp]
  · have hmem := onlyMemory_writeChecked hw
    unfold OnlyMemory at hmem
    rw [copyArrived_frame, hmem]

/-! ### ROW_REQ (R212, R222, R450) -/

/-- A row's read for another device, noted and counted. -/
def State.rowServed (s : State) (k : RowKeys) (td : TableDesc) (slot addr : Nat) : State :=
  let s := s.noteRead addr (if k.versionOnly then 16 else td.stride)
  let s := if k.versionOnly then s.addSlots (stackOf addr) 1 else s.countSlots addr td.stride
  if tagSpec ≤ k.tag then s else s.countRead k.table slot addr

theorem countsOnly_rowServed (k : RowKeys) (td : TableDesc) (slot addr : Nat) : CountsOnly s (s.rowServed k td slot addr) := by
  unfold State.rowServed
  extract_lets s1 s2
  have h1 : CountsOnly s s1 := countsOnly_noteRead ..
  have h2 : CountsOnly s s2 := by
    unfold s2
    split
    · exact h1.trans (countsOnly_addSlots ..)
    · exact h1.trans (countsOnly_countSlots ..)
  split
  · exact h2
  · exact h2.trans (countsOnly_countRead ..)

/-- What a row request is answered with: the record, or its VERSION. -/
def rowPayload (k : RowKeys) (rec : List Byte) : List Byte := if k.versionOnly then leBytes 2 (recVersion rec) else rec

/-- A row owned here is read and answered. -/
theorem serveRow_owned {k : RowKeys} {td : TableDesc} {slot addr : Nat} {rec : List Byte} (ht : s.table k.table = some td)
    (hl : s.locate .any k.table td 0 k.row = .ok (s.devNumber, slot, addr))
    (hr : s.readChecked (.req 2) addr (if k.versionOnly then 16 else td.stride) = .ok rec) :
    s.serveRow p k = (s.rowServed k td slot addr).answerRow p 0 (rowPayload k rec) := by
  simp only [State.serveRow, ht, hl, if_true, hr]
  rfl

theorem rowReq_yields {td : TableDesc} {slot addr : Nat} {rec : List Byte} {k : RowKeys}
    (hp : s.pick .rowReq (fun p => !s.rowWaits p) = some (p, x)) (hk : rowKeys p = k) (ht : s.table k.table = some td)
    (hl : s.locate .any k.table td 0 k.row = .ok (s.devNumber, slot, addr))
    (hr : s.readChecked (.req 2) addr (if k.versionOnly then 16 else td.stride) = .ok rec)
    (hroute : (s.route p.src (flowSide s.devNumber p.src 1)).isSome = true) :
    Yields .rowReq s (fun t => t.mem = s.mem ∧ t.delivered = x.delivered ∧
      ∀ part ∈ payloadParts ((rowPayload k rec).length / maxPayload) (rowPayload k rec), ∃ y ∈ (t.txFlow p.src 1).unacked,
        y.ptype = .rowResp ∧ y.dst = p.src ∧ y.key1 = p.key1 ∧ y.payload = part) := by
  have hv : SameView s x := pick_view hp
  have hserve := serveRow_owned (p := p) ((hv.table _).trans ht) (by rw [hv.locate, hv.devNumber, hl]) ((hv.readChecked ..).trans hr)
  have hcount : CountsOnly x (x.rowServed k td slot addr) := countsOnly_rowServed ..
  have hroute' : ((x.rowServed k td slot addr).route p.src (flowSide (x.rowServed k td slot addr).devNumber p.src 1)).isSome = true := by
    rw [hcount.view.route, hcount.view.devNumber, hv.route, hv.devNumber, hroute]
  obtain ⟨t, hsend, hsent, hnew⟩ := sendPacket_routed (y := .rowResp) 0 (p.key0.toNat % 2 ^ 50 + 0 * 2 ^ 50) p.key1.toNat
    (rowPayload k rec) hroute'
  refine ⟨t, ?_, ?_, ?_, fun part hpart => ?_⟩
  · simp only [exec, execRowReq, hp, hk, hserve, State.answerRow, State.trySend, hsend]
  · rw [hsent.mem, hcount.view.mem, hv.mem]
  · rw [hsent.delivered, hcount.frame]
  · obtain ⟨n, hn⟩ := List.mem_iff_getElem?.mp hpart
    obtain ⟨q, hq, htype, hdst, hload, -, hkey⟩ := hnew n part hn
    exact ⟨q, hq, htype, hdst, by rw [hkey, BitVec.ofNat_toNat, BitVec.setWidth_eq], hload⟩

/-! ### ROW_RESP to a pooled member (R450) -/

theorem onlyCluster_refl : OnlyCluster g s s := by
  simp [OnlyCluster]

/-- Counting a forwarded request of no item under way leaves jobs and staged gathers. -/
theorem countForwarded_leaves {tag : Nat} (h : (s.rakeItems g).find? (fun y => decide (y.2.tag = some tag)) = none) :
    OnlyCluster g s (s.countForwarded g tag) ∧ (s.countForwarded g tag).clusters[g].rake.jobs = s.clusters[g].rake.jobs ∧
    (s.countForwarded g tag).clusters[g].rake.staged = s.clusters[g].rake.staged := by
  simp only [State.countForwarded, h]
  split
  · rw [rake_modRake]
    exact ⟨onlyCluster_modRake _, rfl, rfl⟩
  · exact ⟨onlyCluster_refl, rfl, rfl⟩

/-- An answer for no item and no staged row reaches the pooled member that asked. -/
theorem rakeAnswer_pooled {tag : Nat} {j : RakeJob} (bs : List Byte)
    (hitems : (s.rakeItems g).find? (fun y => decide (y.2.tag = some tag)) = none)
    (hstaged : s.stagedRows g (fun st => decide (st = .asked tag ∨ st = .reading tag)) = [])
    (hj : s.clusters[g].rake.jobs.find? (fun j => j.bag.any (fun b => decide (b.tag = some tag))) = some j) :
    s.rakeAnswer g tag (.ok bs) = s.setRakeJob g j.run { j with bag := j.bag.map (fun b => { b with reply := some bs }) } := by
  simp only [State.rakeAnswer, hitems, hstaged, List.head?_nil]
  rw [hj]

/-- The state in which the answer of a forwarded or direct request is taken. -/
def State.forwardCounted (s : State) (g : Fin 32) (k : RowKeys) : State := if k.forwarded then s.countForwarded g k.tag else s

theorem rowResp_yields {k : RowKeys} {j : RakeJob} (hp : s.pick .rowResp anyPacket = some (p, x)) (hk : rowKeys p = k)
    (hg : rakeOfUnit k.unit = some g) (hstatus : k.status = 0)
    (hitems : (s.rakeItems g).find? (fun y => decide (y.2.tag = some k.tag)) = none)
    (hstaged : s.stagedRows g (fun st => decide (st = .asked k.tag ∨ st = .reading k.tag)) = [])
    (hj : s.clusters[g].rake.jobs.find? (fun j => j.bag.any (fun b => decide (b.tag = some k.tag))) = some j) :
    Yields .rowResp s (fun t => t = { s with clusters := s.clusters.set g t.clusters[g], delivered := x.delivered } ∧
      ∃ j' ∈ t.clusters[g].rake.jobs, j'.run = j.run ∧ j'.bag = j.bag.map (fun b => { b with reply := some p.payload })) := by
  have hframe := pick_frame hp
  have hclusters : x.clusters = s.clusters := by rw [hframe]
  have hitems' : (x.rakeItems g).find? (fun y => decide (y.2.tag = some k.tag)) = none := by
    rw [State.rakeItems, hclusters]
    exact hitems
  obtain ⟨hcluster, hjobs, hstaged'⟩ : OnlyCluster g x (x.forwardCounted g k) ∧
      (x.forwardCounted g k).clusters[g].rake.jobs = s.clusters[g].rake.jobs ∧
      (x.forwardCounted g k).clusters[g].rake.staged = s.clusters[g].rake.staged := by
    rw [← hclusters]
    unfold State.forwardCounted
    split
    · exact countForwarded_leaves hitems'
    · exact ⟨onlyCluster_refl, rfl, rfl⟩
  have hans : (x.forwardCounted g k).rowAnswer k p.payload = .ok p.payload := if_pos hstatus
  have hx : exec .rowResp s = .next ((x.forwardCounted g k).setRakeJob g j.run
      { j with bag := j.bag.map (fun b => { b with reply := some p.payload }) }) := by
    rw [← rakeAnswer_pooled p.payload (tag := k.tag) (by rw [State.rakeItems, hjobs]; exact hitems)
      (by rw [State.stagedRows, hstaged']; exact hstaged) (by rw [hjobs]; exact hj), ← hans]
    simp only [exec, execRowResp, hp, hk, hg]
    rfl
  refine ⟨_, hx, ?_, _, mem_setRakeJob (i := j) ?_ rfl _, rfl, rfl⟩
  · exact onlyCluster_picked hp (hcluster.trans (onlyCluster_modRake _))
  · rw [hjobs]
    exact List.mem_of_find?_eq_some hj

/-! ### SCATTER_ADD and REDUCE (R197, R414, R457, R458) -/

/-- The partial that a SCATTER_ADD carries. -/
def State.partialOf (s : State) (p : Packet) : PartialMsg :=
  { cluster := none, source := p.src, table := bitsOf p.key0.toNat 43 40, row := bitsOf p.key0.toNat 39 0,
    mb := bitsOf p.key0.toNat 63 48, step := p.step, elems := f32s p.payload (p.payload.length / 4), free := s.modeFree }

theorem scatterAdd_yields (hp : s.pick .scatterAdd anyPacket = some (p, x)) :
    Yields .scatterAdd s (fun t => t = { s with delivered := x.delivered, partials := t.partials } ∧
      ∃ m, t.partials = s.partials ++ [m] ∧ m.source = p.src ∧ m.row = bitsOf p.key0.toNat 39 0 ∧
        m.table = bitsOf p.key0.toNat 43 40 ∧ m.mb = bitsOf p.key0.toNat 63 48 ∧ m.step = p.step ∧
        m.elems = f32s p.payload (p.payload.length / 4)) := by
  have hframe := pick_frame hp
  refine ⟨{ x with partials := x.partials ++ [x.partialOf p] }, ?_, ?_, x.partialOf p, ?_, rfl, rfl, rfl, rfl, rfl, rfl⟩
  · simp only [exec, execScatterAdd, hp]
    rfl
  · generalize x.delivered = ds at hframe ⊢
    subst hframe
    rfl
  · rw [hframe]

theorem learnGone_frame (root n : Nat) : s.learnGone root n = { s with gone := (s.learnGone root n).gone } := by
  unfold State.learnGone
  split <;> rfl

theorem reduce_climbs (hp : s.pick .reduce anyPacket = some (p, x)) (hk : (chunkOfPacket p).kind ≠ 2) :
    Yields .reduce s (fun t => t = { s with delivered := x.delivered, chunks := s.chunks ++ [chunkOfPacket p], gone := t.gone }) := by
  refine ⟨({ x with chunks := x.chunks ++ [chunkOfPacket p] } : State).learnGone (chunkOfPacket p).root p.src, ?_, ?_⟩
  · simp only [exec, execReduce, hp, hk, if_false]
  · have hframe := pick_frame hp
    have hlearn := learnGone_frame (s := { x with chunks := x.chunks ++ [chunkOfPacket p] }) (chunkOfPacket p).root p.src
    generalize x.delivered = ds at hframe ⊢
    subst hframe
    exact hlearn

/-- A column sum has been taken: units, stacks' counts may differ, and no COMMIT has come. -/
structure ColTaken (s t : State) : Prop where
  frame : t = { s with dies := t.dies, hbm := t.hbm }
  commits : Keeps (·.commit.isSome) s t

theorem ColTaken.refl : ColTaken s s := ⟨rfl, .refl⟩

theorem ColTaken.trans (h : ColTaken s t) (k : ColTaken t w) : ColTaken s w := ⟨by rw [k.frame, h.frame], h.commits.trans k.commits⟩

theorem ColTaken.modUpd (f : UpdateUnit → UpdateUnit) (hf : ∀ u, (f u).commit.isSome = u.commit.isSome) : ColTaken s (s.modUpd d f) :=
  ⟨rfl, .modUpd _ _ hf⟩

theorem ColTaken.foldl {α : Type} {f : State → α → State} (hf : ∀ s a, ColTaken s (f s a)) (as : List α) (s : State) :
    ColTaken s (as.foldl f s) := by
  induction as generalizing s with
  | nil => exact refl
  | cons a as ih => exact (hf s a).trans (ih _)

theorem colTaken_updFault (f : Fail) : ColTaken s (s.updFault d f) := by
  have hcount : ColTaken s (s.countUe f) := ⟨by rw [countUe_frame], .countUe f⟩
  exact hcount.trans (.modUpd _ fun _ => rfl)

theorem colTaken_deliverCol (gi j0 : Nat) (v : List U32) : ColTaken s (s.deliverCol gi j0 v) := by
  unfold State.deliverCol
  split
  · exact .refl
  · extract_lets _ _ _ _ _ _ s1
    have h1 : ColTaken s s1 := by
      unfold s1
      split
      · rename_i hw
        rw [shadowWrite_ok hw]
        exact .modUpd _ fun _ => rfl
      · exact colTaken_updFault _
    exact h1.trans (.foldl (fun _ _ => .modUpd _ fun u => by cases u.commit <;> rfl) _ _)

theorem sendDown_sentOn (c : ChunkPart) (v : List U32) (step : Nat) : SentOn s (s.sendDown c v step) :=
  .foldl (fun _ _ => trySend_sentOn ..) _ _

theorem reduce_descends {c : ChunkPart} (hp : s.pick .reduce anyPacket = some (p, x)) (hc : chunkOfPacket p = c) (hk : c.kind = 2)
    (hcommit : s.NoCommit) : Yields .reduce s (fun t => t.delivered = x.delivered ∧ t.chunks = s.chunks ∧ t.mem = s.mem) := by
  have hframe := pick_frame hp
  have hcol : ColTaken x (x.deliverCol c.group c.first c.elems) := colTaken_deliverCol ..
  have hsent := sendDown_sentOn (s := x.deliverCol c.group c.first c.elems) c c.elems c.step
  have hpicked : x.NoCommit := hcommit.of_keeps (.of_dies (by rw [hframe]))
  have hidle : ((x.deliverCol c.group c.first c.elems).sendDown c c.elems c.step).NoCommit :=
    (hpicked.of_keeps hcol.commits).of_keeps (.of_dies hsent.dies)
  have hx : exec .reduce s = .next ((x.deliverCol c.group c.first c.elems).sendDown c c.elems c.step) := by
    simp only [exec, execReduce, hp, hc, hk, if_true]
    rw [settleCommits_idle hidle, stepWaited_idle hidle]
  refine ⟨_, hx, ?_, ?_, ?_⟩
  · rw [hsent.delivered, hcol.frame]
  · rw [hsent.chunks, hcol.frame, hframe]
  · rw [hsent.mem, deliverCol_mem, pick_mem hp]
end

/-- Settles O41. -/
theorem deliveredPacketsTakeEffect : Obligations.DeliveredPacketsTakeEffect :=
  ⟨fun _ _ _ _ => write_yields,
    fun _ _ _ _ _ _ _ hp ht hl hr hroute => rowReq_yields hp rfl ht hl hr hroute,
    fun _ _ _ _ _ hp hg hstatus hitems hstaged hj => rowResp_yields hp rfl hg hstatus hitems hstaged hj,
    fun _ _ _ => scatterAdd_yields,
    fun _ _ _ => reduce_climbs,
    fun _ _ _ hp hk hcommit => reduce_descends hp rfl hk hcommit⟩

end Sys2Proof.Machine
end

section
/-! PROOFS. Copies: COPY and FILL move their rows one after another (R250 to R252). -/

namespace Sys2Proof.Machine

/-! ### What the checks of a descriptor give (R251) -/

theorem false_of_minBad {bad : List (Bool × Nat)} (h : minBad bad = none) {x : Bool × Nat} (hx : x ∈ bad) : x.1 = false := by
  induction bad using List.reverseRecOn with
  | nil => cases hx
  | append_singleton xs y ih =>
    rw [minBad, List.foldl_append] at h
    by_cases hy : y.1 = true
    · simp [hy] at h
    · rcases List.mem_append.mp hx with hx | hx
      · exact ih (by simpa [minBad, hy] using h) hx
      · rw [List.mem_singleton.mp hx]
        exact Bool.eq_false_iff.mpr hy

/-- Where rows lie that may be moved: the destination rows apart, and a COPY's source clear of its destination. -/
structure CopyCtl.Fits (c : CopyCtl) : Prop where
  apart : 1 < c.rows → c.rowBytes ≤ c.dstStride
  clear : c.fill = false → c.src + stridedSpan c.rows c.srcStride c.rowBytes ≤ c.dst ∨
    c.dst + stridedSpan c.rows c.dstStride c.rowBytes ≤ c.src

theorem copyBad_none {d : Desc} {c : CopyCtl} (h : copyBad d c = none) (hr : 1 < c.rows) : c.rowBytes ≤ c.dstStride := by
  have hx : (decide (1 < c.rows ∧ c.dstStride < c.rowBytes), 44) ∈ spansBad (descWords d) (copySpans c.fill) ++
      [(decide (c.rowBytes = 0 ∨ 0x80000000 < c.rowBytes), 32), (decide (c.rows = 0), 36),
       (decide (1 < c.rows ∧ c.dstStride < c.rowBytes), 44)] := by simp
  have hlt : ¬ (1 < c.rows ∧ c.dstStride < c.rowBytes) := of_decide_eq_false (false_of_minBad h hx)
  omega

theorem not_overlap_iff {a n b m : Nat} : overlap a n b m = false ↔ b + m ≤ a ∨ a + n ≤ b := by
  simp only [overlap, decide_eq_false_iff_not]
  omega

theorem fits_of_copyCheck {s : State} {n : Fin 256} {q : QDesc} {c : CopyCtl} (h : s.copyCheck n q c = .ok ()) : c.Fits := by
  unfold State.copyCheck at h
  split at h
  · cases h
  · rename_i hbad
    refine ⟨copyBad_none hbad, fun hfill => ?_⟩
    simp only [hfill, Bool.false_eq_true, if_false, Bool.not_false, true_and] at h
    (repeat' split at h) <;> cases h
    -- the checks pass only where the spans do not overlap
    exact (not_overlap_iff.mp (Bool.eq_false_iff.mpr ‹_›)).symm

/-! ### Where the rows lie -/

section
variable {c : CopyCtl} {i k : Nat}

def CopyCtl.srcRow (c : CopyCtl) (i : Nat) : Nat := c.src + i * c.srcStride
def CopyCtl.dstRow (c : CopyCtl) (i : Nat) : Nat := c.dst + i * c.dstStride

/-- An address outside the destination row i. -/
def CopyCtl.Outside (c : CopyCtl) (i a : Nat) : Prop := a < c.dstRow i ∨ c.dstRow i + c.rowBytes ≤ a

theorem row_le_stridedSpan {rows : Nat} (stride bytes : Nat) (h : i < rows) : i * stride + bytes ≤ stridedSpan rows stride bytes :=
  Nat.add_le_add_right (Nat.mul_le_mul_right stride (by omega)) bytes

theorem CopyCtl.Fits.dstRow_apart (h : c.Fits) (hik : i < k) (hk : k < c.rows) : c.dstRow i + c.rowBytes ≤ c.dstRow k := by
  have hrow : c.rowBytes ≤ c.dstStride := h.apart (by omega)
  calc c.dst + i * c.dstStride + c.rowBytes ≤ c.dst + (i + 1) * c.dstStride := by rw [Nat.succ_mul]; omega
    _ ≤ c.dst + k * c.dstStride := Nat.add_le_add_left (Nat.mul_le_mul_right _ hik) _

theorem CopyCtl.Fits.dst_outside (h : c.Fits) {j : Nat} (hi : i < c.rows) (hk : k < c.rows) (hne : i ≠ k) (hj : j < c.rowBytes) :
    c.Outside k (c.dstRow i + j) := by
  unfold CopyCtl.Outside
  rcases Nat.lt_or_gt_of_ne hne with hlt | hgt
  · have hbelow := h.dstRow_apart hlt hk
    omega
  · have habove := h.dstRow_apart hgt hi
    omega

theorem CopyCtl.Fits.src_outside (h : c.Fits) (hf : c.fill = false) {j : Nat} (hi : i < c.rows) (hk : k < c.rows)
    (hj : j < c.rowBytes) : c.Outside k (c.srcRow i + j) := by
  have hs := row_le_stridedSpan c.srcStride c.rowBytes hi
  have hd := row_le_stridedSpan c.dstStride c.rowBytes hk
  have hclear := h.clear hf
  unfold CopyCtl.Outside CopyCtl.srcRow CopyCtl.dstRow
  omega
end

/-! ### What a row brings -/

/-- Byte j that row i of a COPY or FILL writes, as memory stands. -/
def CopyCtl.moved (c : CopyCtl) (m : Memory) (i j : Nat) : Byte :=
  if c.fill then BitVec.ofNat 8 (c.value / 256 ^ (j % 8)) else m.read (c.srcRow i + j)

def CopyCtl.row (c : CopyCtl) (m : Memory) (i : Nat) : List Byte := (List.range c.rowBytes).map (c.moved m i)

section
variable (c : CopyCtl) (m : Memory) (i : Nat)

@[simp] theorem CopyCtl.length_row : (c.row m i).length = c.rowBytes := by simp [CopyCtl.row]

theorem CopyCtl.row_eq : c.row m i =
    if c.fill then fillRow c.value c.rowBytes else m.readBytes (c.src + i * c.srcStride) c.rowBytes := by
  unfold CopyCtl.row CopyCtl.moved
  split <;> rfl
end

/-- Of memory, a row brings only its source, and a FILL's row nothing. -/
theorem moved_congr {c : CopyCtl} {m m' : Memory} {i j : Nat}
    (h : c.fill = false → m'.read (c.srcRow i + j) = m.read (c.srcRow i + j)) : c.moved m' i j = c.moved m i j := by
  unfold CopyCtl.moved
  split
  · rfl
  · exact h (Bool.eq_false_iff.mpr ‹_›)

/-! ### Rows moved -/

/-- Rows `r` to `r + k - 1` stand at the destination, memory is otherwise as it was, and the rows are counted. -/
structure RowsMoved (n : Fin 256) (c : CopyCtl) (r k : Nat) (s t : State) : Prop where
  outside : ∀ a, (∀ i, r ≤ i → i < r + k → c.Outside i a) → t.mem.read a = s.mem.read a
  inside : ∀ i, r ≤ i → i < r + k → ∀ j < c.rowBytes, t.mem.read (c.dstRow i + j) = c.moved s.mem i j
  counted : t.cores[n].xfer.bytesWritten = s.cores[n].xfer.bytesWritten + BitVec.ofNat 64 (k * c.rowBytes)
  frame : t = { s with cores := s.cores.set n t.cores[n], mem := t.mem, hbm := t.hbm }

section
variable {n : Fin 256} {c : CopyCtl} {r k k' : Nat} {s t u : State}

theorem RowsMoved.refl : RowsMoved n c r 0 s s where
  outside := fun _ _ => rfl
  inside := fun i hi hk => by omega
  counted := by simp
  frame := by simp

theorem RowsMoved.trans (hc : c.Fits) (hrows : r + k + k' ≤ c.rows) (h : RowsMoved n c r k s t)
    (h' : RowsMoved n c (r + k) k' t u) : RowsMoved n c r (k + k') s u where
  outside := fun a ha => (h'.outside a (fun i hi hk => ha i (by omega) (by omega))).trans
    (h.outside a (fun i hi hk => ha i hi (by omega)))
  inside := by
    intro i hi hk j hj
    by_cases hlt : i < r + k
    · calc u.mem.read (c.dstRow i + j) = t.mem.read (c.dstRow i + j) :=
            h'.outside _ fun x hx hxk => hc.dst_outside (by omega) (by omega) (by omega) hj
        _ = c.moved s.mem i j := h.inside i hi hlt j hj
    · calc u.mem.read (c.dstRow i + j) = c.moved t.mem i j := h'.inside i (by omega) (by omega) j hj
        _ = c.moved s.mem i j := moved_congr fun hf =>
            h.outside _ fun x hx hxk => hc.src_outside hf (by omega) (by omega) hj
  counted := by rw [h'.counted, h.counted, BitVec.add_assoc, ← BitVec.ofNat_add, ← Nat.add_mul]
  frame := by
    rw [h'.frame, h.frame]
    simp

/-- Row r is moved by a write of what it brings, with its bytes counted, in a state `t` that differs from `s` only in what a
read of the source has noted. -/
theorem rowsMoved_writeMem (hm : s.mergeFail (c.dstRow r) c.rowBytes = none) (hmem : OnlyMemory s t)
    (hsame : (t.writeMem (c.dstRow r) (c.row s.mem r)).mem = (s.writeMem (c.dstRow r) (c.row s.mem r)).mem)
    {f : Transfer → Transfer} (hf : ∀ x, (f x).bytesWritten = wrap64 x.bytesWritten c.rowBytes) :
    RowsMoved n c r 1 s ((t.writeMem (c.dstRow r) (c.row s.mem r)).modXfer n f) := by
  have hw : (t.writeMem (c.dstRow r) (c.row s.mem r)).mem = s.mem.writeBytes (c.dstRow r) (c.row s.mem r) := by
    rw [hsame, writeMem_mem, CopyCtl.length_row, if_pos (partPoisoned_of_mergeFail _ _ hm)]
  have hframe : OnlyMemory s (t.writeMem (c.dstRow r) (c.row s.mem r)) := hmem.trans (writeMem_frame ..)
  refine ⟨fun a ha => ?_, fun i hi hk j hj => ?_, ?_, ?_⟩
  · rw [modXfer_mem, hw]
    exact Memory.read_writeBytes_outside _ _ _ _ (by simpa [CopyCtl.Outside] using ha r (Nat.le_refl r) (Nat.lt_succ_self r))
  · obtain rfl : i = r := by omega
    rw [modXfer_mem, hw, Memory.read_writeBytes_inside _ _ _ _ (by simpa using hj)]
    simp [CopyCtl.row]
  · rw [State.modXfer, hframe]
    simp [hf, wrap64]
  · rw [State.modXfer, hframe]
    simp [State.modCore]

theorem copyRow_moves (h : s.copyRow n c r = .ok t) : RowsMoved n c r 1 s t := by
  simp only [State.copyRow] at h
  split at h
  · cases h
  · cases h
  · rename_i hm
    cases h
    rw [State.readMem, ← CopyCtl.row_eq]
    refine rowsMoved_writeMem hm ?_ ?_ fun _ => rfl
    · split
      · rfl
      · exact onlyMemory_noteRead _
    · split
      · rfl
      · exact writeMem_noteRead_mem ..

theorem copyRows_move (hc : c.Fits) (hrows : r + k ≤ c.rows) (h : (State.copyRows n c k r s).2 = none) :
    RowsMoved n c r k s (State.copyRows n c k r s).1 := by
  induction k generalizing r s with
  | zero => exact .refl
  | succ k ih =>
    rw [State.copyRows] at h ⊢
    split at h
    · cases h
    · rename_i t ht
      rw [Nat.add_comm k 1]
      exact (copyRow_moves ht).trans hc (by omega) (ih (by omega) h)
end

/-! ### The descriptor's end -/

/-- What a COPY or FILL leaves besides the bytes of its rows: all else in memory as it was, the bytes counted, and the
descriptor done. -/
def TransferDone (n : Fin 256) (r : Running) (s t : State) : Prop :=
  let g := clusterOfCore n
  let c := copyCtl r.q.desc
  (∀ a, (∀ i < c.rows, c.Outside i a) → t.mem.read a = s.mem.read a) ∧
  t.cores[n].xfer.bytesWritten = s.cores[n].xfer.bytesWritten + BitVec.ofNat 64 (c.rows * c.rowBytes) ∧
  { r with phase := .finished, summary := none } ∈ (t.queue g (.transfer (coreK n))).running ∧
  t = { s with clusters := s.clusters.set g t.clusters[g], cores := s.cores.set n t.cores[n], mem := t.mem, hbm := t.hbm }

section
variable {n : Fin 256} {r : Running} {s : State} {opcode : Nat}

theorem transferOp_finishes (ha : s.activeOp (clusterOfCore n) (.transfer (coreK n)) opcode = some r)
    (hc : s.copyCheck n r.q (copyCtl r.q.desc) = .ok ())
    (hr : (State.copyRows n (copyCtl r.q.desc) (copyCtl r.q.desc).rows 0 s).2 = none) :
    transferOp n opcode s = (State.copyRows n (copyCtl r.q.desc) (copyCtl r.q.desc).rows 0 s).1.finishDesc
      (clusterOfCore n) (.transfer (coreK n)) r none := by
  simp only [transferOp, ha, hc]
  generalize State.copyRows n (copyCtl r.q.desc) (copyCtl r.q.desc).rows 0 s = p at hr ⊢
  obtain ⟨t, f⟩ := p
  cases hr
  rfl

theorem transferOp_moves (ha : s.activeOp (clusterOfCore n) (.transfer (coreK n)) opcode = some r)
    (hc : s.copyCheck n r.q (copyCtl r.q.desc) = .ok ())
    (hr : (State.copyRows n (copyCtl r.q.desc) (copyCtl r.q.desc).rows 0 s).2 = none) :
    TransferDone n r s (transferOp n opcode s) ∧ ∀ i < (copyCtl r.q.desc).rows, ∀ j < (copyCtl r.q.desc).rowBytes,
      (transferOp n opcode s).mem.read ((copyCtl r.q.desc).dstRow i + j) = (copyCtl r.q.desc).moved s.mem i j := by
  have hm := copyRows_move (fits_of_copyCheck hc) (by omega) hr
  rw [transferOp_finishes ha hc hr]
  generalize (State.copyRows n (copyCtl r.q.desc) (copyCtl r.q.desc).rows 0 s).1 = t at hm ⊢
  obtain ⟨houtside, hinside, hcounted, hframe⟩ := hm
  refine ⟨⟨fun a ha => ?_, hcounted, ?_, ?_⟩, fun i hi j hj => ?_⟩
  · exact houtside a fun i _ hi => ha i (by omega)
  · have hq : t.queue (clusterOfCore n) (.transfer (coreK n)) = s.queue (clusterOfCore n) (.transfer (coreK n)) :=
      queue_congr _ _ _ (by rw [hframe])
    rw [State.finishDesc, queue_setRunning, hq]
    exact mem_modFirst (mem_running_of_activeOp ha)
  · have hfin : OnlyCluster (clusterOfCore n) t (t.finishDesc (clusterOfCore n) (.transfer (coreK n)) r none) :=
      onlyCluster_modQueue ..
    rw [hfin, hframe]
    simp
  · exact hinside i (Nat.zero_le i) (by omega) j hj

theorem fill_of_activeOp {g : Fin 32} {q : QueueId} (ha : s.activeOp g q opcode = some r) :
    (copyCtl r.q.desc).fill = decide (opcode = 2) := by
  have ho : r.q.desc.opcode = opcode := of_decide_eq_true (Option.filter_eq_some_iff.mp ha).2
  rw [← ho, copyCtl]
end

/-- Settles O31: each row moved lies apart from the rows before it and from the source, and the rows follow one another. -/
theorem copyAndFillMoveEveryRow : Obligations.CopyAndFillMoveEveryRow := by
  intro n r s g q c hc hr Rest
  refine ⟨fun ha => ?_, fun ha => ?_⟩
  · obtain ⟨hrest, hrows⟩ := transferOp_moves ha hc hr
    exact ⟨_, rfl, hrest, fun i hi j hj =>
      (hrows i hi j hj).trans (by simp [CopyCtl.moved, fill_of_activeOp ha, CopyCtl.srcRow, c])⟩
  · obtain ⟨hrest, hrows⟩ := transferOp_moves ha hc hr
    exact ⟨_, rfl, hrest, fun i hi j hj =>
      (hrows i hi j hj).trans (by simp [CopyCtl.moved, fill_of_activeOp ha, c])⟩

end Sys2Proof.Machine
end

section
/-! PROOFS. MatrixEngine: commands become passes; passes start and drain, tiles enter the queue, CONVERT runs (R308 to R369). -/

namespace Sys2Proof.Machine

/-! Elaborated one after another: side by side these proofs take memory that the whole text's compile does not have. -/

set_option Elab.async false

/-! ### Lists changed at their first element that passes a test -/

section
variable {α : Type} {p : α → Bool} {f : α → α} {xs ys : List α} {y : α}

theorem modFirst_append_cons (hx : ∀ x ∈ xs, p x = false) (hy : p y = true) :
    modFirst p f (xs ++ y :: ys) = xs ++ f y :: ys := by
  induction xs with
  | nil => simp [modFirst, hy]
  | cons x xs ih =>
    obtain ⟨hpx, hxs⟩ := List.forall_mem_cons.mp hx
    simp [modFirst, hpx, ih hxs]
end

/-! ### Memory written piece by piece -/

section
variable {α : Type} {s : State}

theorem OnlyMemory.foldl {f : State → α → State} (hf : ∀ s x, OnlyMemory s (f s x)) (xs : List α) (s : State) :
    OnlyMemory s (xs.foldl f s) := by
  induction xs generalizing s with
  | nil => rfl
  | cons x xs ih => exact (hf s x).trans (ih _)

theorem OnlyMemory.cores {t : State} (h : OnlyMemory s t) : t.cores = s.cores := by rw [h]

theorem OnlyMemory.clusters {t : State} (h : OnlyMemory s t) : t.clusters = s.clusters := by rw [h]

/-- A byte outside every piece that a run of writes covers. -/
theorem read_foldl_writeMem_outside (addr : α → Nat) (bytes : α → List Byte) {xs : List α} {a : Nat}
    (h : ∀ x ∈ xs, a < addr x ∨ addr x + (bytes x).length ≤ a) :
    (xs.foldl (fun s x => s.writeMem (addr x) (bytes x)) s).mem.read a = s.mem.read a := by
  induction xs generalizing s with
  | nil => rfl
  | cons x xs ih =>
    obtain ⟨hx, hxs⟩ := List.forall_mem_cons.mp h
    rw [List.foldl_cons, ih hxs, sameMemoryBut_writeMem _ _ _ a hx]

/-- A change of a core and a write of memory come to the same in either order. -/
theorem writeMem_modCore (n : Fin 256) (f : Core → Core) (a : Nat) (bs : List Byte) :
    (s.modCore n f).writeMem a bs = (s.writeMem a bs).modCore n f := by
  unfold State.writeMem
  dsimp only
  split <;> rfl

theorem onlyMemory_writeAll (ws : List (Nat × List Byte)) : OnlyMemory s (s.writeAll ws) :=
  .foldl (fun _ _ => writeMem_frame ..) _ _

theorem onlyMemory_writeAll_if (b : Bool) (ws : List (Nat × List Byte)) :
    OnlyMemory s (if b = true then s.writeAll ws else s) := by
  split
  · exact onlyMemory_writeAll ws
  · rfl

theorem read_writeAll_outside {ws : List (Nat × List Byte)} {a : Nat} (h : ∀ w ∈ ws, a < w.1 ∨ w.1 + w.2.length ≤ a) :
    (s.writeAll ws).mem.read a = s.mem.read a :=
  read_foldl_writeMem_outside Prod.fst Prod.snd h
end

/-! ### Tiles in their slots (R365, R368) -/

/-- A finished tile as the queue holds it in slot k. -/
def Tile.inSlot (x : Tile) (k : Nat) : SlotTile := ⟨x.h0, x.h1, k⟩

section
variable {s : State} (n : Fin 256) (k : Nat) (x : Tile)

theorem onlyMemory_storeTile : OnlyMemory s (s.storeTile n k x) := .foldl (fun _ _ => writeMem_frame ..) _ _

theorem storeTile_modCore (f : Core → Core) : (s.modCore n f).storeTile n k x = (s.storeTile n k x).modCore n f :=
  List.foldl_hom (State.modCore · n f) fun _ _ => (writeMem_modCore ..)

/-- A byte outside the rows of a tile is as it was: a row holds its columns, one element after the other. -/
theorem read_storeTile_outside {a : Nat} (h : ∀ i < (x.inSlot k).rows, a < tileRowAddr n k (x.inSlot k).fmt i ∨
    tileRowAddr n k (x.inSlot k).fmt i + (x.inSlot k).cols * tileElem (x.inSlot k).fmt ≤ a) :
    (s.storeTile n k x).mem.read a = s.mem.read a := by
  refine read_foldl_writeMem_outside _ _ fun i hi => ?_
  simpa [Tile.inSlot] using h i (List.mem_range.mp hi)
end

/-! ### One core and the clusters -/

section
variable {n : Fin 256} {s t : State}

theorem onlyCoreQueues_modCore (f : Core → Core) : OnlyCoreQueues n s (s.modCore n f) := by
  simp [OnlyCoreQueues, State.modCore]

theorem OnlyClusters.coreQueues (h : OnlyClusters s t) : OnlyCoreQueues n s t := by
  rw [h]
  simp [OnlyCoreQueues]

theorem OnlyClusters.cores (h : OnlyClusters s t) : t.cores = s.cores := by rw [h]

theorem cores_modTbuf (f : TransBuf → TransBuf) : (s.modTbuf n f).cores[n] = { s.cores[n] with tbuf := f s.cores[n].tbuf } := by
  simp [State.modTbuf]

theorem cores_modVec (f : Vec → Vec) : (s.modVec n f).cores[n] = { s.cores[n] with vec := f s.cores[n].vec } := by
  simp [State.modVec]
end

/-! ### Commands that have ended (R327, R339) -/

/-- An array without the commands whose passes have all ended; their useful work counts. -/
def Matrix.settled (x : Matrix) : Matrix :=
  { x with
    jobs := x.jobs.filter (fun j => !j.passes.isEmpty)
    usefulMacs := wrap64 x.usefulMacs
      ((x.jobs.filter (fun j => j.passes.isEmpty)).map (fun j => (descMat j.run.q.desc).1.useful j.meta_)).sum }

/-- What the buffer keeps for the commands of an array. -/
def Matrix.kept (x : Matrix) (t : TransBuf) : TransBuf :=
  if x.jobs.isEmpty then t.empty
  else if x.jobs.any (fun j => (descMat j.run.q.desc).2.isSome) then t
  else { t with rows := [], rowbuf := false }

section
variable (s : State) (n : Fin 256)

/-- Beyond the array and the buffer, settling only ends descriptors. -/
theorem matrixSettle_leaves :
    OnlyClusters ((s.modMatrix n Matrix.settled).modTbuf n s.cores[n].mtx.settled.kept) (s.matrixSettle n) :=
  OnlyClusters.foldl (f := fun s (j : MatrixJob) => s.finishDesc (clusterOfCore n) (.matrix (coreK n)) j.run none)
    (fun _ _ => .finishDesc ..) (s.cores[n].mtx.jobs.filter (fun j => j.passes.isEmpty)) _

theorem onlyCoreQueues_matrixSettle : OnlyCoreQueues n s (s.matrixSettle n) := by
  exact ((onlyCoreQueues_modCore _).trans (onlyCoreQueues_modCore _)).trans (matrixSettle_leaves s n).coreQueues

theorem mtx_matrixSettle : (s.matrixSettle n).cores[n].mtx = s.cores[n].mtx.settled := by
  rw [(matrixSettle_leaves s n).cores, cores_modTbuf, cores_modMatrix]

theorem vec_matrixSettle : (s.matrixSettle n).cores[n].vec = s.cores[n].vec := by
  rw [(matrixSettle_leaves s n).cores, cores_modTbuf, cores_modMatrix]
end

/-! ### Commands taken (R308, R326, R331, R333) -/

theorem mem_running_of_matrixNext {s : State} {n : Fin 256} {opcode : Nat} {r : Running} (h : s.matrixNext n opcode = some r) :
    r ∈ (s.queue (clusterOfCore n) (.matrix (coreK n))).running :=
  List.mem_of_find?_eq_some (Option.filter_eq_some_iff.mp h).1

/-- A command of core n waits in the array as its passes, in its mode; nothing changes but the core and its cluster's queue. -/
def JobTaken (n : Fin 256) (r : Running) (s : State) (mode : StatMode) (bs : List Byte) (ps : List Pass) (t : State) : Prop :=
  t.cores[n].mtx.jobs = s.cores[n].mtx.jobs ++ [⟨{ r with phase := .working }, mode, bs, ps⟩] ∧
  t.cores[n].mtx.mode = mode ∧ { r with phase := .working } ∈ (t.queue (clusterOfCore n) (.matrix (coreK n))).running ∧
  t = { s with clusters := s.clusters.set (clusterOfCore n) t.clusters[clusterOfCore n], cores := s.cores.set n t.cores[n] }

section
variable {n : Fin 256} {r : Running} {s : State} {opcode : Nat} {ps : List (Nat × Nat × Nat)} {bs : List Byte}

theorem takeJob_taken (h : s.matrixNext n opcode = some r) (mode : StatMode) (bs : List Byte) (ps : List Pass) :
    JobTaken n r s mode bs ps (s.takeJob n r mode bs ps) := by
  have hrun : { r with phase := .working } ∈ ((s.setRunning (clusterOfCore n) (.matrix (coreK n)) r
      { r with phase := .working }).queue (clusterOfCore n) (.matrix (coreK n))).running := by
    rw [queue_setRunning]
    exact mem_modFirst (mem_running_of_matrixNext h)
  refine ⟨?_, ?_, hrun, ?_⟩
  · rw [State.takeJob, cores_modTbuf, cores_modMatrix]
    rfl
  · rw [State.takeJob, cores_modTbuf, cores_modMatrix]
  · simp [State.takeJob, State.modTbuf, State.modMatrix, State.modCore, State.setRunning, State.modQueue, State.modCluster]

theorem matmulOp_takes {c : MatCtl} (hc : s.matCheck n r.q c = .ok ps) (hm : s.metaCheck n r.q c ps = .ok bs) :
    matmulOp n r c s = s.takeJob n r (c.modeTaken bs) bs (c.passes (c.modeTaken bs) bs) := by
  simp only [matmulOp, hc, hm]

theorem matmul_taken (h : s.matrixNext n 1 = some r) (hc : s.matCheck n r.q (matmulCtl r.q.desc) = .ok ps)
    (hm : s.metaCheck n r.q (matmulCtl r.q.desc) ps = .ok bs) :
    Yields (.matmul n) s (JobTaken n r s ((matmulCtl r.q.desc).modeTaken bs) bs
      ((matmulCtl r.q.desc).passes ((matmulCtl r.q.desc).modeTaken bs) bs)) :=
  ⟨_, by simp only [exec, execMatmul, h, matmulOp_takes hc hm], takeJob_taken h ..⟩

theorem matmulFill_taken (h : s.matrixNext n 2 = some r) (hc : s.matCheck n r.q (fillCtl r.q.desc) = .ok ps)
    (hm : s.metaCheck n r.q (fillCtl r.q.desc) ps = .ok bs) :
    Yields (.matmulFill n) s (JobTaken n r s ((fillCtl r.q.desc).modeTaken bs) bs
      ((fillCtl r.q.desc).passes ((fillCtl r.q.desc).modeTaken bs) bs)) :=
  ⟨_, by simp only [exec, execMatmulFill, h, matmulOp_takes hc hm], takeJob_taken h ..⟩

theorem conv_taken (h : s.matrixNext n 3 = some r)
    (hc : s.convCheck n r.q (convCtl r.q.desc) ((convCtl r.q.desc).mat r.q.desc) = .ok ps) :
    Yields (.conv n) s (JobTaken n r s .output [] (convCtl r.q.desc).passes) :=
  ⟨_, by simp only [exec, execConv, h, hc], takeJob_taken h ..⟩
end

/-- Settles O33, command by command: each joins the array's commands by `State.takeJob`. -/
theorem matrixCommandsBecomePasses : Obligations.MatrixCommandsBecomePasses := by
  intro n r s Taken
  exact ⟨fun _ _ h hc hm => matmul_taken h hc hm, fun _ _ h hc hm => matmulFill_taken h hc hm,
    fun _ h hc => conv_taken h hc⟩

/-! ### The next pass (R308, R310, R311) -/

/-- The next pass is its command's first that has not started, and every pass of the commands before it has. -/
theorem nextPass_split {acc js before : List MatrixJob} {j : MatrixJob} {p : Pass} (h : nextPass acc js = some (before, j, p)) :
    ∃ mid rest, before = acc ++ mid ∧ js = mid ++ j :: rest ∧ j.passes.find? (fun p => decide (p.phase = .ready)) = some p := by
  induction js generalizing acc with
  | nil => cases h
  | cons i js ih =>
    rw [nextPass] at h
    split at h
    · cases h
      exact ⟨[], js, by simp, rfl, ‹_›⟩
    · obtain ⟨mid, rest, hb, hj, hp⟩ := ih h
      exact ⟨i :: mid, rest, by simp [hb], by simp [hj], hp⟩

/-- The next pass as it stands once it has started. -/
def State.startedPass (s : State) (n : Fin 256) (j : MatrixJob) (p : Pass) : Pass :=
  let o := s.startOps n j p
  let g := s.passGroups n j.run o p
  let out := s.passOut n j.run o p g.1 g.2
  { p with
    phase := .firing
    writes := if p.skipped then [] else passWrites o p out
    tiles := passTiles o.c j.run.ordinal (decide ((j.passes.filter (fun x => decide (x.phase = .ready))).length = 1)) p out }

/-- The array once a pass has started: its counters, its command and, with a firing, its ballast. -/
def State.arrayStarted (s : State) (n : Fin 256) (j : MatrixJob) (p : Pass) : Matrix → Matrix := fun x =>
  let y := (matrixCount (s.startOps n j p).c j.mode j.meta_ p x).modJob j (fun j' =>
    if p.skipped ∧ (s.startedPass n j p).tiles = [] then
      { j' with passes := delFirst (fun y => decide (y.phase = .ready)) j'.passes }
    else j'.modReady (fun _ => s.startedPass n j p))
  if p.skipped then y else { y with ballast := ballastStart y, idle := false }

section
variable {s : State} {n : Fin 256} {before : List MatrixJob} {j : MatrixJob} {p : Pass}

/-- Starting a pass changes the array and the buffer; a skipped pass writes its block of D at once (R359). -/
theorem passStart_leaves (s : State) (n : Fin 256) (j : MatrixJob) (p : Pass) : ∃ f w,
    OnlyMemory ((s.modMatrix n (s.arrayStarted n j p)).modTbuf n f) w ∧ (p.skipped = false → w.mem = s.mem) ∧
    s.passStart n j p = w.matrixSettle n := by
  rcases hg : s.passGroups n j.run (s.startOps n j p) p with ⟨as, bs⟩
  unfold State.arrayStarted
  simp only [State.passStart, State.startedPass, hg]
  refine ⟨?f, _, ?mem, fun h => ?same, rfl⟩
  case mem => exact onlyMemory_writeAll_if ..
  case same => rw [if_neg (Bool.eq_false_iff.mp h), modTbuf_mem, modMatrix_mem]

theorem mtx_passStart (s : State) (n : Fin 256) (j : MatrixJob) (p : Pass) :
    (s.passStart n j p).cores[n].mtx = (s.arrayStarted n j p s.cores[n].mtx).settled := by
  obtain ⟨f, w, hmem, -, h⟩ := passStart_leaves s n j p
  rw [h, mtx_matrixSettle, hmem.cores, cores_modTbuf, cores_modMatrix]

theorem mem_passStart (h : p.skipped = false) : (s.passStart n j p).mem = s.mem := by
  obtain ⟨f, w, -, hw, hs⟩ := passStart_leaves s n j p
  rw [hs, matrixSettle_mem, hw h]

theorem exec_passStart (hn : nextPass [] s.cores[n].mtx.jobs = some (before, j, p))
    (hh : s.cores[n].mtx.nextHeld n s.cores[n].tbuf = false) (hc : p.skipped = true ∨ s.cores[n].mtx.contexts < 4) :
    exec (.passStart n) s = .next (s.passStart n j p) := by
  have hw : s.cores[n].mtx.nextWaits = false := by
    simp only [Matrix.nextWaits, hn]
    rcases hc with hc | hc
    · simp only [hc, Bool.not_true, Bool.false_and]
    · simp only [decide_eq_false (Nat.not_le.mpr hc), Bool.and_false]
  simp only [exec, execPassStart, hn, hh, hw, Bool.false_eq_true, if_false]

/-- The array's commands keep the one whose pass fires, with the pass as it stands once it has started. -/
theorem jobs_arrayStarted (hn : nextPass [] s.cores[n].mtx.jobs = some (before, j, p)) (hp : p.skipped = false)
    (hb : ∀ x ∈ before, x.run ≠ j.run) :
    j.modReady (fun _ => s.startedPass n j p) ∈ (s.arrayStarted n j p s.cores[n].mtx).jobs := by
  obtain ⟨mid, rest, hbefore, hjobs, -⟩ := nextPass_split hn
  obtain rfl : before = mid := hbefore
  have hmod : (s.arrayStarted n j p s.cores[n].mtx).jobs =
      modFirst (fun y => decide (y.run = j.run)) (·.modReady (fun _ => s.startedPass n j p)) s.cores[n].mtx.jobs := by
    simp [State.arrayStarted, Matrix.modJob, matrixCount, hp]
  rw [hmod, hjobs, modFirst_append_cons (by simpa using hb) (by simp)]
  simp

theorem mem_passes_modReady (hn : nextPass [] s.cores[n].mtx.jobs = some (before, j, p)) (p' : Pass) :
    p' ∈ (j.modReady (fun _ => p')).passes := by
  obtain ⟨_, _, -, -, hfind⟩ := nextPass_split hn
  exact mem_modFirst_of_any (p := fun (x : Pass) => decide (x.phase = .ready)) (List.mem_of_find?_eq_some hfind)
    (List.find?_some (p := fun (x : Pass) => decide (x.phase = .ready)) hfind)

theorem firings_arrayStarted (h : p.skipped = false) (x : Matrix) :
    (s.arrayStarted n j p x).firings = x.firings + BitVec.ofNat 64 p.periods := by
  simp [State.arrayStarted, Matrix.modJob, matrixCount, h, wrap64]

theorem counters_arrayStarted_skipped (h : p.skipped = true) (x : Matrix) :
    (s.arrayStarted n j p x).skipped = x.skipped + 1 ∧ (s.arrayStarted n j p x).firings = x.firings := by
  simp [State.arrayStarted, Matrix.modJob, matrixCount, h, wrap64]

theorem passStart_fires (hn : nextPass [] s.cores[n].mtx.jobs = some (before, j, p))
    (hh : s.cores[n].mtx.nextHeld n s.cores[n].tbuf = false) (hp : p.skipped = false) (hc : s.cores[n].mtx.contexts < 4)
    (hb : ∀ x ∈ before, x.run ≠ j.run) :
    Yields (.passStart n) s (fun t => t.mem = s.mem ∧
      t.cores[n].mtx.firings = s.cores[n].mtx.firings + BitVec.ofNat 64 p.periods ∧
      ∃ j' ∈ t.cores[n].mtx.jobs, j'.run = j.run ∧ ∃ p' ∈ j'.passes, p'.phase = .firing ∧ p'.row0 = p.row0 ∧
        p'.col0 = p.col0 ∧ p'.writes = (s.startedPass n j p).writes) := by
  have hpass := mem_passes_modReady hn (s.startedPass n j p)
  refine ⟨_, exec_passStart hn hh (.inr hc), mem_passStart hp, ?_, j.modReady (fun _ => s.startedPass n j p), ?_, rfl, _, hpass,
    rfl, rfl, rfl, rfl⟩
  · rw [mtx_passStart]
    exact firings_arrayStarted hp _
  · rw [mtx_passStart]
    -- its command has a pass, so it has not ended
    exact List.mem_filter.mpr ⟨jobs_arrayStarted hn hp hb, by simp [List.ne_nil_of_mem hpass]⟩

theorem passStart_held (hn : nextPass [] s.cores[n].mtx.jobs = some (before, j, p))
    (hh : s.cores[n].mtx.nextHeld n s.cores[n].tbuf = true) (hp : p.held = false) :
    Yields (.passStart n) s (fun t => OnlyCore n s t ∧ t.cores[n].mtx.hazardHolds = s.cores[n].mtx.hazardHolds + 1 ∧
      t.cores[n].mtx.firings = s.cores[n].mtx.firings) := by
  refine ⟨_, by simp only [exec, execPassStart, hn, hh, hp, if_true, Bool.false_eq_true, if_false]; rfl, onlyCore_modMatrix _, ?_⟩
  rw [cores_modMatrix]
  exact ⟨rfl, rfl⟩

theorem passStart_skips (hn : nextPass [] s.cores[n].mtx.jobs = some (before, j, p))
    (hh : s.cores[n].mtx.nextHeld n s.cores[n].tbuf = false) (hp : p.skipped = true) :
    Yields (.passStart n) s (fun t => t.cores[n].mtx.skipped = s.cores[n].mtx.skipped + 1 ∧
      t.cores[n].mtx.firings = s.cores[n].mtx.firings) := by
  refine ⟨_, exec_passStart hn hh (.inl hp), ?_⟩
  beta_reduce
  rw [mtx_passStart]
  exact counters_arrayStarted_skipped hp _

/-! ### The drain and the tiles (R308, R327, R369) -/

theorem passDrainEnd_writes (h : drainNext s.cores[n].mtx.jobs = some (j, p)) :
    Yields (.passDrainEnd n) s (fun t => t.mem = (s.writeAll p.writes).mem ∧
      t.cores[n].mtx.passes = s.cores[n].mtx.passes + 1 ∧
      (∀ a, (∀ w ∈ p.writes, a < w.1 ∨ w.1 + w.2.length ≤ a) → t.mem.read a = s.mem.read a) ∧
      t = { s with clusters := t.clusters, cores := s.cores.set n t.cores[n], mem := t.mem, hbm := t.hbm }) := by
  refine ⟨_, by simp only [exec, execPassDrainEnd, h]; rfl, ?_, ?_, fun a ha => ?_, ?_⟩
  · rw [matrixSettle_mem, modMatrix_mem]
  · rw [mtx_matrixSettle, cores_modMatrix, (onlyMemory_writeAll _).cores]
    rfl
  · rw [matrixSettle_mem]
    exact read_writeAll_outside ha
  · exact OnlyCoreQueues.of_memory (onlyMemory_writeAll _) ((onlyCoreQueues_modCore _).trans (onlyCoreQueues_matrixSettle ..))

theorem tileEnter_stores {x : Tile} (h : tileNext s.cores[n].mtx.jobs = some (j, p, x))
    (hroom : s.cores[n].vec.ftq.length < s.cores[n].vec.ftqSlots) :
    Yields (.tileEnter n) s (fun t =>
      t.cores[n].vec.ftq = s.cores[n].vec.ftq ++ [x.inSlot (freeSlot s.cores[n].vec)] ∧
      t.mem = (s.storeTile n (freeSlot s.cores[n].vec) x).mem) := by
  refine ⟨_, by simp only [exec, execTileEnter, h, if_pos hroom]; rfl, ?_, ?_⟩
  · rw [vec_matrixSettle, cores_modMatrix, (onlyMemory_storeTile ..).cores, cores_modVec]
    rfl
  · rw [matrixSettle_mem, modMatrix_mem, State.modVec, storeTile_modCore, modCore_mem]

/-- Without a free slot no tile enters. -/
theorem exec_tileEnter_full (h : s.cores[n].vec.ftqSlots ≤ s.cores[n].vec.ftq.length) : exec (.tileEnter n) s = .next s := by
  simp only [exec, execTileEnter, if_neg (Nat.not_lt.mpr h)]
  split <;> rfl
end

/-! ### CONVERT (R337, R338, R340) -/

section
variable {n : Fin 256} {r : Running} {ps : List (Nat × Nat × Nat)} {s : State} {c : MatCtl}

/-- A CONVERT writes memory row by row, counts in the buffer and finishes. -/
theorem convertRun_eq : ∃ t f, OnlyMemory s t ∧
    (∀ b, (f b).elemsConverted = b.elemsConverted + BitVec.ofNat 64 (c.m * c.k)) ∧
    s.convertRun n r c ps = (t.modTbuf n f).finishDesc (clusterOfCore n) (.matrix (coreK n)) r none := by
  refine ⟨_, _, ?_, fun _ => ?_, rfl⟩
  · refine .foldl (fun t x => ?_) _ _
    dsimp only
    have hrow (a : Nat) (bs : List Byte) (t : State) : OnlyMemory t (t.writeMem a bs) := writeMem_frame ..
    split
    · exact (hrow ..).trans (hrow ..)
    · exact hrow ..
  · rfl

theorem convert_runs (h : s.matrixNext n 4 = some r) (hn : nextPass [] s.cores[n].mtx.jobs = none)
    (hc : s.convertCheck n r.q (convertCtl r.q.desc) = .ok ps) :
    Yields (.convert n) s (fun t =>
      t.cores[n].tbuf.elemsConverted = s.cores[n].tbuf.elemsConverted +
        BitVec.ofNat 64 ((convertCtl r.q.desc).m * (convertCtl r.q.desc).k) ∧
      t.cores[n].mtx = s.cores[n].mtx ∧ t.mem = (s.convertRun n r (convertCtl r.q.desc) ps).mem ∧
      { r with phase := .finished, summary := none } ∈ (t.queue (clusterOfCore n) (.matrix (coreK n))).running) := by
  obtain ⟨t, f, hmem, hf, hrun⟩ := convertRun_eq (n := n) (r := r) (ps := ps) (s := s) (c := convertCtl r.q.desc)
  have hcore : (s.convertRun n r (convertCtl r.q.desc) ps).cores[n] = { s.cores[n] with tbuf := f s.cores[n].tbuf } := by
    rw [hrun, (OnlyClusters.finishDesc ..).cores, cores_modTbuf, hmem.cores]
  refine ⟨_, by simp only [exec, execConvert, h, hn, hc], ?_, ?_, rfl, ?_⟩
  · rw [hcore]
    exact hf _
  · rw [hcore]
  · have hq : (t.modTbuf n f).queue (clusterOfCore n) (.matrix (coreK n)) = s.queue (clusterOfCore n) (.matrix (coreK n)) :=
      queue_congr _ _ _ (by rw [State.modTbuf, modCore_clusters, hmem.clusters])
    rw [hrun, State.finishDesc, queue_setRunning, hq]
    exact mem_modFirst (mem_running_of_matrixNext h)
end

/-- Settles O34, clause by clause: a pass fires, is held, is skipped, drains; a tile enters, or finds no slot; a CONVERT runs. -/
theorem passesFireDrainAndConvert : Obligations.PassesFireDrainAndConvert := by
  refine ⟨?_, fun _ _ _ _ _ => passStart_held, fun _ _ _ _ _ => passStart_skips,
    fun _ _ _ _ => passDrainEnd_writes, ?_, fun _ _ => exec_tileEnter_full, fun _ _ _ _ => convert_runs⟩
  · intro n before j p s o hn hh hp hc hb
    have hw : (s.startedPass n j p).writes =
        passWrites o p (s.passOut n j.run o p (s.passGroups n j.run o p).1 (s.passGroups n j.run o p).2) := by
      simp [State.startedPass, hp, o]
    rw [← hw]
    exact passStart_fires hn hh hp hc hb
  · intro n j p x s h hroom y
    obtain ⟨t, ht, hftq, hmem⟩ := tileEnter_stores h hroom
    refine ⟨t, ht, hftq, hmem, fun a ha => ?_⟩
    rw [hmem]
    exact read_storeTile_outside n y.slot x ha

end Sys2Proof.Machine
end
